-- ==== Sys2Proof/Word.lean ====
section
/-!
DEFINITION. The words of the block: 32-bit words and registers (R15), 39-bit codewords (R81), 64-bit
addresses and indices (R121, R237).
-/
namespace Sys2Proof

/-- A 32-bit word, bit 0 the least significant (R15). -/
abbrev Word := BitVec 32

/-- A 39-bit codeword: data in bits 31 to 0, check bits in bits 38 to 32 (R81). -/
abbrev Codeword := BitVec 39

/-- A byte of host memory. -/
abbrev Byte := BitVec 8

/-- A 64-bit virtual address, fabric address or ring index. -/
abbrev Addr := BitVec 64

end Sys2Proof
end

