-- ==== Sys2Proof/Syntax.lean ====
section
/-!
DEFINITION. The commands of the block: one constructor for each row of spec/opcode_table.json, in its order. The table
names no operand bits; the operands here are what the outside party delivers with the step, or which of several
possible moves the block makes (log entry 1). `noise` operands are error masks that storage or links put on codewords.
-/
namespace Sys2Proof

/-- The arbiters of Table 9.1. -/
inductive ArbId where
  | bank (slice bank : Nat)
  | merge (slice : Nat)
  | channel (ch : Nat)
  | inject (line : Nat)
  | mode
  deriving DecidableEq, Repr

/-- Errors met in one bank row: masks on the first read, on the reread (R291) and on the verify read (R294). -/
structure RowErr where
  slice : Nat
  bank : Nat
  row : Nat
  noise : List Codeword
  reread : List Codeword
  verify : List Codeword
  deriving DecidableEq, Repr

/-- A command. -/
inductive Instr where
  /-- TICK (R30). -/
  | tick (slice monBeats : Nat)
  /-- SUB_TICK (R26). -/
  | subTick
  /-- POWER_ON_RESET (R390). -/
  | powerOnReset (coolant : Bool)
  /-- BLKRST_N (R389). -/
  | blkrstN (coolant : Bool)
  /-- BLOCK_RESET (R389). -/
  | blockReset (id : Byte) (coolant : Bool)
  /-- FUNC_RINGS (R391). -/
  | funcRings (id : Byte)
  /-- FUNC_TRANSLATION (R391). -/
  | funcTranslation (id : Byte)
  /-- FUNC_MSQ (R391). -/
  | funcMsq (id : Byte)
  /-- FUNC_POWER (R391). -/
  | funcPower (id : Byte)
  /-- FUNC_COUNTERS (R391). -/
  | funcCounters (id : Byte)
  /-- ZERO_FILL_DONE (R394). -/
  | zeroFillDone (slice : Nat)
  /-- TRUST_DELIVERY (R422). -/
  | trustDelivery (beats : List (Byte × Word))
  /-- CAPM_BEAT (R425). -/
  | capmBeat (cap : BitVec 12) (capValid : Bool) (meas : BitVec 12) (measValid : Bool)
  /-- REGISTER_WRITE (R16). -/
  | registerWrite (off : Nat) (id : Byte) (data : Word)
  /-- TICK_LO_READ (R34). -/
  | tickLoRead (slice : Nat) (id : Byte)
  /-- REF_TICK_LO_READ (R49). -/
  | refTickLoRead (id : Byte)
  /-- CNT_GRANT_LO_READ (R288). -/
  | cntGrantLoRead (blockWide : Bool) (slice : Nat) (id : Byte)
  /-- CONTRACT_SEL_WRITE (R38). -/
  | contractSelWrite (id : Byte) (data : Word)
  /-- MODQ_TABLE_WRITE (R74). -/
  | modqTableWrite (i : Nat) (id : Byte) (data : Word)
  /-- RESERVE_MIB_WRITE (R99). -/
  | reserveMibWrite (id : Byte) (data : Word)
  /-- GEN_COMMIT (R408). -/
  | genCommit (id : Byte)
  /-- DEFERRED_GENERATION_COMMIT (R411). -/
  | deferredGenerationCommit
  /-- LATCH_CNT_CLEAR (R87). -/
  | latchCntClear (slice : Nat) (id : Byte)
  /-- KS_CNT_CLEAR (R113). -/
  | ksCntClear (id : Byte)
  /-- XN_CNT_CLEAR (R204). -/
  | xnCntClear (id : Byte)
  /-- MP_CNT_CLEAR (R242). -/
  | mpCntClear (id : Byte)
  /-- ARB_CNT_CLEAR (R288). -/
  | arbCntClear (slice : Nat) (id : Byte)
  /-- ARB_BCNT_CLEAR (R288). -/
  | arbBcntClear (id : Byte)
  /-- INT_CNT_CLEAR (R311). -/
  | intCntClear (id : Byte)
  /-- INT_SLICE_CLEAR (R295). -/
  | intSliceClear (slice : Nat) (id : Byte)
  /-- ACC_CNT_CLEAR (R223). -/
  | accCntClear (slice : Nat) (id : Byte)
  /-- PORT_CNT_CLEAR (R163). -/
  | portCntClear (slice : Nat) (id : Byte)
  /-- PWR_CNT_CLEAR (R333). -/
  | pwrCntClear (id : Byte)
  /-- ACT_CNT_CLEAR (R330). -/
  | actCntClear (id : Byte)
  /-- SVC_CNT_CLEAR (R369). -/
  | svcCntClear (id : Byte)
  /-- ERR_LOG_POP (R324). -/
  | errLogPop (id : Byte)
  /-- RING_ENABLE (R129). -/
  | ringEnable (ring : Nat) (id : Byte)
  /-- RING_DISABLE (R131). -/
  | ringDisable (ring : Nat) (id : Byte)
  /-- RING_ABORT (R132). -/
  | ringAbort (ring : Nat) (id : Byte)
  /-- RING_RESUME (R145). -/
  | ringResume (ring entry : Nat) (id : Byte)
  /-- RING_ABANDON (R145). -/
  | ringAbandon (ring entry : Nat) (id : Byte)
  /-- TOKEN_VALUE_WRITE (R148). -/
  | tokenValueWrite (t : Nat) (id : Byte) (data : Word)
  /-- POLL (R127). -/
  | poll (ring : Nat)
  /-- BACKSTOP_READ (R126). -/
  | backstopRead (ring : Nat)
  /-- DESCRIPTOR_FETCH (R125). -/
  | descriptorFetch
  /-- NOP (R134). -/
  | nop (ring : Nat)
  /-- TILE_OP (R21). -/
  | tileOp (ring : Nat)
  /-- LOAD (R249). -/
  | load (ring : Nat)
  /-- STORE (R251). -/
  | store (ring : Nat)
  /-- RELAYOUT (R255). -/
  | relayout (ring : Nat)
  /-- GATHER (R217). -/
  | gather (ring : Nat)
  /-- SCATTER (R220). -/
  | scatter (ring : Nat)
  /-- SCATTER_ADD (R221). -/
  | scatterAdd (ring : Nat)
  /-- PERMUTE (R191). -/
  | permute (ring : Nat)
  /-- KEYSTREAM (R261). -/
  | keystream (ring : Nat)
  /-- REDUCE (R231). -/
  | reduce (ring : Nat)
  /-- FENCE (R147). -/
  | fence (ring : Nat)
  /-- FENCE_TIMEOUT (R149). -/
  | fenceTimeout (ring idx : Nat)
  /-- ALLOC (R98). -/
  | alloc (ring : Nat)
  /-- FREE (R54). -/
  | freeName (ring : Nat)
  /-- PIN (R116). -/
  | pin (ring : Nat)
  /-- IMAGE_LOAD (R380). -/
  | imageLoad
  /-- IMAGE_DROP (R385). -/
  | imageDrop
  /-- KEY_SCHEDULE (R373). -/
  | keySchedule
  /-- RELAYOUT_BULK (R375). -/
  | relayoutBulk
  /-- DEFRAG (R376). -/
  | defrag
  /-- RECALIBRATE (R377). -/
  | recalibrate
  /-- RECAL_NO_MEAS (R377). -/
  | recalNoMeas
  /-- AUTO_RECAL (R378). -/
  | autoRecal
  /-- SERVICE_START (R369). -/
  | serviceStart (ring : Nat)
  /-- DEPENDENCY_RELEASE (R139). -/
  | dependencyRelease (ring : Nat)
  /-- FRESH_SLOT_GRANT (R101). -/
  | freshSlotGrant
  /-- COMMIT (R94). -/
  | commit (ring idx : Nat)
  /-- COMPLETION_RECORD (R142). -/
  | completionRecord (ring idx : Nat)
  /-- CLEARING_DONE (R90). -/
  | clearingDone (slice row quarter : Nat)
  /-- PARK (R245). -/
  | park (ring idx : Nat)
  /-- RESTART (R45). -/
  | restart (ring idx : Nat)
  /-- TRANSLATION_RESPONSE (R240). -/
  | translationResponse (tag : Nat) (resp : BitVec 64)
  /-- WALK_TIMEOUT (R243). -/
  | walkTimeout (tag : Nat)
  /-- BURST_RESPONSE (R238). -/
  | burstResponse (ch tag code : Nat) (data : List Byte)
  /-- BURST_TIMEOUT (R238). -/
  | burstTimeout (ch tag : Nat)
  /-- ATC_INVAL (R244). -/
  | atcInval (id : Byte) (data : Word)
  /-- WATCH_ACCEPT (R272). -/
  | watchAccept (ring : Nat)
  /-- WATCH_REFUSE (R272). -/
  | watchRefuse (ring : Nat)
  /-- WATCH_HIT (R272). -/
  | watchHit (ring : Nat)
  /-- WATCH_LOST (R272). -/
  | watchLost (ring : Nat)
  /-- WATCH_TIMEOUT (R272). -/
  | watchTimeout (ring : Nat)
  /-- PREFETCH_DROP (R269). -/
  | prefetchDrop (ring idx : Nat)
  /-- KEY_ORPHAN (R271). -/
  | keyOrphan (ring idx : Nat)
  /-- ROUTE_PROGRAM_FETCH (R197). -/
  | routeProgramFetch
  /-- PASS (R188). -/
  | pass (noise : List Codeword)
  /-- ROUND (R276). -/
  | round (arb : ArbId) (takers : List Nat) (noise reread : List Codeword)
  /-- WAVE_CLOSE (R223). -/
  | waveClose (ring idx : Nat)
  /-- OPERAND_BEAT (R157). -/
  | operandBeat (slice : Nat)
  /-- RESULT_BEAT (R163). -/
  | resultBeat (slice : Nat) (wh : Codeword) (lanes : List Codeword)
  /-- ACK_TIMEOUT (R179). -/
  | ackTimeout (slice : Nat)
  /-- W_TIMEOUT (R179). -/
  | wTimeout (slice : Nat)
  /-- ROLL_CALL (R172). -/
  | rollCall (slice : Nat)
  /-- ROLL_CALL_WORD (R174). -/
  | rollCallWord (slice : Nat) (word : Codeword)
  /-- ROLL_TIMEOUT (R174). -/
  | rollTimeout (slice : Nat)
  /-- PRESENT_LOW (R171). -/
  | presentLow (slice : Nat)
  /-- PORT_RESET (R183). -/
  | portReset (slice : Nat) (id : Byte)
  /-- QUIESCE_SET (R182). -/
  | quiesceSet (slice : Nat) (id : Byte)
  /-- QUIESCE_CLEAR (R182). -/
  | quiesceClear (slice : Nat) (id : Byte)
  /-- PORT_FENCE_SET (R179). -/
  | portFenceSet (slice : Nat) (id : Byte)
  /-- PORT_FENCE_CLEAR (R181). -/
  | portFenceClear (slice : Nat) (id : Byte)
  /-- SCRUB_VISIT (R293). -/
  | scrubVisit (slice : Nat) (noise reread verify : List Codeword) (overwritten : Bool)
  /-- BANK_COPY_DONE (R298). -/
  | bankCopyDone (slice bank : Nat)
  /-- DEAD_BANK (R299). -/
  | deadBank (slice bank : Nat)
  /-- SLICE_FENCE (R304). -/
  | sliceFence (hi : Bool) (id : Byte) (data : Word)
  /-- SLICE_FENCED (R304). -/
  | sliceFenced (slice : Nat)
  /-- SLICE_UNFENCE (R308). -/
  | sliceUnfence (hi : Bool) (id : Byte) (data : Word)
  /-- REVIEW (R108). -/
  | review
  /-- MIGRATION_COMMIT (R113). -/
  | migrationCommit (name : Nat)
  /-- JOIN (R209). -/
  | join (id : Byte) (data : Word)
  /-- QUOIN_ALIAS_WRITE (R210). -/
  | quoinAliasWrite (a : Nat) (second : Bool) (id : Byte) (data : Word)
  /-- JOIN_WORD (R209). -/
  | joinWord (link : Nat) (w0 : Word)
  /-- PAIR_WORD (R314). -/
  | pairWord (link : Nat) (w0 w1 : Word)
  /-- ALIAS_QUERY (R211). -/
  | aliasQuery (link : Nat) (w0 : Word)
  /-- ALIAS_ANSWER (R211). -/
  | aliasAnswer (link : Nat) (w0 w1 w2 : Word)
  /-- DATA (R212). -/
  | quoinData (link unit : Nat) (words : List Codeword)
  /-- READY (R212). -/
  | ready (link : Nat)
  /-- COMMIT_WORD (R212). -/
  | commitWord (link : Nat)
  /-- QUOIN_COMMIT_ACK (R212). -/
  | quoinCommitAck (link : Nat)
  /-- RESEND (R213). -/
  | resend (link : Nat)
  /-- RING_WORD (R368). -/
  | ringWord (link : Nat) (w0 : Word)
  /-- SIGNATURE (R317). -/
  | signature (link : Nat) (w0 w1 w2 w3 w4 : Word)
  /-- OUTCOME (R318). -/
  | outcome (link : Nat) (w0 w1 w2 w3 : Word)
  /-- HALT (R319). -/
  | halt (link : Nat) (w0 : Word)
  /-- LINK_DOWN (R424). -/
  | linkDown (link : Nat)
  /-- LINK_HANDSHAKE_TIMEOUT (R424). -/
  | linkHandshakeTimeout (link : Nat)
  /-- PAIR_CTL_WRITE (R314). -/
  | pairCtlWrite (id : Byte) (data : Word)
  /-- PAIR_RETRY (R320). -/
  | pairRetry (id : Byte)
  /-- PAIR_SOLO (R320). -/
  | pairSolo (id : Byte)
  /-- PEER_SILENT (R321). -/
  | peerSilent
  /-- COOLANT_FALL (R356). -/
  | coolantFall
  /-- COOLANT_RISE (R356). -/
  | coolantRise
  /-- COOL_OK (R356). -/
  | coolOk
  /-- COOL_RESUME (R356). -/
  | coolResume (id : Byte)
  /-- CONTROL_PERIOD (R333). -/
  | controlPeriod (slack : Nat)
  /-- CONTROL_COMPUTE_DONE (R336). -/
  | controlComputeDone
  /-- LATE_PERIOD (R333). -/
  | latePeriod
  /-- QUIET (R341). -/
  | quiet
  /-- DAWN_STEP (R341). -/
  | dawnStep
  /-- DUSK_STEP (R342). -/
  | duskStep
  /-- STAGGER_HOLD_END (R344). -/
  | staggerHoldEnd
  /-- RAMP_MARGIN_END (R343). -/
  | rampMarginEnd
  /-- VRQ_ACK (R426). -/
  | vrqAck
  /-- VREQ_SLOW (R426). -/
  | vreqSlow
  /-- GROUP_ENABLE (R350). -/
  | groupEnable (id : Byte) (data : Word)
  /-- GROUP_DISABLE (R350). -/
  | groupDisable (id : Byte) (data : Word)
  /-- PACE_WORD_SEND (R348). -/
  | paceWordSend
  /-- UP (R348). -/
  | paceUp (w0 w1 : Word)
  /-- DOWN (R348). -/
  | paceDown (w0 w1 : Word)
  /-- LEAVE (R350). -/
  | groupLeave (w0 w1 : Word)
  /-- CHILD_LOST (R350). -/
  | childLost (c : Nat)
  /-- PARENT_LOST (R350). -/
  | parentLost
  /-- MB_DATA_WRITE (R363). -/
  | mbDataWrite (ch : Nat) (id : Byte) (data : Word)
  /-- MB_ACK_WRITE (R364). -/
  | mbAckWrite (ch : Nat) (id : Byte) (data : Word)
  /-- MB_BIND_WRITE (R366). -/
  | mbBindWrite (ch : Nat) (id : Byte) (data : Word)
  /-- MB_LOCK (R366). -/
  | mbLock (id : Byte)
  /-- MB_TIMEOUT (R365). -/
  | mbTimeout (ch : Nat)
  /-- DB_RING (R368). -/
  | dbRing (id : Byte) (data : Word)
  /-- DB_RING_REMOTE (R368). -/
  | dbRingRemote (id : Byte) (data : Word)
  /-- MSQ_RESTART (R370). -/
  | msqRestart (id : Byte)
  /-- WATCHDOG (R370). -/
  | watchdog
  /-- PKE_OUTCOME (R381). -/
  | pkeOutcome (code : Nat)
  /-- PKE_TIMEOUT (R380). -/
  | pkeTimeout
  /-- REQ_EVENING (R399). -/
  | reqEvening (id : Byte)
  /-- REQ_NIGHT (R399). -/
  | reqNight (id : Byte)
  /-- REQ_ACTIVE (R401). -/
  | reqActive (id : Byte)
  /-- ENTRY_DRAINED (R399). -/
  | entryDrained
  /-- WAKE (R401). -/
  | wake
  /-- WAKE_COMPLETE (R402). -/
  | wakeComplete (found : List RowErr)
  /-- SEQ_EN (R430). -/
  | seqEn (id : Byte) (on : Bool)
  /-- TEST_LOCK (R429). -/
  | testLock (id : Byte)
  /-- TEST_STEP_PHASES (R430). -/
  | testStepPhases (id : Byte) (grants : List Nat)
  /-- TEST_STEP_TICKS (R430). -/
  | testStepTicks (id : Byte) (count : Nat)
  /-- WS_BYPASS (R428). -/
  | wsBypass
  /-- WS_EXTEST (R428). -/
  | wsExtest (boundary : List Bool)
  /-- WS_INTEST_RING (R428). -/
  | wsIntestRing (boundary : List Bool)
  /-- WX_REGACC (R429). -/
  | wxRegacc (dr : BitVec 59)
  /-- WX_STEP (R428). -/
  | wxStep (dr : BitVec 18) (grants : List Nat)
  /-- WX_SIG (R430). -/
  | wxSig
  /-- KEY_FRAGMENT_GENERATED (R264). -/
  | keyFragmentGenerated (slice : Nat)
  /-- IMAGE_HASH_DONE (R380). -/
  | imageHashDone
  /-- SPARE_BANK_ZERO_FILL_DONE (R299). -/
  | spareBankZeroFillDone (slice bank : Nat)
  /-- RESET_INPUT_ASSERTED (R389). -/
  | resetInputAsserted (powerOn : Bool)
  /-- SUPPLY_LOSS (R427). -/
  | supplyLoss
  /-- PKE_FURTHER_WAIT_END (R381). -/
  | pkeFurtherWaitEnd
  deriving DecidableEq, Repr

end Sys2Proof
end

