-- ==== Sys2Proof/Decode.lean ====
section
/-!
DEFINITION. Commands spelled by a word. spec/opcode_table.json gives no row any bits (every `fields` list is empty), so
no word spells a command.
-/
namespace Sys2Proof

/-- The command that `nbits` bits of value `w` spell by the table's bits: the table gives none. -/
def decodeTableWord (nbits w : Nat) : Option Instr :=
  match nbits, w with
  | _, _ => none

end Sys2Proof
end

