-- ==== Sys2Proof/Config.lean ====
section
/-!
DEFINITION. What an implementation fixes: the three configurations of Table 0.2, and the free values, which the
spec leaves open. A free value is a constant without a body: a claim about it holds whatever it is.
-/
namespace Sys2Proof

/-- The three configurations (R7, Table 0.2). -/
inductive Part where
  | bx16 | bx32 | bx64
  deriving DecidableEq, Repr

/-- Slices and unit ports (Table 0.2). -/
def Part.slices : Part → Nat
  | .bx16 => 16 | .bx32 => 32 | .bx64 => 64

/-- Base-2 logarithm of the memory channels: 2, 4 or 8 channels (Table 0.2). -/
def Part.log2Channels : Part → Nat
  | .bx16 => 1 | .bx32 => 2 | .bx64 => 3

/-- Memory channels (Table 0.2). -/
def Part.channels (p : Part) : Nat := 2 ^ p.log2Channels

/-- Base-2 logarithm of the widest span (Table 0.2). -/
def Part.log2Slices : Part → Nat
  | .bx16 => 4 | .bx32 => 5 | .bx64 => 6

/-- Exchange-network stages (Table 0.2). -/
def Part.stages : Part → Nat
  | .bx16 => 21 | .bx32 => 23 | .bx64 => 25

/-- FREE VALUE. Which entry of a full translation cache an installed translation replaces: the spec gives the caches'
sizes (R242) and no replacement rule. DESIGN CHOICE, log entry 10, safe: nothing constrains it. -/
opaque Config.atcVictim : Nat → Nat

/-- FREE VALUE. Whether an amount that falls between two units of a register's resolution is rounded up: the spec
states a resolution (R331, R335) and no rounding. DESIGN CHOICE, log entry 11, safe: nothing constrains it. -/
opaque Config.roundUp : Nat → Nat → Bool

/-- FREE VALUE. σ and τ in units of 1/1024 where the least-squares problem of R377 has no unique answer, for the sums of
x², x·z, z², x·m and z·m. DESIGN CHOICE, log entry 12, safe: nothing constrains it. -/
opaque Config.degenerateFit : List Int → Int × Int

/-- FREE VALUE. What STATIC_NJ takes where the product of R377 does not fit its field: the spec clamps EC only. DESIGN
CHOICE, log entry 12, safe: nothing constrains it. -/
opaque Config.staticOver : Nat → BitVec 16

/-- FREE VALUE. The beats that a slice's monitor completes in a tick that a test step makes: the spec has the monitor count
real beats (R347), which a stepped tick has none of. DESIGN CHOICE, log entry 26, safe: nothing constrains it. -/
opaque Config.stepBeats : Nat → Nat

/-- FREE VALUE. The beats that the reference slice's monitor completes in a sub-tick, for the tick and the sub-tick: how far the
monitor has come between two ticks is no command's operand (R340). DESIGN CHOICE, log entry 82, safe: nothing constrains it. -/
opaque Config.monitorBeats : Nat → Nat → Nat

/-- FREE VALUE. The set of the shared translation cache, of its 512 of 8 ways, in which a translation is kept: the spec gives the
organisation (R242) and no set index. For the domain, the first page and log2 of the pages. DESIGN CHOICE, log entry 10, safe:
nothing constrains it. -/
opaque Config.atcSet : Nat → Nat → Nat → Nat

/-- FREE VALUE. The setting of an element of the exchange network (true crosses) that the setting engine computes, for the
ring and index of the PERMUTE, its pass, the stage and the element: the spec gives the engine's result by what words arrive
where (R189, R202), not by settings. DESIGN CHOICE, log entry 96, safe: nothing constrains it. -/
opaque Config.elementSetting : Nat → Nat → Nat → Nat → Nat → Bool

/-- FREE VALUE. Where a staged PERMUTE keeps words between its passes: for the ring and index, the pass, and the flat
destination index of the word, the flat index at which the pass leaves it. The spec gives the passes' shape (R201) and no
placement of the words. DESIGN CHOICE, log entry 97, safe: nothing constrains it. -/
opaque Config.stagePlace : Nat → Nat → Nat → Nat → Nat

/-- FREE VALUE. The arbiter grants that complete in one phase of a test step (R430), where no command delivers their number:
which handshakes are ready is the implementation's. DESIGN CHOICE, log entry 26, safe: nothing constrains it. -/
opaque Config.phaseGrants : Nat → Nat

end Sys2Proof
end

