-- ==== Sys2Proof/Machine/State.lean ====
section
/-!
DEFINITION. The state of the block as plain data: `cells` is the bank storage, `pending` the queue of commands, `ctl`
everything else. Registers live in `ctl.regs`, keyed by offset; a register that no write has reached reads its reset
value from the register map. A register whose value follows from other state is computed when it is read.
-/
namespace Sys2Proof.Machine

/-- A table from keys to values, kept with rising keys; a key that is not listed has a default stated by its reader. -/
abbrev Tab (α : Type) := List (Nat × α)

/-- The bank storage: (address, codeword) with rising addresses and no all-zero codeword listed (R78, R81, R83). -/
abbrev Cells := List (Nat × Codeword)

/-- A descriptor: its ring, its 64-bit ring index, and 0, or n + 1 for image n of a RELAYOUT_BULK (R121, R375). -/
structure Key where
  ring : Nat
  idx : Nat
  sub : Nat
  deriving DecidableEq, Repr

/-- A fragment table (R91): slice list, fold, home quarter, span, rows and, for row i and block b at index i·s + b, the
bank offset and row of the fragment; its slice is L[b div f] (R62). -/
structure FragTable where
  list : List Nat
  fold : Nat
  home : Nat
  span : Nat
  rows : Nat
  frags : List (Nat × Nat)
  deriving DecidableEq, Repr

/-- A pin: 64-bit slice mask and bank offset (R116). `broken`: not honoured at present (R117). -/
structure Pin where
  mask : BitVec 64
  offset : Option Nat
  broken : Bool
  deriving DecidableEq, Repr

/-- The record of a tile name (R50, R51, R91, R105, R107, R116, R170, R301). -/
structure NameRec where
  live : Bool
  shape : Word
  modulus : Word
  domain : Nat
  inc : BitVec 16
  table : FragTable
  flags : List (BitVec 4)
  pin : Option Pin
  partners : List Nat
  score : Nat
  displaced : Bool
  poison : Option (Nat × Nat × Nat)
  commits : Nat
  deriving DecidableEq, Repr

/-- Slot states (Table 3.1). -/
inductive SlotState where
  | free | fresh | mapped | retired | clearing
  deriving DecidableEq, Repr

/-- Who holds a slot. -/
inductive Owner where
  | none
  | desc (k : Key)
  | mig (name : Nat)
  | name (name : Nat)
  | link (l : Nat)
  deriving DecidableEq, Repr

/-- A slot: state, holder, condemned mark (R88, R89, R297). -/
structure Slot where
  state : SlotState
  owner : Owner
  condemned : Bool
  deriving DecidableEq, Repr

/-- Port states (Table 5.3). -/
inductive PortState where
  | absent | rolling | ready | quiescing | quiesced | refused | gone | fenced
  deriving DecidableEq, Repr

/-- A fragment assigned to a port (R109, R164). `stale`: its descriptor finished, or started again, after the request of
the beat went up: the W is captured and discarded (Table 11.3, R45). -/
structure Assign where
  key : Key
  row : Nat
  block : Nat
  stale : Bool := false
  deriving DecidableEq, Repr

/-- A beat outstanding on a port (R165), with the format of its destination, whose pad words are not decoded (R163). -/
structure Outst where
  seq : Nat
  what : Assign
  fmt : Nat := 0
  deriving DecidableEq, Repr

/-- A reuse latch: stream, physical tag (slice, bank offset, row), 128 codewords; the list is oldest use first (R84). -/
structure Latch where
  stream : Nat
  tag : Nat × Nat × Nat
  words : List Codeword
  deriving DecidableEq, Repr

/-- A key fragment in a key buffer (R265). -/
structure KeyFrag where
  key : Key
  row : Nat
  block : Nat
  words : List Codeword
  deriving DecidableEq, Repr

/-- A unit port. `operands`: what streams A, B, C of the head fragment hold so far; `opReq`: OP_REQ is up and its
deadline; `wReq`: a W beat whose W_ACK is
withheld (R27); `wDeadline`: the W timeout (Table 5.7). `seqFresh`: the port entered READY while OP_REQ was up, so the
beat after that one carries SEQ 0 (R161). `lane`: fragments the key lane has still to generate, `laneBeats`: permutations begun of the first. -/
structure Port where
  state : PortState
  cause : Nat
  present : Bool
  lowTicks : Nat
  seq : Nat
  queue : List Assign
  outst : List Outst
  operands : Tab (List Codeword)
  opReq : Option Nat
  wDeadline : Option Nat
  latches : List Latch
  keyBuf : List KeyFrag
  lane : List Assign
  rcIdx : Nat
  rcTries : Nat
  rcDeadline : Nat
  rcWords : List Word
  laneBeats : Nat := 0
  seqFresh : Bool := false
  wReq : Option (Codeword × List Codeword) := none
  deriving DecidableEq, Repr

/-- Fence states of a slice (Table 10.25). -/
inductive FState where
  | normal | fencing | fenced | returning
  deriving DecidableEq, Repr

/-- A slice: interval counter (R30), fence state, scrubber: next
visit due, visits waiting as row and bank, SCRUB_ROWS (R293, R295), generation of its idle parts (R410), port. -/
structure Slice where
  ticks : Nat
  fstate : FState
  clearAsked : Bool
  scrubRow : Nat
  scrubBank : Nat
  scrubWait : List (Nat × Nat)
  scrubRows : Nat
  gen : Nat
  port : Port
  deriving DecidableEq, Repr

/-- Write-watch of a ring (R272). -/
inductive Watch where
  | off
  | translating
  | arming (deadline : Nat)
  | armed
  deriving DecidableEq, Repr

/-- What of a ring is not in its registers (R123 to R133). `ri`: retire index; `held`: descriptors whose final record
waits for the next enable; `starting`: enabled, and writing those records before it runs (Table 4.2 step 4); `gap`: ticks since the last index read; `polls`: polls since the last backstop; `interval`: ticks
from the last poll, or from the enable, to the next (R32, R129). -/
structure Ring where
  ri : Nat
  nextIdx : Nat
  fetching : Bool
  reading : Bool
  gap : Nat
  polls : Nat
  pollDue : Bool
  backDue : Bool
  watch : Watch
  held : List Key
  recFault : Bool
  retireOwed : Bool
  interval : Nat := 65
  starting : Bool := false
  deriving DecidableEq, Repr

/-- Where a descriptor stands in Table 1.1: `hold` step 3, `check` step 4, `wait` step 5, `run` steps 6 and 7, `written`
everything written, `final` status fixed, `record` record being written, `parked` (R245), `peer` waiting for the peer of
a pair or of an alias, `fenced` abandoned by a slice fence and not yet restarted (R45). -/
inductive Stage where
  | hold | check | wait | run | written | final | record | parked | peer | fenced
  deriving DecidableEq, Repr

/-- A resolved source: role (0 A/S, 1 B/X/M, 2 C/D0), tile name, fragment table and row flags (R91, R170). -/
structure Src where
  role : Nat
  name : Nat
  table : FragTable
  flags : List (BitVec 4)
  deriving DecidableEq, Repr

/-- The lowest row that failed or faulted, its status and detail, and whether it parks (R245, R248). -/
structure RowFail where
  row : Nat
  status : Nat
  detail : Nat
  parks : Bool
  deriving DecidableEq, Repr

/-- A descriptor between fetch and completion (R125). `words`: its 16 words; `order`: its place in step-5 order;
`closed`: the completion's place in order and its ELAPSED_TICKS are fixed, every memory write acknowledged (R139, R143);
`proposed`: it ends as soon as the peer of a pair agrees on its status (R317); `caps`: captured incarnations (R53); `mods`: the modulus table sampled at admission (R75); `done`: fragments of the
destination written; `buf`, `aux`, `outw`: source, index or mask, and destination words held by the engine. -/
structure Desc where
  key : Key
  words : List Word
  domain : Nat
  stage : Stage
  order : Nat
  status : Nat
  detail : Nat
  rowsDone : Nat
  caps : List (Nat × BitVec 16)
  mods : List Word
  classRec : Option (List Word)
  srcs : List Src
  dst : Option FragTable
  granted : Bool
  started : Nat
  elapsed : Nat
  deadline : Option Nat
  fills : Nat
  drops : Nat
  energy : Nat
  restarted : Bool
  committed : Bool
  admitted : Bool
  cursor : Nat
  bad : Option RowFail
  done : List Nat
  prog : Nat
  phase : Nat
  buf : Tab Word
  aux : Tab Word
  outw : Tab Word
  partner : Option Nat
  group : List Nat
  usedOn : List Nat
  prefetched : Bool
  pfPages : List Nat
  viaLink : Option Nat
  sigWait : Bool
  rowsReleased : Nat
  closed : Bool := false
  proposed : Bool := false
  deriving DecidableEq, Repr

/-- What the words of a fragment that crosses the network, or is written, are for. `stage`: a fragment of the FRESH slots of
a staged PERMUTE between two of its passes (R201); `side`: an index fragment on its way to the slice that works on it (R222,
R225). -/
inductive Carry where
  | operand (port stream : Nat)
  | dest (k : Key) (frag : Nat)
  | mig (name frag : Nat)
  | incoming (link frag : Nat)
  | stage (k : Key) (frag : Nat)
  | side (k : Key) (frag : Nat)
  deriving DecidableEq, Repr

/-- Why a fragment or word of a bank is accessed. Roles of `read`: 0 memory side, 1 pass source, 2 D0 copy, 3 window
source, 4 window index, 5 reduce source, 6 reduce mask, 7 second reduce read, 8 staging read of a PERMUTE (R201). A bank copy
reads a row and writes it to the spare bank (R298); the rows of a spare bank are zeroed (R299); a scrub visit reads a row, and
where it corrected some of it writes it back and verifies it (R294). -/
inductive Purpose where
  | operand (port stream : Nat)
  | read (k : Key) (role frag : Nat)
  | put (c : Carry)
  | gatherWord (k : Key) (x target : Nat)
  | update (k : Key) (target : Nat) (value : Word)
  | migRead (name frag : Nat)
  | clear (slot : Nat)
  | copyRead (bank spare : Nat)
  | copyWrite (bank spare : Nat)
  | zeroRow
  | scrubRead
  | scrubBack
  | scrubVerify
  deriving DecidableEq, Repr

/-- A bank access work item (R276): the bank requester (Table 9.1), the fragment (slice, offset, row), the 16-word
chunks still to access, the words collected or to be written, lanes that take no part (R290). `phys`: the access is to the
physical row of that physical bank, not through the spare maps. `raised`: the request has been raised and stays so (R276). -/
structure Job where
  req : Nat
  purpose : Purpose
  slice : Nat
  offset : Nat
  row : Nat
  chunks : List Nat
  words : List Codeword
  skip : List Nat
  phys : Option Nat := none
  raised : Bool := false
  deriving DecidableEq, Repr

/-- What a word in the network is (R203). -/
inductive FlitWhat where
  | frag (c : Carry) (lane : Nat)
  | request (k : Key) (x target : Nat)
  | ret (k : Key) (x : Nat)
  | addend (k : Key) (target window : Nat)
  | reduce (k : Key) (row : Nat)
  deriving DecidableEq, Repr

/-- A word waiting at, or crossing from, an injection point (R203, R275); `src` and `dst` are network lines. `pos`: the stage
behind whose elements it waits in an output buffer, and the line of that buffer; none at the injection point. `tried`: its
vector met an uncorrectable word at ejection and is repeated (R188). -/
structure Flit where
  user : Nat
  src : Nat
  dst : Nat
  word : Codeword
  what : FlitWhat
  injected : Bool
  pos : Option (Nat × Nat) := none
  tried : Bool := false
  deriving DecidableEq, Repr

/-- A fragment being assembled from arriving words. -/
structure Asm where
  what : Carry
  words : Tab Codeword
  deriving DecidableEq, Repr

/-- A partial held in a reorder buffer (R223). -/
structure Partial where
  key : Key
  target : Nat
  window : Nat
  value : Word
  deriving DecidableEq, Repr

/-- A program of a route library (R196): whether it is there, byte offset, LOG2N, NEGATE, recorded CRC. -/
structure Program where
  offset : Nat
  log2n : Nat
  negate : Bool
  crc : BitVec 64
  deriving DecidableEq, Repr

/-- A quoin link (R209, R314, R424): the level seen, the JOIN word of its far end, a handshake running and its deadline, an
alias query without answer, the PAIR words of its far end, and the words, as kind, ctl and words, that wait while the links are
gated (Table 13.5). -/
structure Link where
  alive : Bool
  peer : Option Nat
  deadline : Option Nat
  asked : Bool
  pair : Option (Word × Word)
  owed : List (Nat × Nat × List Word) := []
  deriving DecidableEq, Repr

/-- An incoming alias transfer (R212): the local name, its captured incarnation, slots, words received. -/
structure Incoming where
  name : Nat
  inc : BitVec 16
  table : Option FragTable
  units : Nat
  doneFrags : List Nat
  deriving DecidableEq, Repr

/-- A buffer of the setting registers (R189): the PERMUTE and the pass it is for, and the element settings, stage by stage:
true crosses. -/
structure Setting where
  key : Key
  pass : Nat
  cross : List (List Bool)
  deriving DecidableEq, Repr

/-- The exchange network (R189, R205, R206). mode: 0 idle, 1 permutation, 2 addressed. `repeating`: the PERMUTE and its pass
whose vector is to be repeated (R188). `settings`: the two buffers, the one in use first. -/
structure Net where
  mode : Nat
  passesLeft : Nat
  flits : List Flit
  asm : List Asm
  repeating : Option (Key × Nat)
  settings : List Setting := []
  waves : List Partial
  libs : Tab (List Program)
  mapOwner : Option Key
  mapWords : List Word
  links : Tab Link
  incoming : Tab Incoming
  deriving DecidableEq, Repr

/-- Burst states. -/
inductive BState where
  | need | walking | ready | issued
  deriving DecidableEq, Repr

/-- What a burst is for. `part`: which 64 bytes of the block or item. -/
inductive BPurpose where
  | fetch (ring idx : Nat)
  | index (ring : Nat)
  | recordHi (k : Key) (final : Bool)
  | recordLo (k : Key) (final : Bool)
  | retire (ring : Nat)
  | watch (ring : Nat)
  | tensorRd (k : Key) (row block part : Nat)
  | tensorWr (k : Key) (row block part : Nat)
  | keyRd (k : Key) (row block part : Nat)
  | route (k : Key) (part : Nat)
  | svcRd (part : Nat)
  | svcWr (part : Nat)
  deriving DecidableEq, Repr

/-- A memory burst (R235, R418). cls: channel requester (Table 9.1); access: 0 tensor read, 1 tensor write, 2 key read,
3 ring read, 4 ring write, 5 untranslated; `data`: the 64 bytes of a write, none where not enabled. -/
structure Burst where
  purpose : BPurpose
  cls : Nat
  access : Nat
  domain : Nat
  va : Addr
  pa : Addr
  data : List (Option Byte)
  state : BState
  ch : Nat
  tag : Nat
  deadline : Nat
  faulted : Bool
  waitInval : Bool
  prefetch : Bool
  deriving DecidableEq, Repr

/-- A walk outstanding (R240). -/
structure Walk where
  tag : Nat
  domain : Nat
  page : Nat
  access : Nat
  deadline : Nat
  late : Bool
  deriving DecidableEq, Repr

/-- A cached translation (R242): domain, first 64 KiB page, log2 of its 64 KiB pages, frame page, permission bits. -/
structure Xlate where
  domain : Nat
  page : Nat
  log2 : Nat
  frame : Nat
  perm : BitVec 4
  deriving DecidableEq, Repr

/-- The memory path (R235 to R244). -/
structure Mem where
  bursts : List Burst
  walks : List Walk
  shared : List Xlate
  micro : Tab (List Xlate)
  deriving DecidableEq, Repr

/-- A setting of the arbiters: 28 weights and the window (R283, R285). -/
structure ArbSetting where
  weights : List Nat
  window : Nat
  deriving DecidableEq, Repr

/-- One requester of an arbiter (R278, R279, R288). -/
structure ReqState where
  credit : Nat
  age : Nat
  run : Nat
  grants : Nat
  waits : Nat
  longest : Nat
  deriving DecidableEq, Repr

/-- One arbiter (R276 to R288): requesters, rotation pointer, grants left in each tier's window (a merge, channel,
injection or mode arbiter uses the first), the setting and generation it runs, grant seen in this tick, and whether
deterministic mode has reset its pointer (R287). -/
structure Arb where
  reqs : List ReqState
  ptr : Nat
  left : Nat
  leftG : Nat
  setting : ArbSetting
  settingG : ArbSetting
  gen : Nat
  genG : Nat
  busy : Bool
  busyG : Bool
  det : Bool
  deriving DecidableEq, Repr

/-- A migration (R113): where it goes, commits of the name when it began, fragments copied, required or optional,
second try, pinned by a driver's request. -/
structure Mig where
  name : Nat
  dest : FragTable
  commits : Nat
  copied : List Nat
  required : Bool
  retry : Bool
  failed : Bool
  deriving DecidableEq, Repr

/-- A bank copy (R298): `row` rows have been read for it. -/
structure BankCopy where
  slice : Nat
  bank : Nat
  spare : Nat
  row : Nat := 0
  deriving DecidableEq, Repr

/-- An entry of the error log (R324). -/
structure LogEntry where
  event : Nat
  slice : Nat
  bank : Nat
  row : Nat
  name : Option Nat
  deriving DecidableEq, Repr

/-- Integrity state with no register of its own (R296 to R299, R292, R324). `hard`: hard-failed bank rows to be spared, as
slice, bank, row and whether a spare-row entry has been taken; `lost`: bank rows of a dead bank not rewritten since;
`deadEntries`: spare rows found hard-failed, as slice, physical bank and entry (R296). -/
structure Integ where
  spareRows : Tab (List (Nat × Bool))
  spareFor : Tab Nat
  dead : List (Nat × Nat)
  copies : List BankCopy
  spareFills : List (Nat × Nat)
  ueSeen : List (Nat × Nat × Nat × Nat)
  hard : List (Nat × Nat × Nat × Bool)
  lost : List (Nat × Nat × Nat)
  log : List LogEntry
  deadEntries : List (Nat × Nat × Nat) := []
  deriving DecidableEq, Repr

/-- A signature or outcome held for comparison (R317, R318). -/
structure Sig where
  ring : Nat
  idx : Nat
  row : Option Nat
  local_ : Option (BitVec 64)
  peer : Option (BitVec 64)
  deadline : Nat
  deriving DecidableEq, Repr

/-- A reconciled outcome of the peer for a descriptor that is not there yet (R318). -/
structure Outcome where
  ring : Nat
  idx : Nat
  status : Nat
  detail : Nat
  cursor : Nat
  deriving DecidableEq, Repr

/-- The ramp in progress (R341, R342, R344). -/
inductive Ramp where
  | none
  | dawn
  | dusk (floor newPace : Nat)
  | stagger (beats : Nat)
  deriving DecidableEq, Repr

/-- The measurement window of a control period (R334): `offers` in sixteenths of a token; `phaseBeats` 16 counts background beats. -/
structure Window where
  measSum : Nat
  measN : Nat
  energy : Nat
  static : Nat
  offers : Nat
  phaseBeats : Tab Nat
  spoiled : Bool
  recoef : Bool
  deriving DecidableEq, Repr

/-- Power, pace and cooling (R326 to R356). `fromNight`: a wake is from Night (R402). Pace P, target T, what set it, gate g, ramp; quiet count; V_req code,
handshake and wait; the window, the closed window waiting for its computation and when it was closed; activity counts
per class (R330) and energy accounts in 1/64 pJ: phases 0 to 15, background 16, static 17 (R332). Of the monitor of the
reference slice (R340): `mon` the monitor beats counted, `monTick` those at the last tick, `stepAt` those when the ramp step
began; `gateSeen`: per stream, the frame of its last beat and its beats in that frame. `nat`: N of the last boundary (R347).
`paceDue`: the pacer's tick waits for the timeouts of its boundary (R434). -/
structure Power where
  pace : Nat
  target : Nat
  limit : Nat
  gate : Nat
  ramp : Ramp
  quiet : Bool
  idleTicks : Nat
  beatSeen : Bool
  margin : Bool
  marginEnd : Option Nat
  vreq : Nat
  vsent : Nat
  vbusy : Bool
  vwait : Option Nat
  opp : List Nat
  win : Window
  closed : Option Window
  closedAt : Nat
  newTarget : Option (Nat × Nat)
  sMeas : Nat
  goodRun : Nat
  cap : Nat
  capValid : Bool
  meas : Nat
  measValid : Bool
  first : Bool
  natMin : List Nat
  periodDue : Bool
  reviewGap : Nat
  reviewDue : Bool
  added : Nat
  stopped : Bool
  coolDeadline : Option Nat
  fromNight : Bool
  acts : Tab Nat
  accounts : Tab Nat
  mon : Nat := 0
  monTick : Nat := 0
  stepAt : Nat := 0
  gateSeen : Tab (Nat × Nat) := []
  nat : Nat := 0
  paceDue : Bool := false
  deriving DecidableEq, Repr

/-- The pace group (R346 to R351). state: 0 OFF, 1 JOINING, 2 MEMBER, 3 ROOT; children: last VALUE and silence deadline. -/
structure Group where
  state : Nat
  progress : Nat
  minimum : Nat
  children : Tab (Nat × Nat)
  parentDeadline : Option Nat
  sendDeadline : Nat
  left : Bool
  deriving DecidableEq, Repr

/-- The service running (R369): its descriptor (none for AUTO_RECAL), number, phase, bytes read, images, windows or names
it has to do, the name in hand (R376), a failed read, control windows and periods (R377), the fabric address of a payload and
whether it is broken (Table 12.5 step 3), items done and the energy of images (R375). -/
structure Svc where
  key : Option Key
  number : Nat
  phase : Nat
  bytes : Tab Byte
  count : Nat
  tries : List Nat
  failed : Option (Nat × Nat)
  samples : List (Int × Int × Int)
  periods : Nat
  base : Option Nat
  broken : Bool
  rows : Nat
  sum : Nat
  deriving DecidableEq, Repr

/-- The management sequencer and the loader (R369 to R385). state: Table 12.2. -/
structure Msq where
  state : Nat
  watchdog : Option Nat
  svc : Option Svc
  recalPending : Bool
  recalAgain : Bool
  pkeDeadline : Option Nat
  pkeOwed : Option Nat
  firmware : List Byte
  policy : List Byte
  deriving DecidableEq, Repr

/-- What the block drives on its ports; the model's own record (log entry 9). -/
inductive Out where
  | operandBeat (port : Nat) (header : List Codeword) (a b c : List Codeword)
  | rollCall (port idx : Nat)
  | burst (ch tag : Nat) (addr : Addr) (write : Bool) (data : List (Option Byte))
  | walk (tag : Nat) (req : BitVec 64)
  | arm (ring : Nat) (line : Addr)
  | disarm (ring : Nat)
  | paceWord (dest : Nat) (w0 w1 : Word)
  | link (l kind ctl : Nat) (words : List Word)
  | pke (beats : List (BitVec 64))
  | vrq (code : Nat)
  | testSig (sig : BitVec 64)
  deriving DecidableEq, Repr

/-- Everything but the bank storage and the queue. `resetWait`: the kind of a block reset that waits for issued bursts
(R389); `func`: the function reset that runs, 0 none (R391); `inReset`: a reset input held, true for power-on; `resumes`: RING_RESUME
actions that wait in Evening, as ring, entry, ABANDON (R401); `stepGrants`: grants that sequenced mode has still let through
(R430); `wanted`: names whose required migration waits for room, oldest first (R113, R114); `outcomes`: what the peer of a
pair has met on descriptors not fetched here yet (R318). -/
structure Ctl where
  part : Part
  regs : Tab Word
  refTicks : Nat
  subTick : Nat
  inService : List Nat
  filling : List Nat
  fillWait : List Nat
  slices : Tab Slice
  classes : Tab (List Word)
  buckets : Tab Nat
  names : Tab NameRec
  slots : Tab Slot
  migs : List Mig
  rings : Tab Ring
  fetchPtr : Nat
  descs : List Desc
  nextOrder : Nat
  jobs : List Job
  arbs : Tab Arb
  arbGen : Nat
  net : Net
  mem : Mem
  integ : Integ
  sigs : List Sig
  power : Power
  group : Group
  mbDeadline : Tab Nat
  msq : Msq
  deferredCommit : Bool
  resetWait : Option Nat
  func : Nat
  resumes : List (Nat × Nat × Bool)
  inReset : Option Bool
  off : Bool
  stepGrants : Nat
  wir : Nat
  boundary : List Bool
  bypass : Bool
  regRdata : Word
  outbox : List Out
  freeCount : Nat
  wanted : List Nat := []
  outcomes : List Outcome := []
  deriving DecidableEq, Repr

/-- The state of the block. `pending`: the commands that wait, first in, first out. -/
structure State where
  pending : List Instr
  ctl : Ctl
  cells : Cells
  deriving DecidableEq, Repr

/-- Why a step stops with a fault. No command of this block does: its failures are statuses and flags. -/
inductive Fault where
  /-- Raised by no command (safe): the type needs a member. -/
  | none_
  deriving DecidableEq, Repr

/-- Why a command is refused. -/
inductive Refusal where
  /-- Raised by Dispatch for a command that has no meaning yet (safe: nothing can be proved of it). -/
  | notModelled (mnemonic : String)
  deriving DecidableEq, Repr

/-- A port after reset (Table 13.7: ABSENT). -/
def Port.reset : Port :=
  { state := .absent, cause := 0, present := false, lowTicks := 0, seq := 0, queue := [], outst := [], operands := [],
    opReq := none, wDeadline := none, latches := [], keyBuf := [], lane := [], rcIdx := 0,
    rcTries := 0, rcDeadline := 0, rcWords := [] }

/-- A slice after reset. -/
def Slice.reset : Slice :=
  { ticks := 0, fstate := .normal, clearAsked := false, scrubRow := 0, scrubBank := 0, scrubWait := [], scrubRows := 1,
    gen := 0, port := Port.reset }

/-- A ring after reset (DISABLED, none held). -/
def Ring.reset : Ring :=
  { ri := 0, nextIdx := 0, fetching := false, reading := false, gap := 0, polls := 0, pollDue := false,
    backDue := false, watch := .off, held := [], recFault := false, retireOwed := false }

/-- A table that holds nothing. -/
def FragTable.empty : FragTable := { list := [], fold := 1, home := 0, span := 0, rows := 0, frags := [] }

/-- A tile name after reset: FREE (R50). The incarnation before the first ALLOC is a DESIGN CHOICE (log entry 6). -/
def NameRec.reset : NameRec :=
  { live := false, shape := 0, modulus := 0, domain := 0, inc := 0, table := FragTable.empty, flags := [], pin := none,
    partners := [], score := 0, displaced := false, poison := none, commits := 0 }

/-- A slot after reset: FREE. -/
def Slot.reset : Slot := { state := .free, owner := .none, condemned := false }

/-- A link after reset: down. -/
def Link.reset : Link := { alive := false, peer := none, deadline := none, asked := false, pair := none }

/-- The network after reset: idle, every buffer empty (Table 13.3). -/
def Net.reset : Net :=
  { mode := 0, passesLeft := 0, flits := [], asm := [], repeating := none, waves := [], libs := [], mapOwner := none,
    mapWords := [], links := [], incoming := [] }

/-- The memory path after reset. -/
def Mem.reset : Mem := { bursts := [], walks := [], shared := [], micro := [] }

/-- The integrity state after power-on reset. -/
def Integ.reset : Integ :=
  { spareRows := [], spareFor := [], dead := [], copies := [], spareFills := [], ueSeen := [], hard := [],
    lost := [], log := [] }

/-- An open measurement window. -/
def Window.empty : Window :=
  { measSum := 0, measN := 0, energy := 0, static := 0, offers := 0, phaseBeats := [], spoiled := false,
    recoef := false }

/-- Power after reset: quiet, g 1 (R341); E_pref 1200 from OPP[0]; T = min(E_pref, 600) (R396); V_req 790 mV from
phase 0's 750 mV and TRIM_STEPS 8 (R327, R353). Buckets gain 600 tokens a tick from the start (R26). -/
def Power.reset : Power :=
  { pace := 600, target := 600, limit := 0, gate := 1, ramp := .none, quiet := true, idleTicks := 0,
    beatSeen := false, margin := false, marginEnd := none, vreq := 790, vsent := 790, vbusy := true, vwait := none,
    opp := [], win := Window.empty, closed := none, closedAt := 0, newTarget := none, sMeas := 0, goodRun := 0,
    cap := 0, capValid := false, meas := 0, measValid := false, first := true, natMin := [],
    periodDue := false, reviewGap := 0, reviewDue := false, added := 600, stopped := false,
    coolDeadline := none, fromNight := false, acts := [], accounts := [] }

/-- The pace group after reset: OFF. -/
def Group.reset : Group :=
  { state := 0, progress := 0, minimum := 0, children := [], parentDeadline := none, sendDeadline := 0, left := false }

/-- The MSQ once a reset has completed with no firmware: BOOT (Table 12.2). -/
def Msq.reset : Msq :=
  { state := 1, watchdog := none, svc := none, recalPending := false, recalAgain := false, pkeDeadline := none,
    pkeOwed := none, firmware := [], policy := [] }

/-- The block at the completion of a power-on reset of part `p` with the coolant input high: nothing in service, group 0
filling (R394); READY.LOADER raised (R393); BND_STATUS.COOLANT set, since the input is sampled high. -/
def Ctl.reset (p : Part) : Ctl :=
  { part := p, regs := [(0x1040, 0x20), (0x1100, 1)], refTicks := 0, subTick := 0, inService := [], filling := List.range 8,
    fillWait := (List.range p.slices).drop 8, slices := [], classes := [], buckets := [], names := [], slots := [],
    migs := [], rings := [], fetchPtr := 0, descs := [], nextOrder := 0, jobs := [], arbs := [], arbGen := 0,
    net := Net.reset, mem := Mem.reset, integ := Integ.reset, sigs := [], power := Power.reset, group := Group.reset,
    mbDeadline := [], msq := Msq.reset, deferredCommit := false, resetWait := none, func := 0, resumes := [], inReset := none, off := false,
    stepGrants := 0, wir := 0, boundary := [], bypass := false, regRdata := 0, outbox := [.vrq 190], freeCount := 0 }

/-- The machine right after power-on reset: a BX64 (DESIGN CHOICE, log entry 2), coolant input high (DESIGN CHOICE, log
entry 4), banks reading zero before their zero-fill (DESIGN CHOICE, log entry 5), an empty queue. -/
def State.reset : State := { pending := [], ctl := Ctl.reset .bx64, cells := [] }

end Sys2Proof.Machine
end

