-- ==== Sys2Proof/Machine/Bits.lean ====
section
/-!
DEFINITION. Tables, bit fields, the SECDED code (R81, R82), CRC-64 (R316), SHAKE128 (R263), SHA-384 (R361) and F32
arithmetic (R67).
-/
namespace Sys2Proof.Machine

/-! ### Tables -/

/-- The value at a key, or the default. -/
def Tab.get {α : Type} (d : α) : Tab α → Nat → α
  | [], _ => d
  | (a, v) :: t, k => if a = k then v else Tab.get d t k

/-- Insert or replace, keys rising. -/
def Tab.set {α : Type} : Tab α → Nat → α → Tab α
  | [], k, v => [(k, v)]
  | (a, w) :: t, k, v =>
    if k < a then (k, v) :: (a, w) :: t else if k = a then (k, v) :: t else (a, w) :: Tab.set t k v

/-- Remove a key. -/
def Tab.del {α : Type} (t : Tab α) (k : Nat) : Tab α := t.filter (·.1 ≠ k)

/-- Is the key listed? -/
def Tab.has {α : Type} (t : Tab α) (k : Nat) : Bool := t.any (·.1 = k)

/-! ### Sorting -/

/-- Put an element in front of the first that it may stand before. -/
def insertBy {α : Type} (le : α → α → Bool) (x : α) : List α → List α
  | [] => [x]
  | y :: ys => if le x y then x :: y :: ys else y :: insertBy le x ys

/-- Sort by an order; equal elements keep theirs. -/
def sortBy {α : Type} (le : α → α → Bool) : List α → List α
  | [] => []
  | x :: xs => insertBy le x (sortBy le xs)

/-! ### Bank storage -/

/-- The codeword at an address; an unlisted address holds the all-zero codeword (R83). -/
def Cells.read (c : Cells) (a : Nat) : Codeword := Tab.get 0 c a

/-- Store a codeword, keeping the canonical form. -/
def Cells.write : Cells → Nat → Codeword → Cells
  | [], a, v => if v = 0 then [] else [(a, v)]
  | (b, w) :: t, a, v =>
    if a < b then (if v = 0 then (b, w) :: t else (a, v) :: (b, w) :: t)
    else if a = b then (if v = 0 then t else (a, v) :: t)
    else (b, w) :: Cells.write t a v

/-- The canonical form: addresses above `lo` and strictly rising, no all-zero codeword listed. -/
def Cells.wfFrom : Nat → Cells → Bool
  | _, [] => true
  | lo, (a, v) :: t => decide (lo ≤ a) && decide (v ≠ 0) && Cells.wfFrom (a + 1) t

/-- The canonical form of the bank storage. -/
def Cells.wf (c : Cells) : Bool := Cells.wfFrom 0 c

/-- Address of word w of row r of bank b of a slice (R78). -/
def cellAddr (slice bank row word : Nat) : Nat := ((slice * 34 + bank) * 2080 + row) * 16 + word

/-- The 16 codewords of a bank row. -/
def Cells.readRow (c : Cells) (slice bank row : Nat) : List Codeword :=
  (List.range 16).map fun w => c.read (cellAddr slice bank row w)

/-- Store codewords from word `w` of a bank row on. -/
def Cells.writeFrom (c : Cells) (slice bank row : Nat) : Nat → List Codeword → Cells
  | _, [] => c
  | w, v :: vs => Cells.writeFrom (c.write (cellAddr slice bank row w) v) slice bank row (w + 1) vs

/-- Store the 16 codewords of a bank row. -/
def Cells.writeRow (c : Cells) (slice bank row : Nat) (vs : List Codeword) : Cells :=
  c.writeFrom slice bank row 0 vs

/-- Zero codewords everywhere in a bank: what a zero-fill leaves (R394). -/
def Cells.zeroBank (c : Cells) (slice bank : Nat) : Cells :=
  c.filter fun p => decide (p.1 < cellAddr slice bank 0 0 ∨ cellAddr slice (bank + 1) 0 0 ≤ p.1)

/-! ### Fields -/

/-- Field of `n` bits from bit `lo`, as a number. -/
def fld (w : Word) (lo n : Nat) : Nat := w.toNat >>> lo % 2 ^ n

/-- Replace the field of `n` bits from bit `lo`. -/
def setFld (w : Word) (lo n v : Nat) : Word :=
  let m : Word := BitVec.ofNat 32 ((2 ^ n - 1) <<< lo)
  (w &&& ~~~ m) ||| (BitVec.ofNat 32 (v <<< lo) &&& m)

/-- Bit `i` of a word. -/
def bit (w : Word) (i : Nat) : Bool := w.getLsbD i

/-- One above, no more than the largest value of `n` bits. -/
def satAdd (n a k : Nat) : Nat := min (a + k) (2 ^ n - 1)

/-- The four bytes of a word, least significant first (R15). -/
def wordBytes (w : Word) : List Byte := (List.range 4).map fun i => BitVec.ofNat 8 (w.toNat >>> (8 * i))

/-- The number that little-endian bytes spell. -/
def leNat : List Byte → Nat
  | [] => 0
  | b :: t => b.toNat + 256 * leNat t

/-- The `n` low bytes of a number, least significant first. -/
def natBytes : Nat → Nat → List Byte
  | 0, _ => []
  | n + 1, v => BitVec.ofNat 8 v :: natBytes n (v / 256)

/-- Cut a list into pieces of `n` (at most `fuel` of them). -/
def chunksOf {α : Type} (n : Nat) : Nat → List α → List (List α)
  | 0, _ => []
  | fuel + 1, l => if l.isEmpty then [] else l.take n :: chunksOf n fuel (l.drop n)

/-- The words that little-endian bytes spell. -/
def bytesWords (bs : List Byte) : List Word := (chunksOf 4 bs.length bs).map fun b => BitVec.ofNat 32 (leNat b)

/-- A 32-bit field sign-extended to 64 bits (R249). -/
def sext (w : Word) : Addr := w.signExtend 64

/-- The word of a number. -/
abbrev word (n : Nat) : Word := BitVec.ofNat 32 n

/-! ### SECDED(39,32) -/

/-- Data columns of Table 2.9, d[0] first. -/
def secdedCols : List Nat :=
  [0x0B, 0x0D, 0x0E, 0x13, 0x15, 0x16, 0x19, 0x1A, 0x1C, 0x23, 0x25, 0x26, 0x29, 0x2A, 0x2C, 0x31] ++
  [0x32, 0x34, 0x43, 0x45, 0x46, 0x4A, 0x4C, 0x51, 0x52, 0x54, 0x58, 0x61, 0x62, 0x64, 0x68, 0x70]

/-- The check bits of a data word (R81). -/
def checkBits (d : Word) : Nat :=
  (secdedCols.zipIdx).foldl (fun c p => if d.getLsbD p.2 then c ^^^ p.1 else c) 0

/-- Encode a data word (R81). -/
def encodeCw (d : Word) : Codeword := BitVec.ofNat 39 (d.toNat + checkBits d * 2 ^ 32)

/-- The data bits of a codeword. -/
def cwData (c : Codeword) : Word := BitVec.ofNat 32 c.toNat

/-- The syndrome of a codeword (R82). -/
def syndrome (c : Codeword) : Nat := checkBits (cwData c) ^^^ (c.toNat >>> 32)

/-- What decoding finds (Table 2.10). -/
inductive Decoded where
  | ok (d : Word)
  | corrected (d : Word)
  | uncorrectable
  deriving DecidableEq, Repr

/-- Decode a codeword (R82, Table 2.10). -/
def decodeCw (c : Codeword) : Decoded :=
  let s := syndrome c
  let d := cwData c
  if s = 0 then .ok d
  else match secdedCols.findIdx? (· = s) with
    | some n => .corrected (d ^^^ (1#32 <<< n))
    | none => if s ∈ [1, 2, 4, 8, 16, 32, 64] then .corrected d else .uncorrectable

/-- The corrected codeword of a word that is not uncorrectable. -/
def Decoded.codeword : Decoded → Codeword
  | .ok d => encodeCw d
  | .corrected d => encodeCw d
  | .uncorrectable => 0

/-- The data of a word that is not uncorrectable. -/
def Decoded.data : Decoded → Word
  | .ok d => d
  | .corrected d => d
  | .uncorrectable => 0

/-- Put error masks on codewords; a missing mask changes nothing. -/
def withNoise : List Codeword → List Codeword → List Codeword
  | [], _ => []
  | c :: cs, [] => c :: cs
  | c :: cs, n :: ns => (c ^^^ n) :: withNoise cs ns

/-! ### CRC-64/ECMA-182 -/

/-- One bit of the CRC register. -/
def crcBit (c : BitVec 64) : BitVec 64 :=
  if c.getLsbD 63 then (c <<< 1) ^^^ 0x42F0E1EBA9EA3693#64 else c <<< 1

/-- One byte of the CRC: no reflection (R316). -/
def crcByte (c : BitVec 64) (b : Byte) : BitVec 64 :=
  (List.range 8).foldl (fun c _ => crcBit c) (c ^^^ (b.setWidth 64 <<< 56))

/-- CRC-64/ECMA-182 with initial value 0 and no final XOR (R316). -/
def crc64 (bs : List Byte) : BitVec 64 := bs.foldl crcByte 0

/-! ### SHAKE128 -/

/-- Rotation offsets of Keccak-f[1600], lane x + 5y (FIPS 202). -/
def keccakRot : List Nat :=
  [0, 1, 62, 28, 27, 36, 44, 6, 55, 20, 3, 10, 43, 25, 39, 41, 45, 15, 21, 8, 18, 2, 61, 56, 14]

/-- Round constants of Keccak-f[1600] (FIPS 202). -/
def keccakRc : List (BitVec 64) :=
  [0x0000000000000001, 0x0000000000008082, 0x800000000000808A, 0x8000000080008000, 0x000000000000808B,
   0x0000000080000001, 0x8000000080008081, 0x8000000000008009, 0x000000000000008A, 0x0000000000000088,
   0x0000000080008009, 0x000000008000000A] ++
  [0x000000008000808B, 0x800000000000008B, 0x8000000000008089, 0x8000000000008003, 0x8000000000008002,
   0x8000000000000080, 0x000000000000800A, 0x800000008000000A, 0x8000000080008081, 0x8000000000008080,
   0x0000000080000001, 0x8000000080008008]

/-- One round of Keccak-f[1600] (theta, rho, pi, chi, iota). -/
def keccakRound (a : List (BitVec 64)) (rc : BitVec 64) : List (BitVec 64) :=
  let at_ (l : List (BitVec 64)) (x y : Nat) := l.getD (x % 5 + 5 * (y % 5)) 0
  let c := (List.range 5).map fun x => at_ a x 0 ^^^ at_ a x 1 ^^^ at_ a x 2 ^^^ at_ a x 3 ^^^ at_ a x 4
  let d := (List.range 5).map fun x => c.getD ((x + 4) % 5) 0 ^^^ (c.getD ((x + 1) % 5) 0).rotateLeft 1
  let t := (List.range 25).map fun i => a.getD i 0 ^^^ d.getD (i % 5) 0
  let b := (List.range 25).map fun i =>
    let x := i % 5; let y := i / 5
    let sx := (x + 3 * y) % 5
    (at_ t sx x).rotateLeft (keccakRot.getD (sx + 5 * x) 0)
  let e := (List.range 25).map fun i =>
    let x := i % 5; let y := i / 5
    at_ b x y ^^^ (~~~ at_ b (x + 1) y &&& at_ b (x + 2) y)
  match e with
  | h :: r => (h ^^^ rc) :: r
  | [] => []

/-- The Keccak-f[1600] permutation. -/
def keccakF (a : List (BitVec 64)) : List (BitVec 64) := keccakRc.foldl keccakRound a

/-- The state that absorbs a message of less than one SHAKE128 block of 168 bytes, padded. -/
def shakeAbsorb (msg : List Byte) : List (BitVec 64) :=
  let padded := msg ++ [0x1F#8] ++ List.replicate (166 - msg.length) 0#8 ++ [0x80#8]
  ((chunksOf 8 21 padded).map fun b => BitVec.ofNat 64 (leNat b)) ++ List.replicate 4 0

/-- The 42 words that one permutation yields (R264). -/
def shakeWords (a : List (BitVec 64)) : List Word :=
  (a.take 21).flatMap fun (l : BitVec 64) => [l.setWidth 32, (l >>> 32).setWidth 32]

/-- Take candidates below q under the mask until 128 are accepted (R263). -/
def keyAccept (q mask : Nat) : List Word → List Word → List Word
  | [], acc => acc
  | w :: ws, acc =>
    let t := w.toNat &&& mask
    keyAccept q mask ws (if acc.length < 128 && t < q then acc ++ [word t] else acc)

/-- Permute and sample until 128 words are accepted: the words and the number of permutations. FUEL bounds the
permutations; each accepts more than half of its candidates on average (R264). -/
def keySample (q mask : Nat) : Nat → List (BitVec 64) → List Word → Nat → List Word × Nat
  | 0, _, acc, n => (acc, n)
  | fuel + 1, a, acc, n =>
    if 128 ≤ acc.length then (acc, n)
    else let a' := keccakF a
      keySample q mask fuel a' (keyAccept q mask (shakeWords a') acc) (n + 1)

/-- The 128 words of column block b of stream row i under modulus q, and the permutations they took (R263). -/
def keyFragment (seed : List Word) (i b q : Nat) : List Word × Nat :=
  let msg := seed.flatMap wordBytes ++ [BitVec.ofNat 8 i, BitVec.ofNat 8 (i / 256), BitVec.ofNat 8 b, 1#8]
  keySample q (2 ^ (Nat.log2 q + 1) - 1) 4096 (shakeAbsorb msg) [] 0

/-! ### SHA-384 -/

/-- The first 64 bits of the fraction of the k-th root of p, one bit at a time from bit 67 down. -/
def rootFraction (k p : Nat) : BitVec 64 :=
  BitVec.ofNat 64 ((List.range 68).foldl (fun r i => if (r + 2 ^ (67 - i)) ^ k ≤ p * 2 ^ (64 * k) then r + 2 ^ (67 - i) else r) 0)

/-- The first 80 prime numbers. -/
def shaPrimes : List Nat := (List.range 410).filter fun n => 2 ≤ n && (List.range n).all fun d => d < 2 || n % d ≠ 0

/-- Round constants of SHA-384: fractions of the cube roots of the primes (FIPS 180-4). -/
def shaConstants : List (BitVec 64) := shaPrimes.map (rootFraction 3)

/-- Initial hash value of SHA-384: fractions of the square roots of the ninth to sixteenth primes (FIPS 180-4). -/
def sha384Init : List (BitVec 64) := ((shaPrimes.drop 8).take 8).map (rootFraction 2)

/-- Exclusive or of a word turned right by each of some amounts. -/
def turns (x : BitVec 64) (amounts : List Nat) : BitVec 64 := amounts.foldl (fun acc n => acc ^^^ x.rotateRight n) 0

/-- The window of the last 16 schedule words, oldest first, moved on by one word. -/
def shaNext (w : List (BitVec 64)) : List (BitVec 64) :=
  let old := w.getD 1 0
  let late := w.getD 14 0
  w.drop 1 ++ [w.getD 0 0 + w.getD 9 0 + (turns old [1, 8] ^^^ (old >>> 7)) + (turns late [19, 61] ^^^ (late >>> 6))]

/-- One round on the working words, `wk` the sum of its schedule word and its constant. -/
def shaMix (v : List (BitVec 64)) (wk : BitVec 64) : List (BitVec 64) :=
  let x (i : Nat) := v.getD i 0
  let choice := x 6 ^^^ (x 4 &&& (x 5 ^^^ x 6))
  let majority := (x 0 &&& (x 1 ||| x 2)) ||| (x 1 &&& x 2)
  let t := x 7 + turns (x 4) [14, 18, 41] + choice + wk
  (t + turns (x 0) [28, 34, 39] + majority) :: (v.take 3 ++ (x 3 + t) :: (v.drop 4).take 3)

/-- The number that big-endian bytes spell. -/
def beNat (bs : List Byte) : Nat := bs.foldl (fun n b => n * 256 + b.toNat) 0

/-- One 128-byte block: 80 rounds, each taking the oldest word of the window. -/
def shaBlock (h : List (BitVec 64)) (blk : List Byte) : List (BitVec 64) :=
  let w := (chunksOf 8 16 blk).map fun b => BitVec.ofNat 64 (beNat b)
  let run := shaConstants.foldl (fun (st : List (BitVec 64) × List (BitVec 64)) k =>
    (shaMix st.1 (st.2.getD 0 0 + k), shaNext st.2)) (h, w)
  (h.zip run.1).map fun p => p.1 + p.2

/-- The 48 bytes of the SHA-384 of a message, in the order of the standard (FIPS 180-4). -/
def sha384 (msg : List Byte) : List Byte :=
  let pad := (239 - msg.length % 128) % 128
  let full := msg ++ 0x80#8 :: (List.replicate pad 0#8 ++ (natBytes 16 (8 * msg.length)).reverse)
  let h := (chunksOf 128 (full.length / 128) full).foldl shaBlock sha384Init
  (h.flatMap fun x => (natBytes 8 x.toNat).reverse).take 48

/-! ### F32 -/

/-- The NaN that Barxus writes (R67). -/
def f32NaN : Word := 0x7FC00000

/-- Is the word a NaN? -/
def f32IsNaN (w : Word) : Bool := fld w 23 8 = 255 && fld w 0 23 ≠ 0

/-- Plus and minus infinity. -/
def f32PosInf : Word := 0x7F800000
/-- Minus infinity. -/
def f32NegInf : Word := 0xFF800000

/-- The value of a finite word in units of 2^-149. -/
def f32Int (w : Word) : Int :=
  let e := fld w 23 8
  let f := fld w 0 23
  let m : Nat := if e = 0 then f else (f + 2 ^ 23) * 2 ^ (e - 1)
  if bit w 31 then - (m : Int) else m

/-- Round a magnitude in units of 2^-149 to nearest, ties to even, as the low 31 bits of a word; subnormals are kept. -/
def f32Round (m : Nat) : Nat :=
  if m < 2 ^ 24 then m
  else
    let sh := Nat.log2 m - 23
    let q := m / 2 ^ sh
    let r := m % 2 ^ sh
    let half := 2 ^ (sh - 1)
    let q' := if half < r || (r = half && q % 2 = 1) then q + 1 else q
    min (sh * 2 ^ 23 + q') 0x7F800000

/-- The word of an exact sum; an exact zero is +0 unless `neg`. -/
def f32OfInt (v : Int) (neg : Bool) : Word :=
  if v = 0 then (if neg then 0x80000000 else 0)
  else if v < 0 then word (2 ^ 31 + f32Round v.natAbs) else word (f32Round v.natAbs)

/-- F32 addition (R67): nearest even, subnormals kept, NaN as 0x7FC0_0000, +0 + −0 = +0. -/
def f32Add (a b : Word) : Word :=
  if f32IsNaN a || f32IsNaN b then f32NaN
  else if fld a 23 8 = 255 then (if fld b 23 8 = 255 && a ≠ b then f32NaN else a)
  else if fld b 23 8 = 255 then b
  else f32OfInt (f32Int a + f32Int b) (bit a 31 && bit b 31)

/-- F32 subtraction: adding the negated operand. -/
def f32Sub (a b : Word) : Word := if f32IsNaN b then f32NaN else f32Add a (b ^^^ 0x80000000)

/-- A key that orders non-NaN words by value, −0 and +0 equal. -/
def f32Order (w : Word) : Int := if bit w 31 then - (fld w 0 31 : Int) else fld w 0 31

/-- The larger of two non-NaN words; the maximum of +0 and −0 is +0 (R231). -/
def f32Max (a b : Word) : Word :=
  if f32Order a < f32Order b then b
  else if f32Order a = f32Order b && fld a 0 31 = 0 then (if bit a 31 then b else a) else a

end Sys2Proof.Machine
end

