-- ==== Sys2Proof/Machine/RegMap.lean ====
section
/-!
DEFINITION. The register map of Table 14.7: for every register its offset and, from its own register table,
which bits each access code of Table 0.4 covers and the reset value. A register whose reset value differs
from index to index has one row per index.
-/
namespace Sys2Proof.Machine

/-- One line of the register map: `count` registers of `stride` bytes from `base`, the bits of each access code
(RW, W1C, W1S, RWL; every other bit is RO, WO or reserved) and the reset value (R16, R432). -/
structure RegRow where
  base : Nat
  stride : Nat
  count : Nat
  rw : Word
  w1c : Word
  w1s : Word
  rwl : Word
  reset : Word
  deriving DecidableEq, Repr

/-- BLOCK_ID (spec Table 1.4). -/
abbrev rBLOCK_ID : Nat := 0x0
/-- CONTRACT_CAP (spec Table 1.5). -/
abbrev rCONTRACT_CAP : Nat := 0x4
/-- TILE_CAP (spec Table 1.6). -/
abbrev rTILE_CAP : Nat := 0x8
/-- SHAPE_CAP (spec Table 1.7). -/
abbrev rSHAPE_CAP : Nat := 0xC
/-- FORMAT_CAP (spec Table 1.8). -/
abbrev rFORMAT_CAP : Nat := 0x10
/-- CAPACITY_CAP (spec Table 1.9). -/
abbrev rCAPACITY_CAP : Nat := 0x14
/-- MODULUS_CAP (spec Table 1.10). -/
abbrev rMODULUS_CAP : Nat := 0x18
/-- CONTROL_CAP (spec Table 1.11). -/
abbrev rCONTROL_CAP : Nat := 0x1C
/-- SLICE_CAP (spec Table 1.12). -/
abbrev rSLICE_CAP : Nat := 0x40
/-- BANK_CAP (spec Table 1.13). -/
abbrev rBANK_CAP : Nat := 0x44
/-- ROW_CAP (spec Table 1.14). -/
abbrev rROW_CAP : Nat := 0x48
/-- FABRIC_CAP (spec Table 1.15). -/
abbrev rFABRIC_CAP : Nat := 0x4C
/-- RATE_CAP (spec Table 1.16). -/
abbrev rRATE_CAP : Nat := 0x50
/-- TICK_CAP (spec Table 1.17). -/
abbrev rTICK_CAP : Nat := 0x54
/-- SERVICE_LO (spec Table 1.18). -/
abbrev rSERVICE_LO : Nat := 0x80
/-- SERVICE_HI (spec Table 1.18). -/
abbrev rSERVICE_HI : Nat := 0x84
/-- SERVICE_SUM (spec Table 1.19). -/
abbrev rSERVICE_SUM : Nat := 0x88
/-- GEN_COMMIT (spec Table 13.10). -/
abbrev rGEN_COMMIT : Nat := 0x1000
/-- GEN_STATUS (spec Table 13.11). -/
abbrev rGEN_STATUS : Nat := 0x1004
/-- GEN_CONV_LO (spec Table 13.12). -/
abbrev rGEN_CONV_LO : Nat := 0x1008
/-- GEN_CONV_HI (spec Table 13.12). -/
abbrev rGEN_CONV_HI : Nat := 0x100C
/-- CONTRACT_SEL (spec Table 1.20). -/
abbrev rCONTRACT_SEL : Nat := 0x1010
/-- REF_TICK_LO (spec Table 1.21). -/
abbrev rREF_TICK_LO : Nat := 0x1020
/-- REF_TICK_HI (spec Table 1.21). -/
abbrev rREF_TICK_HI : Nat := 0x1024
/-- RESET_CTL (spec Table 13.13). -/
abbrev rRESET_CTL : Nat := 0x1030
/-- RESET_STATUS (spec Table 13.14). -/
abbrev rRESET_STATUS : Nat := 0x1034
/-- READY (spec Table 13.15). -/
abbrev rREADY : Nat := 0x1040
/-- FILLING_LO (spec Table 13.16). -/
abbrev rFILLING_LO : Nat := 0x1044
/-- FILLING_HI (spec Table 13.16). -/
abbrev rFILLING_HI : Nat := 0x1048
/-- PSTATE_CTL (spec Table 13.17). -/
abbrev rPSTATE_CTL : Nat := 0x1050
/-- PSTATE_STATUS (spec Table 13.18). -/
abbrev rPSTATE_STATUS : Nat := 0x1054
/-- BND_STATUS (spec Table 14.8). -/
abbrev rBND_STATUS : Nat := 0x1100
/-- BND_CFG (spec Table 14.9). -/
abbrev rBND_CFG : Nat := 0x1104
/-- MODQ_TABLE[i] (spec Table 2.12). -/
abbrev rMODQ_TABLE (i : Nat) : Nat := 0x1400 + 0x4 * i
/-- MODQ_ACTIVE[i] (spec Table 2.13). -/
abbrev rMODQ_ACTIVE (i : Nat) : Nat := 0x1600 + 0x4 * i
/-- MODTAB_STATUS (spec Table 2.14). -/
abbrev rMODTAB_STATUS : Nat := 0x1700
/-- CLASS_SEL (spec Table 5.16). -/
abbrev rCLASS_SEL : Nat := 0x1800
/-- CLASS_INFO (spec Table 5.17). -/
abbrev rCLASS_INFO : Nat := 0x1804
/-- CLASS_PORTS_LO (spec Table 5.18). -/
abbrev rCLASS_PORTS_LO : Nat := 0x1808
/-- CLASS_PORTS_HI (spec Table 5.18). -/
abbrev rCLASS_PORTS_HI : Nat := 0x180C
/-- CLASS_CAP[i] (spec Table 5.19). -/
abbrev rCLASS_CAP (i : Nat) : Nat := 0x1810 + 0x4 * i
/-- PORT_EVT_LO (spec Table 5.20). -/
abbrev rPORT_EVT_LO : Nat := 0x1820
/-- PORT_EVT_HI (spec Table 5.20). -/
abbrev rPORT_EVT_HI : Nat := 0x1824
/-- RING_BASE_LO[i] (spec Table 4.19). -/
abbrev rRING_BASE_LO (i : Nat) : Nat := 0x10000 + 0x100 * i
/-- RING_BASE_HI[i] (spec Table 4.19). -/
abbrev rRING_BASE_HI (i : Nat) : Nat := 0x10004 + 0x100 * i
/-- CPL_BASE_LO[i] (spec Table 4.19). -/
abbrev rCPL_BASE_LO (i : Nat) : Nat := 0x10008 + 0x100 * i
/-- CPL_BASE_HI[i] (spec Table 4.19). -/
abbrev rCPL_BASE_HI (i : Nat) : Nat := 0x1000C + 0x100 * i
/-- PI_ADDR_LO[i] (spec Table 4.19). -/
abbrev rPI_ADDR_LO (i : Nat) : Nat := 0x10010 + 0x100 * i
/-- PI_ADDR_HI[i] (spec Table 4.19). -/
abbrev rPI_ADDR_HI (i : Nat) : Nat := 0x10014 + 0x100 * i
/-- RETIRE_ADDR_LO[i] (spec Table 4.19). -/
abbrev rRETIRE_ADDR_LO (i : Nat) : Nat := 0x10018 + 0x100 * i
/-- RETIRE_ADDR_HI[i] (spec Table 4.19). -/
abbrev rRETIRE_ADDR_HI (i : Nat) : Nat := 0x1001C + 0x100 * i
/-- RING_CFG[i] (spec Table 4.20). -/
abbrev rRING_CFG (i : Nat) : Nat := 0x10020 + 0x100 * i
/-- RING_POLL[i] (spec Table 4.21). -/
abbrev rRING_POLL (i : Nat) : Nat := 0x10024 + 0x100 * i
/-- RING_CTL[i] (spec Table 4.22). -/
abbrev rRING_CTL (i : Nat) : Nat := 0x10028 + 0x100 * i
/-- RING_STATUS[i] (spec Table 4.23). -/
abbrev rRING_STATUS (i : Nat) : Nat := 0x1002C + 0x100 * i
/-- RING_HEAD_LO[i] (spec Table 4.19). -/
abbrev rRING_HEAD_LO (i : Nat) : Nat := 0x10030 + 0x100 * i
/-- RING_HEAD_HI[i] (spec Table 4.19). -/
abbrev rRING_HEAD_HI (i : Nat) : Nat := 0x10034 + 0x100 * i
/-- PI_SEEN_LO[i] (spec Table 4.24). -/
abbrev rPI_SEEN_LO (i : Nat) : Nat := 0x10038 + 0x100 * i
/-- PI_SEEN_HI[i] (spec Table 4.24). -/
abbrev rPI_SEEN_HI (i : Nat) : Nat := 0x1003C + 0x100 * i
/-- RING_INFLIGHT[i] (spec Table 4.25). -/
abbrev rRING_INFLIGHT (i : Nat) : Nat := 0x10040 + 0x100 * i
/-- RING_RESUME[i] (spec Table 4.26). -/
abbrev rRING_RESUME (i : Nat) : Nat := 0x10044 + 0x100 * i
/-- DONE_COUNT[i] (spec Table 4.27). -/
abbrev rDONE_COUNT (i : Nat) : Nat := 0x10048 + 0x100 * i
/-- FAIL_COUNT[i] (spec Table 4.27). -/
abbrev rFAIL_COUNT (i : Nat) : Nat := 0x1004C + 0x100 * i
/-- TOKEN_VALUE[i] (spec Table 4.28). -/
abbrev rTOKEN_VALUE (i : Nat) : Nat := 0x18000 + 0x8 * i
/-- TOKEN_CFG[i] (spec Table 4.28). -/
abbrev rTOKEN_CFG (i : Nat) : Nat := 0x18004 + 0x8 * i
/-- NOTIFY_PEND_LO (spec Table 4.29). -/
abbrev rNOTIFY_PEND_LO : Nat := 0x1C000
/-- NOTIFY_PEND_HI (spec Table 4.29). -/
abbrev rNOTIFY_PEND_HI : Nat := 0x1C004
/-- NOTIFY_MASK_LO (spec Table 4.29). -/
abbrev rNOTIFY_MASK_LO : Nat := 0x1C008
/-- NOTIFY_MASK_HI (spec Table 4.29). -/
abbrev rNOTIFY_MASK_HI : Nat := 0x1C00C
/-- KS_CTL (spec Table 3.5). -/
abbrev rKS_CTL : Nat := 0x20000
/-- KS_CTL_ACT (spec Table 3.5). -/
abbrev rKS_CTL_ACT : Nat := 0x20004
/-- KS_RESERVE (spec Table 3.6). -/
abbrev rKS_RESERVE : Nat := 0x20008
/-- KS_SEED (spec Table 3.7). -/
abbrev rKS_SEED : Nat := 0x2000C
/-- KS_STATUS (spec Table 3.8). -/
abbrev rKS_STATUS : Nat := 0x20010
/-- KS_CNT_CLEAR (spec Table 3.9). -/
abbrev rKS_CNT_CLEAR : Nat := 0x20014
/-- KS_CAPACITY (spec Table 3.10). -/
abbrev rKS_CAPACITY : Nat := 0x20020
/-- KS_CLAIMED (spec Table 3.10). -/
abbrev rKS_CLAIMED : Nat := 0x20024
/-- KS_FREE (spec Table 3.10). -/
abbrev rKS_FREE : Nat := 0x20028
/-- KS_FRESH (spec Table 3.10). -/
abbrev rKS_FRESH : Nat := 0x2002C
/-- KS_RETIRED (spec Table 3.10). -/
abbrev rKS_RETIRED : Nat := 0x20030
/-- MIG_DONE (spec Table 3.11). -/
abbrev rMIG_DONE : Nat := 0x20040
/-- MIG_ABANDON (spec Table 3.11). -/
abbrev rMIG_ABANDON : Nat := 0x20044
/-- STARVED_COUNT (spec Table 3.11). -/
abbrev rSTARVED_COUNT : Nat := 0x20048
/-- LENT (spec Table 3.11). -/
abbrev rLENT : Nat := 0x2004C
/-- KS_QUERY_NAME (spec Table 3.12). -/
abbrev rKS_QUERY_NAME : Nat := 0x20060
/-- KS_QUERY_PLACE (spec Table 3.13). -/
abbrev rKS_QUERY_PLACE : Nat := 0x20064
/-- XN_CTL (spec Table 6.8). -/
abbrev rXN_CTL : Nat := 0x30000
/-- XN_STATUS (spec Table 6.9). -/
abbrev rXN_STATUS : Nat := 0x30004
/-- XN_CNT_CLEAR (spec Table 6.10). -/
abbrev rXN_CNT_CLEAR : Nat := 0x30008
/-- PERM_VECTORS (spec Table 6.11). -/
abbrev rPERM_VECTORS : Nat := 0x30010
/-- ADDR_BEATS (spec Table 6.11). -/
abbrev rADDR_BEATS : Nat := 0x30014
/-- ADDR_STALLS (spec Table 6.11). -/
abbrev rADDR_STALLS : Nat := 0x30018
/-- MODE_SWITCHES (spec Table 6.11). -/
abbrev rMODE_SWITCHES : Nat := 0x3001C
/-- REFUSALS (spec Table 6.11). -/
abbrev rREFUSALS : Nat := 0x30020
/-- XN_ERR (spec Table 6.12). -/
abbrev rXN_ERR : Nat := 0x30024
/-- LIB_INFO[i] (spec Table 6.13). -/
abbrev rLIB_INFO (i : Nat) : Nat := 0x30100 + 0x10 * i
/-- LIB_BASE_LO[i] (spec Table 6.14). -/
abbrev rLIB_BASE_LO (i : Nat) : Nat := 0x30104 + 0x10 * i
/-- LIB_BASE_HI[i] (spec Table 6.14). -/
abbrev rLIB_BASE_HI (i : Nat) : Nat := 0x30108 + 0x10 * i
/-- PROG_QUERY (spec Table 6.15). -/
abbrev rPROG_QUERY : Nat := 0x30200
/-- PROG_INFO (spec Table 6.16). -/
abbrev rPROG_INFO : Nat := 0x30204
/-- PROG_CRC_LO (spec Table 6.17). -/
abbrev rPROG_CRC_LO : Nat := 0x30208
/-- PROG_CRC_HI (spec Table 6.17). -/
abbrev rPROG_CRC_HI : Nat := 0x3020C
/-- QUOIN_CTL (spec Table 6.18). -/
abbrev rQUOIN_CTL : Nat := 0x30300
/-- QUOIN_STATUS (spec Table 6.19). -/
abbrev rQUOIN_STATUS : Nat := 0x30304
/-- QUOIN_OUT_VECTORS (spec Table 6.20). -/
abbrev rQUOIN_OUT_VECTORS : Nat := 0x30308
/-- QUOIN_IN_COMMITS (spec Table 6.20). -/
abbrev rQUOIN_IN_COMMITS : Nat := 0x3030C
/-- QUOIN_LAST_IN (spec Table 6.21). -/
abbrev rQUOIN_LAST_IN : Nat := 0x30310
/-- QUOIN_ALIAS_A[i] (spec Table 6.22). -/
abbrev rQUOIN_ALIAS_A (i : Nat) : Nat := 0x30340 + 0x8 * i
/-- QUOIN_ALIAS_B[i] (spec Table 6.22). -/
abbrev rQUOIN_ALIAS_B (i : Nat) : Nat := 0x30344 + 0x8 * i
/-- MP_CFG (spec Table 8.5). -/
abbrev rMP_CFG : Nat := 0x40000
/-- KEY_CFG (spec Table 8.6). -/
abbrev rKEY_CFG : Nat := 0x40004
/-- WATCH_CFG (spec Table 8.7). -/
abbrev rWATCH_CFG : Nat := 0x40008
/-- NODE_ID (spec Table 8.8). -/
abbrev rNODE_ID : Nat := 0x4000C
/-- ATC_INVAL (spec Table 8.9). -/
abbrev rATC_INVAL : Nat := 0x40010
/-- ATC_INVAL_VA_LO (spec Table 8.10). -/
abbrev rATC_INVAL_VA_LO : Nat := 0x40014
/-- ATC_INVAL_VA_HI (spec Table 8.10). -/
abbrev rATC_INVAL_VA_HI : Nat := 0x40018
/-- MP_STATUS (spec Table 8.11). -/
abbrev rMP_STATUS : Nat := 0x4001C
/-- RD_BURSTS (spec Table 8.12). -/
abbrev rRD_BURSTS : Nat := 0x40040
/-- WR_BURSTS (spec Table 8.12). -/
abbrev rWR_BURSTS : Nat := 0x40044
/-- ATC_HITS (spec Table 8.12). -/
abbrev rATC_HITS : Nat := 0x40048
/-- ATC_MISSES (spec Table 8.12). -/
abbrev rATC_MISSES : Nat := 0x4004C
/-- WALK_FAULTS (spec Table 8.12). -/
abbrev rWALK_FAULTS : Nat := 0x40050
/-- WALK_TIMEOUTS (spec Table 8.12). -/
abbrev rWALK_TIMEOUTS : Nat := 0x40054
/-- REMOTE_FAILS (spec Table 8.12). -/
abbrev rREMOTE_FAILS : Nat := 0x40058
/-- DATA_ERRS (spec Table 8.12). -/
abbrev rDATA_ERRS : Nat := 0x4005C
/-- PF_DROPPED (spec Table 8.12). -/
abbrev rPF_DROPPED : Nat := 0x40060
/-- PF_SKIPPED (spec Table 8.12). -/
abbrev rPF_SKIPPED : Nat := 0x40064
/-- KEY_PERMS (spec Table 8.12). -/
abbrev rKEY_PERMS : Nat := 0x40068
/-- KEY_WORDS (spec Table 8.12). -/
abbrev rKEY_WORDS : Nat := 0x4006C
/-- MP_CNT_CLEAR (spec Table 8.13). -/
abbrev rMP_CNT_CLEAR : Nat := 0x40080
/-- ARB_SEL[i] (spec Table 9.5). -/
abbrev rARB_SEL (i : Nat) : Nat := 0x50000 + 0x100 * i
/-- CNT_GRANT_LO[i] (spec Table 9.6). -/
abbrev rCNT_GRANT_LO (i : Nat) : Nat := 0x50004 + 0x100 * i
/-- CNT_GRANT_HI[i] (spec Table 9.6). -/
abbrev rCNT_GRANT_HI (i : Nat) : Nat := 0x50008 + 0x100 * i
/-- CNT_WAIT_LO[i] (spec Table 9.6). -/
abbrev rCNT_WAIT_LO (i : Nat) : Nat := 0x5000C + 0x100 * i
/-- CNT_WAIT_HI[i] (spec Table 9.6). -/
abbrev rCNT_WAIT_HI (i : Nat) : Nat := 0x50010 + 0x100 * i
/-- ARB_CNT_CLEAR[i] (spec Table 9.7). -/
abbrev rARB_CNT_CLEAR (i : Nat) : Nat := 0x50014 + 0x100 * i
/-- ARB_CTL (spec Table 9.9). -/
abbrev rARB_CTL : Nat := 0x5F000
/-- ARB_CTL_ACT (spec Table 9.9). -/
abbrev rARB_CTL_ACT : Nat := 0x5F004
/-- ARB_STATUS (spec Table 9.10). -/
abbrev rARB_STATUS : Nat := 0x5F008
/-- ARB_WEIGHT[i] (spec Table 9.8). -/
abbrev rARB_WEIGHT (i : Nat) : Nat := 0x5F010 + 0x4 * i
/-- ARB_WEIGHT_ACT[i] (spec Table 9.8). -/
abbrev rARB_WEIGHT_ACT (i : Nat) : Nat := 0x5F030 + 0x4 * i
/-- ARB_BSEL (spec Table 9.11). -/
abbrev rARB_BSEL : Nat := 0x5F100
/-- BCNT_GRANT_LO (spec Table 9.6). -/
abbrev rBCNT_GRANT_LO : Nat := 0x5F104
/-- BCNT_GRANT_HI (spec Table 9.6). -/
abbrev rBCNT_GRANT_HI : Nat := 0x5F108
/-- BCNT_WAIT_LO (spec Table 9.6). -/
abbrev rBCNT_WAIT_LO : Nat := 0x5F10C
/-- BCNT_WAIT_HI (spec Table 9.6). -/
abbrev rBCNT_WAIT_HI : Nat := 0x5F110
/-- ARB_BCNT_CLEAR (spec Table 9.7). -/
abbrev rARB_BCNT_CLEAR : Nat := 0x5F114
/-- INT_CTL (spec Table 10.9). -/
abbrev rINT_CTL : Nat := 0x60000
/-- INT_CTL_ACT (spec Table 10.9). -/
abbrev rINT_CTL_ACT : Nat := 0x60004
/-- INT_STATUS (spec Table 10.10). -/
abbrev rINT_STATUS : Nat := 0x60008
/-- INT_EVT (spec Table 10.11). -/
abbrev rINT_EVT : Nat := 0x6000C
/-- INT_MASK (spec Table 10.11). -/
abbrev rINT_MASK : Nat := 0x60010
/-- FENCE_REQ_LO (spec Table 10.12). -/
abbrev rFENCE_REQ_LO : Nat := 0x60020
/-- FENCE_REQ_HI (spec Table 10.12). -/
abbrev rFENCE_REQ_HI : Nat := 0x60024
/-- FENCED_LO (spec Table 10.12). -/
abbrev rFENCED_LO : Nat := 0x60028
/-- FENCED_HI (spec Table 10.12). -/
abbrev rFENCED_HI : Nat := 0x6002C
/-- REREADS (spec Table 10.13). -/
abbrev rREREADS : Nat := 0x60040
/-- RESTARTS (spec Table 10.13). -/
abbrev rRESTARTS : Nat := 0x60044
/-- POISON_EVENTS (spec Table 10.13). -/
abbrev rPOISON_EVENTS : Nat := 0x60048
/-- NET_FAULTS (spec Table 10.13). -/
abbrev rNET_FAULTS : Nat := 0x6004C
/-- INT_CNT_CLEAR (spec Table 10.14). -/
abbrev rINT_CNT_CLEAR : Nat := 0x60050
/-- POISON_NAME (spec Table 10.15). -/
abbrev rPOISON_NAME : Nat := 0x60060
/-- POISON_INFO (spec Table 10.15). -/
abbrev rPOISON_INFO : Nat := 0x60064
/-- ERR_LOG_A (spec Table 10.16). -/
abbrev rERR_LOG_A : Nat := 0x60070
/-- ERR_LOG_B (spec Table 10.16). -/
abbrev rERR_LOG_B : Nat := 0x60074
/-- ERR_LOG_CTL (spec Table 10.16). -/
abbrev rERR_LOG_CTL : Nat := 0x60078
/-- PAIR_CTL (spec Table 10.17). -/
abbrev rPAIR_CTL : Nat := 0x60100
/-- PAIR_STATUS (spec Table 10.18). -/
abbrev rPAIR_STATUS : Nat := 0x60104
/-- PAIR_CMD (spec Table 10.19). -/
abbrev rPAIR_CMD : Nat := 0x60108
/-- PAIR_CFG (spec Table 10.19). -/
abbrev rPAIR_CFG : Nat := 0x6010C
/-- PAIR_MIS_RING (spec Table 10.20). -/
abbrev rPAIR_MIS_RING : Nat := 0x60110
/-- PAIR_MIS_IDX_LO (spec Table 10.20). -/
abbrev rPAIR_MIS_IDX_LO : Nat := 0x60114
/-- PAIR_MIS_IDX_HI (spec Table 10.20). -/
abbrev rPAIR_MIS_IDX_HI : Nat := 0x60118
/-- PAIR_SIG_LOCAL_LO (spec Table 10.21). -/
abbrev rPAIR_SIG_LOCAL_LO : Nat := 0x60120
/-- PAIR_SIG_LOCAL_HI (spec Table 10.21). -/
abbrev rPAIR_SIG_LOCAL_HI : Nat := 0x60124
/-- PAIR_SIG_PEER_LO (spec Table 10.21). -/
abbrev rPAIR_SIG_PEER_LO : Nat := 0x60128
/-- PAIR_SIG_PEER_HI (spec Table 10.21). -/
abbrev rPAIR_SIG_PEER_HI : Nat := 0x6012C
/-- PAIR_COMPARED (spec Table 10.22). -/
abbrev rPAIR_COMPARED : Nat := 0x60130
/-- PAIR_RETRIES (spec Table 10.22). -/
abbrev rPAIR_RETRIES : Nat := 0x60134
/-- PWR_CTL (spec Table 11.5). -/
abbrev rPWR_CTL : Nat := 0x70000
/-- GROUP_CTL (spec Table 11.6). -/
abbrev rGROUP_CTL : Nat := 0x70004
/-- GROUP_TIMING (spec Table 11.7). -/
abbrev rGROUP_TIMING : Nat := 0x70008
/-- COOL_CTL (spec Table 11.8). -/
abbrev rCOOL_CTL : Nat := 0x7000C
/-- PACE_STATUS (spec Table 11.9). -/
abbrev rPACE_STATUS : Nat := 0x70010
/-- CAP_STATUS (spec Table 11.10). -/
abbrev rCAP_STATUS : Nat := 0x70014
/-- CTRL_STATUS (spec Table 11.11). -/
abbrev rCTRL_STATUS : Nat := 0x70018
/-- PWR_EVT (spec Table 11.12). -/
abbrev rPWR_EVT : Nat := 0x7001C
/-- PWR_MASK (spec Table 11.12). -/
abbrev rPWR_MASK : Nat := 0x70020
/-- PWR_CNT_CLEAR (spec Table 11.13). -/
abbrev rPWR_CNT_CLEAR : Nat := 0x70024
/-- LATE_PERIODS (spec Table 11.14). -/
abbrev rLATE_PERIODS : Nat := 0x70028
/-- HELD_TICKS (spec Table 11.14). -/
abbrev rHELD_TICKS : Nat := 0x7002C
/-- COOL_STOPS (spec Table 11.14). -/
abbrev rCOOL_STOPS : Nat := 0x70030
/-- GROUP_PROGRESS (spec Table 11.15). -/
abbrev rGROUP_PROGRESS : Nat := 0x70034
/-- GROUP_MIN (spec Table 11.15). -/
abbrev rGROUP_MIN : Nat := 0x70038
/-- GROUP_STATUS (spec Table 11.16). -/
abbrev rGROUP_STATUS : Nat := 0x7003C
/-- CHILD_NODE[i] (spec Table 11.17). -/
abbrev rCHILD_NODE (i : Nat) : Nat := 0x70040 + 0x4 * i
/-- BARRIER_MASK[i] (spec Table 11.18). -/
abbrev rBARRIER_MASK (i : Nat) : Nat := 0x70080 + 0x4 * i
/-- OPP[i] (spec Table 11.19). -/
abbrev rOPP (i : Nat) : Nat := 0x70100 + 0x4 * i
/-- PHASE_K[i] (spec Table 11.20). -/
abbrev rPHASE_K (i : Nat) : Nat := 0x70140 + 0x4 * i
/-- PHASE_ENERGY_LO[i] (spec Table 11.21). -/
abbrev rPHASE_ENERGY_LO (i : Nat) : Nat := 0x70200 + 0x8 * i
/-- PHASE_ENERGY_HI[i] (spec Table 11.21). -/
abbrev rPHASE_ENERGY_HI (i : Nat) : Nat := 0x70204 + 0x8 * i
/-- BG_ENERGY_LO (spec Table 11.21). -/
abbrev rBG_ENERGY_LO : Nat := 0x70280
/-- BG_ENERGY_HI (spec Table 11.21). -/
abbrev rBG_ENERGY_HI : Nat := 0x70284
/-- STATIC_ENERGY_LO (spec Table 11.21). -/
abbrev rSTATIC_ENERGY_LO : Nat := 0x70288
/-- STATIC_ENERGY_HI (spec Table 11.21). -/
abbrev rSTATIC_ENERGY_HI : Nat := 0x7028C
/-- EC[i] (spec Table 11.22). -/
abbrev rEC (i : Nat) : Nat := 0x70300 + 0x4 * i
/-- EC_ACT[i] (spec Table 11.22). -/
abbrev rEC_ACT (i : Nat) : Nat := 0x70380 + 0x4 * i
/-- STATIC_NJ (spec Table 11.23). -/
abbrev rSTATIC_NJ : Nat := 0x70328
/-- STATIC_NJ_ACT (spec Table 11.23). -/
abbrev rSTATIC_NJ_ACT : Nat := 0x703A8
/-- TICK_CAL (spec Table 11.23). -/
abbrev rTICK_CAL : Nat := 0x7032C
/-- TICK_CAL_ACT (spec Table 11.23). -/
abbrev rTICK_CAL_ACT : Nat := 0x703AC
/-- KINIT (spec Table 11.23). -/
abbrev rKINIT : Nat := 0x70330
/-- KINIT_ACT (spec Table 11.23). -/
abbrev rKINIT_ACT : Nat := 0x703B0
/-- ACT_CNT_LO[i] (spec Table 11.24). -/
abbrev rACT_CNT_LO (i : Nat) : Nat := 0x70400 + 0x8 * i
/-- ACT_CNT_HI[i] (spec Table 11.24). -/
abbrev rACT_CNT_HI (i : Nat) : Nat := 0x70404 + 0x8 * i
/-- ACT_CNT_CLEAR (spec Table 11.25). -/
abbrev rACT_CNT_CLEAR : Nat := 0x70450
/-- MON_STATUS (spec Table 11.26). -/
abbrev rMON_STATUS : Nat := 0x70460
/-- MB_DATA[i] (spec Table 12.8). -/
abbrev rMB_DATA (i : Nat) : Nat := 0x80000 + 0x10 * i
/-- MB_STATUS[i] (spec Table 12.9). -/
abbrev rMB_STATUS (i : Nat) : Nat := 0x80004 + 0x10 * i
/-- MB_ACK[i] (spec Table 12.8). -/
abbrev rMB_ACK (i : Nat) : Nat := 0x80008 + 0x10 * i
/-- MB_BIND[i] (spec Table 12.8). -/
abbrev rMB_BIND (i : Nat) : Nat := 0x8000C + 0x10 * i
/-- MB_LOCK (spec Table 12.10). -/
abbrev rMB_LOCK : Nat := 0x80100
/-- MB_CFG (spec Table 12.10). -/
abbrev rMB_CFG : Nat := 0x80104
/-- MB_DENY (spec Table 12.10). -/
abbrev rMB_DENY : Nat := 0x80108
/-- DB_PEND (spec Table 12.11). -/
abbrev rDB_PEND : Nat := 0x80110
/-- DB_MASK (spec Table 12.11). -/
abbrev rDB_MASK : Nat := 0x80114
/-- DB_RING (spec Table 12.11). -/
abbrev rDB_RING : Nat := 0x80118
/-- DB_FROM (spec Table 12.11). -/
abbrev rDB_FROM : Nat := 0x8011C
/-- MSQ_CTL (spec Table 12.12). -/
abbrev rMSQ_CTL : Nat := 0x90000
/-- MSQ_STATUS (spec Table 12.13). -/
abbrev rMSQ_STATUS : Nat := 0x90004
/-- FW_INFO (spec Table 12.14). -/
abbrev rFW_INFO : Nat := 0x90008
/-- POLICY_INFO (spec Table 12.14). -/
abbrev rPOLICY_INFO : Nat := 0x9000C
/-- IMG_STATUS (spec Table 12.15). -/
abbrev rIMG_STATUS : Nat := 0x90010
/-- RECAL_STATUS (spec Table 12.16). -/
abbrev rRECAL_STATUS : Nat := 0x90014
/-- TRUST_STATUS (spec Table 12.17). -/
abbrev rTRUST_STATUS : Nat := 0x90018
/-- MIN_SVN[i] (spec Table 12.18). -/
abbrev rMIN_SVN (i : Nat) : Nat := 0x90020 + 0x4 * i
/-- SVC_DONE (spec Table 12.19). -/
abbrev rSVC_DONE : Nat := 0x90040
/-- SVC_FAIL (spec Table 12.19). -/
abbrev rSVC_FAIL : Nat := 0x90044
/-- SVC_CNT_CLEAR (spec Table 12.19). -/
abbrev rSVC_CNT_CLEAR : Nat := 0x90048
/-- KEY_HASH1[i] (spec Table 12.18). -/
abbrev rKEY_HASH1 (i : Nat) : Nat := 0x90100 + 0x4 * i
/-- KEY_HASH2[i] (spec Table 12.18). -/
abbrev rKEY_HASH2 (i : Nat) : Nat := 0x90140 + 0x4 * i
/-- KEY_HASH3[i] (spec Table 12.18). -/
abbrev rKEY_HASH3 (i : Nat) : Nat := 0x90180 + 0x4 * i
/-- TICK_LO[i] (spec Table 1.22). -/
abbrev rTICK_LO (i : Nat) : Nat := 0xA0000 + 0x400 * i
/-- TICK_HI[i] (spec Table 1.22). -/
abbrev rTICK_HI (i : Nat) : Nat := 0xA0004 + 0x400 * i
/-- LATCH_HITS[i] (spec Table 2.15). -/
abbrev rLATCH_HITS (i : Nat) : Nat := 0xA0010 + 0x400 * i
/-- LATCH_MISSES[i] (spec Table 2.15). -/
abbrev rLATCH_MISSES (i : Nat) : Nat := 0xA0014 + 0x400 * i
/-- LATCH_CTL[i] (spec Table 2.16). -/
abbrev rLATCH_CTL (i : Nat) : Nat := 0xA0018 + 0x400 * i
/-- COLLIDE[i] (spec Table 3.14). -/
abbrev rCOLLIDE (i : Nat) : Nat := 0xA0020 + 0x400 * i
/-- FREE_SLOTS[i] (spec Table 3.15). -/
abbrev rFREE_SLOTS (i : Nat) : Nat := 0xA0024 + 0x400 * i
/-- PORT_STATE[i] (spec Table 5.9). -/
abbrev rPORT_STATE (i : Nat) : Nat := 0xA0040 + 0x400 * i
/-- PORT_CTL[i] (spec Table 5.10). -/
abbrev rPORT_CTL (i : Nat) : Nat := 0xA0044 + 0x400 * i
/-- PORT_CFG[i] (spec Table 5.11). -/
abbrev rPORT_CFG (i : Nat) : Nat := 0xA0048 + 0x400 * i
/-- PORT_CAP0[i] (spec Table 5.12). -/
abbrev rPORT_CAP0 (i : Nat) : Nat := 0xA0050 + 0x400 * i
/-- PORT_CAP1[i] (spec Table 5.12). -/
abbrev rPORT_CAP1 (i : Nat) : Nat := 0xA0054 + 0x400 * i
/-- PORT_CAP2[i] (spec Table 5.12). -/
abbrev rPORT_CAP2 (i : Nat) : Nat := 0xA0058 + 0x400 * i
/-- PORT_CAP3[i] (spec Table 5.12). -/
abbrev rPORT_CAP3 (i : Nat) : Nat := 0xA005C + 0x400 * i
/-- OP_BEATS[i] (spec Table 5.13). -/
abbrev rOP_BEATS (i : Nat) : Nat := 0xA0060 + 0x400 * i
/-- W_BEATS[i] (spec Table 5.13). -/
abbrev rW_BEATS (i : Nat) : Nat := 0xA0064 + 0x400 * i
/-- PORT_GONE[i] (spec Table 5.14). -/
abbrev rPORT_GONE (i : Nat) : Nat := 0xA0068 + 0x400 * i
/-- PORT_ERR[i] (spec Table 5.15). -/
abbrev rPORT_ERR (i : Nat) : Nat := 0xA006C + 0x400 * i
/-- ACC_APPLIED[i] (spec Table 7.5). -/
abbrev rACC_APPLIED (i : Nat) : Nat := 0xA0080 + 0x400 * i
/-- ACC_MERGED[i] (spec Table 7.5). -/
abbrev rACC_MERGED (i : Nat) : Nat := 0xA0084 + 0x400 * i
/-- GATHER_REQS[i] (spec Table 7.6). -/
abbrev rGATHER_REQS (i : Nat) : Nat := 0xA0088 + 0x400 * i
/-- WAVE_WAIT[i] (spec Table 7.7). -/
abbrev rWAVE_WAIT (i : Nat) : Nat := 0xA008C + 0x400 * i
/-- REDUCE_ROWS[i] (spec Table 7.8). -/
abbrev rREDUCE_ROWS (i : Nat) : Nat := 0xA0090 + 0x400 * i
/-- ACC_CTL[i] (spec Table 7.9). -/
abbrev rACC_CTL (i : Nat) : Nat := 0xA0094 + 0x400 * i
/-- CE_COUNT[i] (spec Table 10.23). -/
abbrev rCE_COUNT (i : Nat) : Nat := 0xA00A0 + 0x400 * i
/-- UE_COUNT[i] (spec Table 10.23). -/
abbrev rUE_COUNT (i : Nat) : Nat := 0xA00A4 + 0x400 * i
/-- SPARE_STATUS[i] (spec Table 10.24). -/
abbrev rSPARE_STATUS (i : Nat) : Nat := 0xA00A8 + 0x400 * i
/-- SLICE_HEALTH[i] (spec Table 10.25). -/
abbrev rSLICE_HEALTH (i : Nat) : Nat := 0xA00AC + 0x400 * i
/-- SCRUB_PASSES[i] (spec Table 10.23). -/
abbrev rSCRUB_PASSES (i : Nat) : Nat := 0xA00B0 + 0x400 * i
/-- SCRUB_LAG[i] (spec Table 10.23). -/
abbrev rSCRUB_LAG (i : Nat) : Nat := 0xA00B4 + 0x400 * i
/-- SCRUB_POS[i] (spec Table 10.26). -/
abbrev rSCRUB_POS (i : Nat) : Nat := 0xA00B8 + 0x400 * i
/-- INT_SLICE_CLEAR[i] (spec Table 10.27). -/
abbrev rINT_SLICE_CLEAR (i : Nat) : Nat := 0xA00BC + 0x400 * i
/-- BANK_QUERY[i] (spec Table 10.28). -/
abbrev rBANK_QUERY (i : Nat) : Nat := 0xA00C0 + 0x400 * i
/-- BANK_INFO[i] (spec Table 10.28). -/
abbrev rBANK_INFO (i : Nat) : Nat := 0xA00C4 + 0x400 * i
/-- BND_PORT_CFG[i] (spec Table 14.10). -/
abbrev rBND_PORT_CFG (i : Nat) : Nat := 0xA00D0 + 0x400 * i
/-- TEST_CTL (spec Table 14.11). -/
abbrev rTEST_CTL : Nat := 0xF0000
/-- TEST_STEP (spec Table 14.12). -/
abbrev rTEST_STEP : Nat := 0xF0004
/-- TEST_STATUS (spec Table 14.13). -/
abbrev rTEST_STATUS : Nat := 0xF0008
/-- TEST_SIG_LO (spec Table 14.14). -/
abbrev rTEST_SIG_LO : Nat := 0xF0010
/-- TEST_SIG_HI (spec Table 14.14). -/
abbrev rTEST_SIG_HI : Nat := 0xF0014

/-- Part 1 of the register map, in ascending order of the spec's Table 14.7. -/
def regRows0 : List RegRow := [
  ⟨0x0, 0x0, 1, 0x0, 0x0, 0x0, 0x0, 0x5A414201⟩,
  ⟨0x4, 0x0, 1, 0x0, 0x0, 0x0, 0x0, 0x1000001⟩,
  ⟨0x8, 0x0, 1, 0x0, 0x0, 0x0, 0x0, 0x404000⟩,
  ⟨0xC, 0x0, 1, 0x0, 0x0, 0x0, 0x0, 0x7F0400⟩,
  ⟨0x10, 0x0, 1, 0x0, 0x0, 0x0, 0x0, 0x1FF⟩,
  ⟨0x14, 0x0, 1, 0x0, 0x0, 0x0, 0x0, 0x20080100⟩,
  ⟨0x18, 0x0, 1, 0x0, 0x0, 0x0, 0x0, 0x1F40⟩,
  ⟨0x1C, 0x0, 1, 0x0, 0x0, 0x0, 0x0, 0x61040⟩,
  ⟨0x40, 0x0, 1, 0x0, 0x0, 0x0, 0x0, 0x348040⟩,
  ⟨0x44, 0x0, 1, 0x0, 0x0, 0x0, 0x0, 0x8000220⟩,
  ⟨0x48, 0x0, 1, 0x0, 0x0, 0x0, 0x0, 0x72010⟩,
  ⟨0x4C, 0x0, 1, 0x0, 0x0, 0x0, 0x0, 0x194008⟩,
  ⟨0x50, 0x0, 1, 0x0, 0x0, 0x0, 0x0, 0x4004B0⟩,
  ⟨0x54, 0x0, 1, 0x0, 0x0, 0x0, 0x0, 0x1903E8⟩,
  ⟨0x80, 0x0, 1, 0x0, 0x0, 0x0, 0x0, 0x0⟩,
  ⟨0x84, 0x0, 1, 0x0, 0x0, 0x0, 0x0, 0x0⟩,
  ⟨0x88, 0x0, 1, 0x0, 0x0, 0x0, 0x0, 0x0⟩,
  ⟨0x1000, 0x0, 1, 0x0, 0x0, 0x0, 0x0, 0x0⟩,
  ⟨0x1004, 0x0, 1, 0x0, 0x200, 0x0, 0x0, 0x100⟩,
  ⟨0x1008, 0x0, 1, 0x0, 0x0, 0x0, 0x0, 0x0⟩,
  ⟨0x100C, 0x0, 1, 0x0, 0x0, 0x0, 0x0, 0x0⟩,
  ⟨0x1010, 0x0, 1, 0x0, 0x20000, 0x0, 0xFFFF, 0x100⟩,
  ⟨0x1020, 0x0, 1, 0x0, 0x0, 0x0, 0x0, 0x0⟩,
  ⟨0x1024, 0x0, 1, 0x0, 0x0, 0x0, 0x0, 0x0⟩]
/-- Part 2 of the register map, in ascending order of the spec's Table 14.7. -/
def regRows1 : List RegRow := [
  ⟨0x1030, 0x0, 1, 0xF00, 0x0, 0x0, 0x0, 0x0⟩,
  ⟨0x1034, 0x0, 1, 0x0, 0x30000, 0x0, 0x0, 0x10001⟩,
  ⟨0x1040, 0x0, 1, 0x0, 0x0, 0x0, 0x0, 0x0⟩,
  ⟨0x1044, 0x0, 1, 0x0, 0x0, 0x0, 0x0, 0x0⟩,
  ⟨0x1048, 0x0, 1, 0x0, 0x0, 0x0, 0x0, 0x0⟩,
  ⟨0x1050, 0x0, 1, 0x103, 0x0, 0x0, 0x0, 0x0⟩,
  ⟨0x1054, 0x0, 1, 0x0, 0x60000, 0x0, 0x0, 0x0⟩,
  ⟨0x1100, 0x0, 1, 0x0, 0x70000, 0x0, 0x0, 0x0⟩,
  ⟨0x1104, 0x0, 1, 0xFF, 0x0, 0x0, 0x0, 0x40⟩,
  ⟨0x1400, 0x4, 64, 0x7FFFFFFF, 0x0, 0x0, 0x0, 0x0⟩,
  ⟨0x1600, 0x4, 64, 0x0, 0x0, 0x0, 0x0, 0x0⟩,
  ⟨0x1700, 0x0, 1, 0x0, 0x10000, 0x0, 0x0, 0x0⟩,
  ⟨0x1800, 0x0, 1, 0xFF, 0x0, 0x0, 0x0, 0x0⟩,
  ⟨0x1804, 0x0, 1, 0x0, 0x0, 0x0, 0x0, 0x0⟩,
  ⟨0x1808, 0x0, 1, 0x0, 0x0, 0x0, 0x0, 0x0⟩,
  ⟨0x180C, 0x0, 1, 0x0, 0x0, 0x0, 0x0, 0x0⟩,
  ⟨0x1810, 0x4, 4, 0x0, 0x0, 0x0, 0x0, 0x0⟩,
  ⟨0x1820, 0x0, 1, 0x0, 0xFFFFFFFF, 0x0, 0x0, 0x0⟩,
  ⟨0x1824, 0x0, 1, 0x0, 0xFFFFFFFF, 0x0, 0x0, 0x0⟩,
  ⟨0x10000, 0x100, 64, 0xFFFFFFFF, 0x0, 0x0, 0x0, 0x0⟩,
  ⟨0x10004, 0x100, 64, 0xFFFFFFFF, 0x0, 0x0, 0x0, 0x0⟩,
  ⟨0x10008, 0x100, 64, 0xFFFFFFFF, 0x0, 0x0, 0x0, 0x0⟩,
  ⟨0x1000C, 0x100, 64, 0xFFFFFFFF, 0x0, 0x0, 0x0, 0x0⟩,
  ⟨0x10010, 0x100, 64, 0xFFFFFFFF, 0x0, 0x0, 0x0, 0x0⟩]
/-- Part 3 of the register map, in ascending order of the spec's Table 14.7. -/
def regRows2 : List RegRow := [
  ⟨0x10014, 0x100, 64, 0xFFFFFFFF, 0x0, 0x0, 0x0, 0x0⟩,
  ⟨0x10018, 0x100, 64, 0xFFFFFFFF, 0x0, 0x0, 0x0, 0x0⟩,
  ⟨0x1001C, 0x100, 64, 0xFFFFFFFF, 0x0, 0x0, 0x0, 0x0⟩,
  ⟨0x10020, 0x100, 64, 0x73F1F, 0x0, 0x0, 0x0, 0x10006⟩,
  ⟨0x10024, 0x100, 64, 0xFFFF, 0x0, 0x0, 0x0, 0x40⟩,
  ⟨0x10028, 0x100, 64, 0x1, 0x0, 0x0, 0x0, 0x0⟩,
  ⟨0x1002C, 0x100, 64, 0x0, 0x30000, 0x0, 0x0, 0x0⟩,
  ⟨0x10030, 0x100, 64, 0xFFFFFFFF, 0x0, 0x0, 0x0, 0x0⟩,
  ⟨0x10034, 0x100, 64, 0xFFFFFFFF, 0x0, 0x0, 0x0, 0x0⟩,
  ⟨0x10038, 0x100, 64, 0x0, 0x0, 0x0, 0x0, 0x0⟩,
  ⟨0x1003C, 0x100, 64, 0x0, 0x0, 0x0, 0x0, 0x0⟩,
  ⟨0x10040, 0x100, 64, 0x0, 0x0, 0x0, 0x0, 0x0⟩,
  ⟨0x10044, 0x100, 64, 0x0, 0x0, 0x0, 0x0, 0x0⟩,
  ⟨0x10048, 0x100, 64, 0x0, 0x0, 0x0, 0x0, 0x0⟩,
  ⟨0x1004C, 0x100, 64, 0x0, 0x0, 0x0, 0x0, 0x0⟩,
  ⟨0x18000, 0x8, 256, 0xFFFFFFFF, 0x0, 0x0, 0x0, 0x0⟩,
  ⟨0x18004, 0x8, 256, 0x13F, 0x0, 0x0, 0x0, 0x0⟩,
  ⟨0x1C000, 0x0, 1, 0x0, 0xFFFFFFFF, 0x0, 0x0, 0x0⟩,
  ⟨0x1C004, 0x0, 1, 0x0, 0xFFFFFFFF, 0x0, 0x0, 0x0⟩,
  ⟨0x1C008, 0x0, 1, 0xFFFFFFFF, 0x0, 0x0, 0x0, 0x0⟩,
  ⟨0x1C00C, 0x0, 1, 0xFFFFFFFF, 0x0, 0x0, 0x0, 0x0⟩,
  ⟨0x20000, 0x0, 1, 0xFF0F33, 0x0, 0x0, 0x0, 0x400A20⟩,
  ⟨0x20004, 0x0, 1, 0x0, 0x0, 0x0, 0x0, 0x400A20⟩,
  ⟨0x20008, 0x0, 1, 0x3F, 0x0, 0x0, 0x0, 0x2020⟩]
/-- Part 4 of the register map, in ascending order of the spec's Table 14.7. -/
def regRows3 : List RegRow := [
  ⟨0x2000C, 0x0, 1, 0xFFFF, 0x0, 0x0, 0x0, 0x0⟩,
  ⟨0x20010, 0x0, 1, 0x0, 0x1F, 0x0, 0x0, 0x0⟩,
  ⟨0x20014, 0x0, 1, 0x0, 0x0, 0x0, 0x0, 0x0⟩,
  ⟨0x20020, 0x0, 1, 0x0, 0x0, 0x0, 0x0, 0x0⟩,
  ⟨0x20024, 0x0, 1, 0x0, 0x0, 0x0, 0x0, 0x0⟩,
  ⟨0x20028, 0x0, 1, 0x0, 0x0, 0x0, 0x0, 0x0⟩,
  ⟨0x2002C, 0x0, 1, 0x0, 0x0, 0x0, 0x0, 0x0⟩,
  ⟨0x20030, 0x0, 1, 0x0, 0x0, 0x0, 0x0, 0x0⟩,
  ⟨0x20040, 0x0, 1, 0x0, 0x0, 0x0, 0x0, 0x0⟩,
  ⟨0x20044, 0x0, 1, 0x0, 0x0, 0x0, 0x0, 0x0⟩,
  ⟨0x20048, 0x0, 1, 0x0, 0x0, 0x0, 0x0, 0x0⟩,
  ⟨0x2004C, 0x0, 1, 0x0, 0x0, 0x0, 0x0, 0x0⟩,
  ⟨0x20060, 0x0, 1, 0x3FFF, 0x0, 0x0, 0x0, 0x0⟩,
  ⟨0x20064, 0x0, 1, 0x0, 0x0, 0x0, 0x0, 0x0⟩,
  ⟨0x30000, 0x0, 1, 0xFF00, 0x0, 0x0, 0x0, 0x800⟩,
  ⟨0x30004, 0x0, 1, 0x0, 0x0, 0x0, 0x0, 0x0⟩,
  ⟨0x30008, 0x0, 1, 0x0, 0x0, 0x0, 0x0, 0x0⟩,
  ⟨0x30010, 0x0, 1, 0x0, 0x0, 0x0, 0x0, 0x0⟩,
  ⟨0x30014, 0x0, 1, 0x0, 0x0, 0x0, 0x0, 0x0⟩,
  ⟨0x30018, 0x0, 1, 0x0, 0x0, 0x0, 0x0, 0x0⟩,
  ⟨0x3001C, 0x0, 1, 0x0, 0x0, 0x0, 0x0, 0x0⟩,
  ⟨0x30020, 0x0, 1, 0x0, 0x0, 0x0, 0x0, 0x0⟩,
  ⟨0x30024, 0x0, 1, 0x0, 0x0, 0x0, 0x0, 0x0⟩,
  ⟨0x30100, 0x10, 16, 0x0, 0x0, 0x0, 0x0, 0x0⟩]
/-- Part 5 of the register map, in ascending order of the spec's Table 14.7. -/
def regRows4 : List RegRow := [
  ⟨0x30104, 0x10, 16, 0x0, 0x0, 0x0, 0x0, 0x0⟩,
  ⟨0x30108, 0x10, 16, 0x0, 0x0, 0x0, 0x0, 0x0⟩,
  ⟨0x30200, 0x0, 1, 0xF003F, 0x0, 0x0, 0x0, 0x0⟩,
  ⟨0x30204, 0x0, 1, 0x0, 0x0, 0x0, 0x0, 0x0⟩,
  ⟨0x30208, 0x0, 1, 0x0, 0x0, 0x0, 0x0, 0x0⟩,
  ⟨0x3020C, 0x0, 1, 0x0, 0x0, 0x0, 0x0, 0x0⟩,
  ⟨0x30300, 0x0, 1, 0x0, 0x0, 0x0, 0xFF0F0301, 0x0⟩,
  ⟨0x30304, 0x0, 1, 0x0, 0x2, 0x0, 0x0, 0x0⟩,
  ⟨0x30308, 0x0, 1, 0x0, 0x0, 0x0, 0x0, 0x0⟩,
  ⟨0x3030C, 0x0, 1, 0x0, 0x0, 0x0, 0x0, 0x0⟩,
  ⟨0x30310, 0x0, 1, 0x0, 0x0, 0x0, 0x0, 0x0⟩,
  ⟨0x30340, 0x8, 16, 0xBF033FFF, 0x0, 0x0, 0x0, 0x0⟩,
  ⟨0x30344, 0x8, 16, 0x3F3FFF, 0x0, 0x0, 0x0, 0x0⟩,
  ⟨0x40000, 0x0, 1, 0xFFFFFFFF, 0x0, 0x0, 0x0, 0x10000400⟩,
  ⟨0x40004, 0x0, 1, 0xFFFFFFFF, 0x0, 0x0, 0x0, 0x10000100⟩,
  ⟨0x40008, 0x0, 1, 0xFFFF, 0x0, 0x0, 0x0, 0x40⟩,
  ⟨0x4000C, 0x0, 1, 0x0, 0x0, 0x0, 0x0, 0x0⟩,
  ⟨0x40010, 0x0, 1, 0x3F3F30, 0x40000000, 0x0, 0x0, 0x100000⟩,
  ⟨0x40014, 0x0, 1, 0xFFFFFFFF, 0x0, 0x0, 0x0, 0x0⟩,
  ⟨0x40018, 0x0, 1, 0xFFFFFFFF, 0x0, 0x0, 0x0, 0x0⟩,
  ⟨0x4001C, 0x0, 1, 0x0, 0x0, 0x0, 0x0, 0x0⟩,
  ⟨0x40040, 0x0, 1, 0x0, 0x0, 0x0, 0x0, 0x0⟩,
  ⟨0x40044, 0x0, 1, 0x0, 0x0, 0x0, 0x0, 0x0⟩,
  ⟨0x40048, 0x0, 1, 0x0, 0x0, 0x0, 0x0, 0x0⟩]
/-- Part 6 of the register map, in ascending order of the spec's Table 14.7. -/
def regRows5 : List RegRow := [
  ⟨0x4004C, 0x0, 1, 0x0, 0x0, 0x0, 0x0, 0x0⟩,
  ⟨0x40050, 0x0, 1, 0x0, 0x0, 0x0, 0x0, 0x0⟩,
  ⟨0x40054, 0x0, 1, 0x0, 0x0, 0x0, 0x0, 0x0⟩,
  ⟨0x40058, 0x0, 1, 0x0, 0x0, 0x0, 0x0, 0x0⟩,
  ⟨0x4005C, 0x0, 1, 0x0, 0x0, 0x0, 0x0, 0x0⟩,
  ⟨0x40060, 0x0, 1, 0x0, 0x0, 0x0, 0x0, 0x0⟩,
  ⟨0x40064, 0x0, 1, 0x0, 0x0, 0x0, 0x0, 0x0⟩,
  ⟨0x40068, 0x0, 1, 0x0, 0x0, 0x0, 0x0, 0x0⟩,
  ⟨0x4006C, 0x0, 1, 0x0, 0x0, 0x0, 0x0, 0x0⟩,
  ⟨0x40080, 0x0, 1, 0x0, 0x0, 0x0, 0x0, 0x0⟩,
  ⟨0x50000, 0x100, 64, 0xF300, 0x0, 0x0, 0x0, 0x0⟩,
  ⟨0x50004, 0x100, 64, 0x0, 0x0, 0x0, 0x0, 0x0⟩,
  ⟨0x50008, 0x100, 64, 0x0, 0x0, 0x0, 0x0, 0x0⟩,
  ⟨0x5000C, 0x100, 64, 0x0, 0x0, 0x0, 0x0, 0x0⟩,
  ⟨0x50010, 0x100, 64, 0x0, 0x0, 0x0, 0x0, 0x0⟩,
  ⟨0x50014, 0x100, 64, 0x0, 0x0, 0x0, 0x0, 0x0⟩,
  ⟨0x5F000, 0x0, 1, 0x7FF0031, 0x0, 0x0, 0x0, 0x1000000⟩,
  ⟨0x5F004, 0x0, 1, 0x0, 0x0, 0x0, 0x0, 0x1000000⟩,
  ⟨0x5F008, 0x0, 1, 0x0, 0x1, 0x0, 0x0, 0x10000⟩,
  ⟨0x5F010, 0x0, 1, 0xFFFFFFFF, 0x0, 0x0, 0x0, 0x10101010⟩,
  ⟨0x5F014, 0x0, 1, 0xFFFFFFFF, 0x0, 0x0, 0x0, 0x10101010⟩,
  ⟨0x5F018, 0x0, 1, 0xFFFFFFFF, 0x0, 0x0, 0x0, 0x8202010⟩,
  ⟨0x5F01C, 0x0, 1, 0xFFFFFFFF, 0x0, 0x0, 0x0, 0x10101010⟩,
  ⟨0x5F020, 0x0, 1, 0xFFFFFFFF, 0x0, 0x0, 0x0, 0x18181818⟩]
/-- Part 7 of the register map, in ascending order of the spec's Table 14.7. -/
def regRows6 : List RegRow := [
  ⟨0x5F024, 0x0, 1, 0xFFFFFFFF, 0x0, 0x0, 0x0, 0x10201008⟩,
  ⟨0x5F028, 0x0, 1, 0xFFFFFFFF, 0x0, 0x0, 0x0, 0x10101008⟩,
  ⟨0x5F030, 0x0, 1, 0x0, 0x0, 0x0, 0x0, 0x10101010⟩,
  ⟨0x5F034, 0x0, 1, 0x0, 0x0, 0x0, 0x0, 0x10101010⟩,
  ⟨0x5F038, 0x0, 1, 0x0, 0x0, 0x0, 0x0, 0x8202010⟩,
  ⟨0x5F03C, 0x0, 1, 0x0, 0x0, 0x0, 0x0, 0x10101010⟩,
  ⟨0x5F040, 0x0, 1, 0x0, 0x0, 0x0, 0x0, 0x18181818⟩,
  ⟨0x5F044, 0x0, 1, 0x0, 0x0, 0x0, 0x0, 0x10201008⟩,
  ⟨0x5F048, 0x0, 1, 0x0, 0x0, 0x0, 0x0, 0x10101008⟩,
  ⟨0x5F100, 0x0, 1, 0xF307, 0x0, 0x0, 0x0, 0x0⟩,
  ⟨0x5F104, 0x0, 1, 0x0, 0x0, 0x0, 0x0, 0x0⟩,
  ⟨0x5F108, 0x0, 1, 0x0, 0x0, 0x0, 0x0, 0x0⟩,
  ⟨0x5F10C, 0x0, 1, 0x0, 0x0, 0x0, 0x0, 0x0⟩,
  ⟨0x5F110, 0x0, 1, 0x0, 0x0, 0x0, 0x0, 0x0⟩,
  ⟨0x5F114, 0x0, 1, 0x0, 0x0, 0x0, 0x0, 0x0⟩,
  ⟨0x60000, 0x0, 1, 0xFF1F01, 0x0, 0x0, 0x0, 0x31101⟩,
  ⟨0x60004, 0x0, 1, 0x0, 0x0, 0x0, 0x0, 0x31101⟩,
  ⟨0x60008, 0x0, 1, 0x0, 0x0, 0x0, 0x0, 0x0⟩,
  ⟨0x6000C, 0x0, 1, 0x0, 0x7FF, 0x0, 0x0, 0x0⟩,
  ⟨0x60010, 0x0, 1, 0x7FF, 0x0, 0x0, 0x0, 0x0⟩,
  ⟨0x60020, 0x0, 1, 0xFFFFFFFF, 0x0, 0x0, 0x0, 0x0⟩,
  ⟨0x60024, 0x0, 1, 0xFFFFFFFF, 0x0, 0x0, 0x0, 0x0⟩,
  ⟨0x60028, 0x0, 1, 0x0, 0x0, 0x0, 0x0, 0x0⟩,
  ⟨0x6002C, 0x0, 1, 0x0, 0x0, 0x0, 0x0, 0x0⟩]
/-- Part 8 of the register map, in ascending order of the spec's Table 14.7. -/
def regRows7 : List RegRow := [
  ⟨0x60040, 0x0, 1, 0x0, 0x0, 0x0, 0x0, 0x0⟩,
  ⟨0x60044, 0x0, 1, 0x0, 0x0, 0x0, 0x0, 0x0⟩,
  ⟨0x60048, 0x0, 1, 0x0, 0x0, 0x0, 0x0, 0x0⟩,
  ⟨0x6004C, 0x0, 1, 0x0, 0x0, 0x0, 0x0, 0x0⟩,
  ⟨0x60050, 0x0, 1, 0x0, 0x0, 0x0, 0x0, 0x0⟩,
  ⟨0x60060, 0x0, 1, 0x3FFF, 0x0, 0x0, 0x0, 0x0⟩,
  ⟨0x60064, 0x0, 1, 0x0, 0x0, 0x0, 0x0, 0x0⟩,
  ⟨0x60070, 0x0, 1, 0x0, 0x0, 0x0, 0x0, 0x0⟩,
  ⟨0x60074, 0x0, 1, 0x0, 0x0, 0x0, 0x0, 0x0⟩,
  ⟨0x60078, 0x0, 1, 0x0, 0x100, 0x0, 0x0, 0x0⟩,
  ⟨0x60100, 0x0, 1, 0x0, 0x0, 0x0, 0x333, 0x0⟩,
  ⟨0x60104, 0x0, 1, 0x0, 0x1, 0x0, 0x0, 0x0⟩,
  ⟨0x60108, 0x0, 1, 0x0, 0x0, 0x0, 0x0, 0x0⟩,
  ⟨0x6010C, 0x0, 1, 0xFFFF, 0x0, 0x0, 0x0, 0x40⟩,
  ⟨0x60110, 0x0, 1, 0x0, 0x0, 0x0, 0x0, 0x0⟩,
  ⟨0x60114, 0x0, 1, 0x0, 0x0, 0x0, 0x0, 0x0⟩,
  ⟨0x60118, 0x0, 1, 0x0, 0x0, 0x0, 0x0, 0x0⟩,
  ⟨0x60120, 0x0, 1, 0x0, 0x0, 0x0, 0x0, 0x0⟩,
  ⟨0x60124, 0x0, 1, 0x0, 0x0, 0x0, 0x0, 0x0⟩,
  ⟨0x60128, 0x0, 1, 0x0, 0x0, 0x0, 0x0, 0x0⟩,
  ⟨0x6012C, 0x0, 1, 0x0, 0x0, 0x0, 0x0, 0x0⟩,
  ⟨0x60130, 0x0, 1, 0x0, 0x0, 0x0, 0x0, 0x0⟩,
  ⟨0x60134, 0x0, 1, 0x0, 0x0, 0x0, 0x0, 0x0⟩,
  ⟨0x70000, 0x0, 1, 0xFFFFFFF, 0x0, 0x0, 0x0, 0x8880A10⟩]
/-- Part 9 of the register map, in ascending order of the spec's Table 14.7. -/
def regRows8 : List RegRow := [
  ⟨0x70004, 0x0, 1, 0xFFFFFFF3, 0x0, 0x0, 0x0, 0x0⟩,
  ⟨0x70008, 0x0, 1, 0xFFFFFFFF, 0x0, 0x0, 0x0, 0x2004004⟩,
  ⟨0x7000C, 0x0, 1, 0xFFFF0000, 0x0, 0x0, 0x0, 0x10000000⟩,
  ⟨0x70010, 0x0, 1, 0x0, 0x0, 0x0, 0x0, 0x4B00800⟩,
  ⟨0x70014, 0x0, 1, 0x0, 0x0, 0x0, 0x0, 0x0⟩,
  ⟨0x70018, 0x0, 1, 0x0, 0x0, 0x0, 0x0, 0x80000⟩,
  ⟨0x7001C, 0x0, 1, 0x0, 0x3FF, 0x0, 0x0, 0x0⟩,
  ⟨0x70020, 0x0, 1, 0x3FF, 0x0, 0x0, 0x0, 0x0⟩,
  ⟨0x70024, 0x0, 1, 0x0, 0x0, 0x0, 0x0, 0x0⟩,
  ⟨0x70028, 0x0, 1, 0x0, 0x0, 0x0, 0x0, 0x0⟩,
  ⟨0x7002C, 0x0, 1, 0x0, 0x0, 0x0, 0x0, 0x0⟩,
  ⟨0x70030, 0x0, 1, 0x0, 0x0, 0x0, 0x0, 0x0⟩,
  ⟨0x70034, 0x0, 1, 0x0, 0x0, 0x0, 0x0, 0x0⟩,
  ⟨0x70038, 0x0, 1, 0x0, 0x0, 0x0, 0x0, 0x0⟩,
  ⟨0x7003C, 0x0, 1, 0x0, 0x0, 0x0, 0x0, 0x0⟩,
  ⟨0x70040, 0x4, 16, 0x8000FFFF, 0x0, 0x0, 0x0, 0x0⟩,
  ⟨0x70080, 0x4, 8, 0xFFFFFFFF, 0x0, 0x0, 0x0, 0x0⟩,
  ⟨0x70100, 0x4, 16, 0x7FF01FF, 0x0, 0x0, 0x0, 0x4B00096⟩,
  ⟨0x70140, 0x4, 16, 0x0, 0x0, 0x0, 0x0, 0x0⟩,
  ⟨0x70200, 0x8, 16, 0x0, 0x0, 0x0, 0x0, 0x0⟩,
  ⟨0x70204, 0x8, 16, 0x0, 0x0, 0x0, 0x0, 0x0⟩,
  ⟨0x70280, 0x0, 1, 0x0, 0x0, 0x0, 0x0, 0x0⟩,
  ⟨0x70284, 0x0, 1, 0x0, 0x0, 0x0, 0x0, 0x0⟩,
  ⟨0x70288, 0x0, 1, 0x0, 0x0, 0x0, 0x0, 0x0⟩]
/-- Part 10 of the register map, in ascending order of the spec's Table 14.7. -/
def regRows9 : List RegRow := [
  ⟨0x7028C, 0x0, 1, 0x0, 0x0, 0x0, 0x0, 0x0⟩,
  ⟨0x70300, 0x0, 1, 0xFFFF, 0x0, 0x0, 0x0, 0x60⟩,
  ⟨0x70304, 0x0, 1, 0xFFFF, 0x0, 0x0, 0x0, 0x60⟩,
  ⟨0x70308, 0x0, 1, 0xFFFF, 0x0, 0x0, 0x0, 0x18⟩,
  ⟨0x7030C, 0x0, 1, 0xFFFF, 0x0, 0x0, 0x0, 0x20⟩,
  ⟨0x70310, 0x0, 1, 0xFFFF, 0x0, 0x0, 0x0, 0x820⟩,
  ⟨0x70314, 0x0, 1, 0xFFFF, 0x0, 0x0, 0x0, 0x208⟩,
  ⟨0x70318, 0x0, 1, 0xFFFF, 0x0, 0x0, 0x0, 0x6⟩,
  ⟨0x7031C, 0x0, 1, 0xFFFF, 0x0, 0x0, 0x0, 0xF0⟩,
  ⟨0x70320, 0x0, 1, 0xFFFF, 0x0, 0x0, 0x0, 0x460⟩,
  ⟨0x70324, 0x0, 1, 0xFFFF, 0x0, 0x0, 0x0, 0xA0⟩,
  ⟨0x70380, 0x0, 1, 0x0, 0x0, 0x0, 0x0, 0x60⟩,
  ⟨0x70384, 0x0, 1, 0x0, 0x0, 0x0, 0x0, 0x60⟩,
  ⟨0x70388, 0x0, 1, 0x0, 0x0, 0x0, 0x0, 0x18⟩,
  ⟨0x7038C, 0x0, 1, 0x0, 0x0, 0x0, 0x0, 0x20⟩,
  ⟨0x70390, 0x0, 1, 0x0, 0x0, 0x0, 0x0, 0x820⟩,
  ⟨0x70394, 0x0, 1, 0x0, 0x0, 0x0, 0x0, 0x208⟩,
  ⟨0x70398, 0x0, 1, 0x0, 0x0, 0x0, 0x0, 0x6⟩,
  ⟨0x7039C, 0x0, 1, 0x0, 0x0, 0x0, 0x0, 0xF0⟩,
  ⟨0x703A0, 0x0, 1, 0x0, 0x0, 0x0, 0x0, 0x460⟩,
  ⟨0x703A4, 0x0, 1, 0x0, 0x0, 0x0, 0x0, 0xA0⟩,
  ⟨0x70328, 0x0, 1, 0xFFFF, 0x0, 0x0, 0x0, 0x12C⟩,
  ⟨0x703A8, 0x0, 1, 0x0, 0x0, 0x0, 0x0, 0x12C⟩,
  ⟨0x7032C, 0x0, 1, 0xFFFF, 0x0, 0x0, 0x0, 0x3E8⟩]
/-- Part 11 of the register map, in ascending order of the spec's Table 14.7. -/
def regRows10 : List RegRow := [
  ⟨0x703AC, 0x0, 1, 0x0, 0x0, 0x0, 0x0, 0x3E8⟩,
  ⟨0x70330, 0x0, 1, 0xFFFF, 0x0, 0x0, 0x0, 0x797⟩,
  ⟨0x703B0, 0x0, 1, 0x0, 0x0, 0x0, 0x0, 0x797⟩,
  ⟨0x70400, 0x8, 10, 0x0, 0x0, 0x0, 0x0, 0x0⟩,
  ⟨0x70404, 0x8, 10, 0x0, 0x0, 0x0, 0x0, 0x0⟩,
  ⟨0x70450, 0x0, 1, 0x0, 0x0, 0x0, 0x0, 0x0⟩,
  ⟨0x70460, 0x0, 1, 0x0, 0x0, 0x0, 0x0, 0x0⟩,
  ⟨0x80000, 0x10, 16, 0xFFFFFFFF, 0x0, 0x0, 0x0, 0x0⟩,
  ⟨0x80004, 0x10, 16, 0x0, 0x1E, 0x0, 0x0, 0x0⟩,
  ⟨0x80008, 0x10, 16, 0xFFFF, 0x0, 0x0, 0x0, 0x0⟩,
  ⟨0x8000C, 0x10, 16, 0x0, 0x0, 0x0, 0x8000FFFF, 0x0⟩,
  ⟨0x80100, 0x0, 1, 0x0, 0x0, 0x1, 0x0, 0x0⟩,
  ⟨0x80104, 0x0, 1, 0xFFFF, 0x0, 0x0, 0x0, 0x1000⟩,
  ⟨0x80108, 0x0, 1, 0x0, 0x80000000, 0x0, 0x0, 0x0⟩,
  ⟨0x80110, 0x0, 1, 0x0, 0xFFFFFFFF, 0x0, 0x0, 0x0⟩,
  ⟨0x80114, 0x0, 1, 0xFFFFFFFF, 0x0, 0x0, 0x0, 0x0⟩,
  ⟨0x80118, 0x0, 1, 0x0, 0x0, 0x0, 0x0, 0x0⟩,
  ⟨0x8011C, 0x0, 1, 0x0, 0x80000000, 0x0, 0x0, 0x0⟩,
  ⟨0x90000, 0x0, 1, 0xFFFF0100, 0x0, 0x0, 0x0, 0x4000100⟩,
  ⟨0x90004, 0x0, 1, 0x0, 0x0, 0x0, 0x0, 0x0⟩,
  ⟨0x90008, 0x0, 1, 0x0, 0x0, 0x0, 0x0, 0x0⟩,
  ⟨0x9000C, 0x0, 1, 0x0, 0x0, 0x0, 0x0, 0x0⟩,
  ⟨0x90010, 0x0, 1, 0x0, 0x1, 0x0, 0x0, 0x0⟩,
  ⟨0x90014, 0x0, 1, 0x0, 0x0, 0x0, 0x0, 0x0⟩]
/-- Part 12 of the register map, in ascending order of the spec's Table 14.7. -/
def regRows11 : List RegRow := [
  ⟨0x90018, 0x0, 1, 0x0, 0x0, 0x0, 0x0, 0x0⟩,
  ⟨0x90020, 0x4, 3, 0x0, 0x0, 0x0, 0x0, 0x0⟩,
  ⟨0x90040, 0x0, 1, 0x0, 0x0, 0x0, 0x0, 0x0⟩,
  ⟨0x90044, 0x0, 1, 0x0, 0x0, 0x0, 0x0, 0x0⟩,
  ⟨0x90048, 0x0, 1, 0x0, 0x0, 0x0, 0x0, 0x0⟩,
  ⟨0x90100, 0x4, 12, 0x0, 0x0, 0x0, 0x0, 0x0⟩,
  ⟨0x90140, 0x4, 12, 0x0, 0x0, 0x0, 0x0, 0x0⟩,
  ⟨0x90180, 0x4, 12, 0x0, 0x0, 0x0, 0x0, 0x0⟩,
  ⟨0xA0000, 0x400, 64, 0x0, 0x0, 0x0, 0x0, 0x0⟩,
  ⟨0xA0004, 0x400, 64, 0x0, 0x0, 0x0, 0x0, 0x0⟩,
  ⟨0xA0010, 0x400, 64, 0x0, 0x0, 0x0, 0x0, 0x0⟩,
  ⟨0xA0014, 0x400, 64, 0x0, 0x0, 0x0, 0x0, 0x0⟩,
  ⟨0xA0018, 0x400, 64, 0x0, 0x0, 0x0, 0x0, 0x0⟩,
  ⟨0xA0020, 0x400, 64, 0x0, 0x0, 0x0, 0x0, 0x0⟩,
  ⟨0xA0024, 0x400, 64, 0x0, 0x0, 0x0, 0x0, 0x0⟩,
  ⟨0xA0040, 0x400, 64, 0x0, 0x0, 0x0, 0x0, 0x0⟩,
  ⟨0xA0044, 0x400, 64, 0x3, 0x0, 0x0, 0x0, 0x0⟩,
  ⟨0xA0048, 0x400, 64, 0xFFFF, 0x0, 0x0, 0x0, 0x4010⟩,
  ⟨0xA0050, 0x400, 64, 0x0, 0x0, 0x0, 0x0, 0x0⟩,
  ⟨0xA0054, 0x400, 64, 0x0, 0x0, 0x0, 0x0, 0x0⟩,
  ⟨0xA0058, 0x400, 64, 0x0, 0x0, 0x0, 0x0, 0x0⟩,
  ⟨0xA005C, 0x400, 64, 0x0, 0x0, 0x0, 0x0, 0x0⟩,
  ⟨0xA0060, 0x400, 64, 0x0, 0x0, 0x0, 0x0, 0x0⟩,
  ⟨0xA0064, 0x400, 64, 0x0, 0x0, 0x0, 0x0, 0x0⟩]
/-- Part 13 of the register map, in ascending order of the spec's Table 14.7. -/
def regRows12 : List RegRow := [
  ⟨0xA0068, 0x400, 64, 0x0, 0x0, 0x0, 0x0, 0x0⟩,
  ⟨0xA006C, 0x400, 64, 0x0, 0x0, 0x0, 0x0, 0x0⟩,
  ⟨0xA0080, 0x400, 64, 0x0, 0x0, 0x0, 0x0, 0x0⟩,
  ⟨0xA0084, 0x400, 64, 0x0, 0x0, 0x0, 0x0, 0x0⟩,
  ⟨0xA0088, 0x400, 64, 0x0, 0x0, 0x0, 0x0, 0x0⟩,
  ⟨0xA008C, 0x400, 64, 0x0, 0x0, 0x0, 0x0, 0x0⟩,
  ⟨0xA0090, 0x400, 64, 0x0, 0x0, 0x0, 0x0, 0x0⟩,
  ⟨0xA0094, 0x400, 64, 0x0, 0x0, 0x0, 0x0, 0x0⟩,
  ⟨0xA00A0, 0x400, 64, 0x0, 0x0, 0x0, 0x0, 0x0⟩,
  ⟨0xA00A4, 0x400, 64, 0x0, 0x0, 0x0, 0x0, 0x0⟩,
  ⟨0xA00A8, 0x400, 64, 0x0, 0x0, 0x0, 0x0, 0x0⟩,
  ⟨0xA00AC, 0x400, 64, 0x0, 0x0, 0x0, 0x0, 0x0⟩,
  ⟨0xA00B0, 0x400, 64, 0x0, 0x0, 0x0, 0x0, 0x0⟩,
  ⟨0xA00B4, 0x400, 64, 0x0, 0x0, 0x0, 0x0, 0x0⟩,
  ⟨0xA00B8, 0x400, 64, 0x0, 0x0, 0x0, 0x0, 0x0⟩,
  ⟨0xA00BC, 0x400, 64, 0x0, 0x0, 0x0, 0x0, 0x0⟩,
  ⟨0xA00C0, 0x400, 64, 0x3F, 0x0, 0x0, 0x0, 0x0⟩,
  ⟨0xA00C4, 0x400, 64, 0x0, 0x0, 0x0, 0x0, 0x0⟩,
  ⟨0xA00D0, 0x400, 64, 0xF, 0x0, 0x0, 0x0, 0x0⟩,
  ⟨0xF0000, 0x0, 1, 0x1, 0x0, 0x100, 0x0, 0x0⟩,
  ⟨0xF0004, 0x0, 1, 0x0, 0x0, 0x0, 0x0, 0x0⟩,
  ⟨0xF0008, 0x0, 1, 0x0, 0x20000, 0x0, 0x0, 0x0⟩,
  ⟨0xF0010, 0x0, 1, 0x0, 0x0, 0x0, 0x0, 0x0⟩,
  ⟨0xF0014, 0x0, 1, 0x0, 0x0, 0x0, 0x0, 0x0⟩]

/-- The complete register map (Table 14.7, R432). -/
def regTable : List RegRow :=
  regRows0 ++ regRows1 ++ regRows2 ++ regRows3 ++ regRows4 ++ regRows5 ++ regRows6 ++ regRows7 ++ regRows8 ++ regRows9 ++ regRows10 ++ regRows11 ++ regRows12

/-- Does the row hold the register at this offset? -/
def RegRow.holds (r : RegRow) (off : Nat) : Bool :=
  r.base ≤ off && (if r.stride = 0 then off = r.base
    else (off - r.base) % r.stride = 0 && (off - r.base) / r.stride < r.count)

/-- The row of the register at an offset, none where Table 14.7 lists no register (R431). -/
def regRow? (off : Nat) : Option RegRow := regTable.find? (·.holds off)

/-- The reset value of the register at an offset; 0 where there is none (R431). -/
def regReset (off : Nat) : Word := match regRow? off with
  | some r => r.reset
  | none => 0

end Sys2Proof.Machine
end

