-- ==== Sys2Proof/WellFormed.lean ====
section
/-!
DEFINITION. Which commands a part can take: every index below the part's own bound (Table 0.2, Table 1.3, Table 9.1,
Table 14.3), every list of lanes or bytes of its channel's length. A command that fails these checks names nothing the
part has, and changes nothing (log entry 1).
-/
namespace Sys2Proof

/-- Banks of a slice: 32 mapped and 2 spare (Table 1.13). -/
def banksPerSlice : Nat := 34
/-- Rows of a bank: 2048 mapped and 32 spare (Tables 1.13, 1.14). -/
def rowsPerBank : Nat := 2080

/-- Slice of the part. -/
def sliceOk (p : Part) (n : Nat) : Bool := n < p.slices
/-- Descriptor ring (R121). -/
def ringOk (k : Nat) : Bool := k < 64
/-- Quoin link (R424). -/
def linkOk (l : Nat) : Bool := l < 3
/-- Error masks: at most one per word of a bank row. -/
def noiseOk (l : List Codeword) : Bool := l.length ≤ 16

/-- An arbiter of the part (Table 9.1). -/
def ArbId.wf (p : Part) : ArbId → Bool
  | .bank s b => sliceOk p s && b < banksPerSlice
  | .merge s => sliceOk p s
  | .channel m => m < p.channels
  | .inject l => l < 128 * p.slices
  | .mode => true

/-- A bank row of the part. -/
def RowErr.wf (p : Part) (e : RowErr) : Bool :=
  sliceOk p e.slice && e.bank < banksPerSlice && e.row < rowsPerBank &&
    noiseOk e.noise && noiseOk e.reread && noiseOk e.verify

/-- Can the part take the command? -/
def Instr.wf (p : Part) : Instr → Bool
  | .tick s _ => sliceOk p s
  | .subTick => true
  | .powerOnReset _ => true
  | .blkrstN _ => true
  | .blockReset _ _ => true
  | .funcRings _ => true
  | .funcTranslation _ => true
  | .funcMsq _ => true
  | .funcPower _ => true
  | .funcCounters _ => true
  | .zeroFillDone s => sliceOk p s
  | .trustDelivery bs => bs ≠ []
  | .capmBeat _ _ _ _ => true
  | .registerWrite off _ _ => off < 2 ^ 20 && off % 4 = 0
  | .tickLoRead s _ => sliceOk p s
  | .refTickLoRead _ => true
  | .cntGrantLoRead b s _ => b || sliceOk p s
  | .contractSelWrite _ _ => true
  | .modqTableWrite i _ _ => i < 64
  | .reserveMibWrite _ _ => true
  | .genCommit _ => true
  | .deferredGenerationCommit => true
  | .latchCntClear s _ => sliceOk p s
  | .ksCntClear _ => true
  | .xnCntClear _ => true
  | .mpCntClear _ => true
  | .arbCntClear s _ => sliceOk p s
  | .arbBcntClear _ => true
  | .intCntClear _ => true
  | .intSliceClear s _ => sliceOk p s
  | .accCntClear s _ => sliceOk p s
  | .portCntClear s _ => sliceOk p s
  | .pwrCntClear _ => true
  | .actCntClear _ => true
  | .svcCntClear _ => true
  | .errLogPop _ => true
  | .ringEnable k _ => ringOk k
  | .ringDisable k _ => ringOk k
  | .ringAbort k _ => ringOk k
  | .ringResume k e _ => ringOk k && e < 2 ^ 16
  | .ringAbandon k e _ => ringOk k && e < 2 ^ 16
  | .tokenValueWrite t _ _ => t < 256
  | .poll k => ringOk k
  | .backstopRead k => ringOk k
  | .descriptorFetch => true
  | .nop k => ringOk k
  | .tileOp k => ringOk k
  | .load k => ringOk k
  | .store k => ringOk k
  | .relayout k => ringOk k
  | .gather k => ringOk k
  | .scatter k => ringOk k
  | .scatterAdd k => ringOk k
  | .permute k => ringOk k
  | .keystream k => ringOk k
  | .reduce k => ringOk k
  | .fence k => ringOk k
  | .fenceTimeout k _ => ringOk k
  | .alloc k => ringOk k
  | .freeName k => ringOk k
  | .pin k => ringOk k
  | .imageLoad => true
  | .imageDrop => true
  | .keySchedule => true
  | .relayoutBulk => true
  | .defrag => true
  | .recalibrate => true
  | .recalNoMeas => true
  | .autoRecal => true
  | .serviceStart k => ringOk k
  | .dependencyRelease k => ringOk k
  | .freshSlotGrant => true
  | .commit k _ => ringOk k
  | .completionRecord k _ => ringOk k
  | .clearingDone s r q => sliceOk p s && r < 2048 && q < 4
  | .park k _ => ringOk k
  | .restart k _ => ringOk k
  | .translationResponse t _ => t < 32
  | .walkTimeout t => t < 32
  | .burstResponse m t code d => m < p.channels && t < 512 && code < 4 && d.length = 64
  | .burstTimeout m t => m < p.channels && t < 512
  | .atcInval _ _ => true
  | .watchAccept k => ringOk k
  | .watchRefuse k => ringOk k
  | .watchHit k => ringOk k
  | .watchLost k => ringOk k
  | .watchTimeout k => ringOk k
  | .prefetchDrop k _ => ringOk k
  | .keyOrphan k _ => ringOk k
  | .routeProgramFetch => true
  | .pass _ => true
  | .round a _ n r => a.wf p && noiseOk n && noiseOk r
  | .waveClose k _ => ringOk k
  | .operandBeat s => sliceOk p s
  | .resultBeat s _ l => sliceOk p s && l.length = 128
  | .ackTimeout s => sliceOk p s
  | .wTimeout s => sliceOk p s
  | .rollCall s => sliceOk p s
  | .rollCallWord s _ => sliceOk p s
  | .rollTimeout s => sliceOk p s
  | .presentLow s => sliceOk p s
  | .portReset s _ => sliceOk p s
  | .quiesceSet s _ => sliceOk p s
  | .quiesceClear s _ => sliceOk p s
  | .portFenceSet s _ => sliceOk p s
  | .portFenceClear s _ => sliceOk p s
  | .scrubVisit s n r v _ => sliceOk p s && noiseOk n && noiseOk r && noiseOk v
  | .bankCopyDone s b => sliceOk p s && b < banksPerSlice
  | .deadBank s b => sliceOk p s && b < banksPerSlice
  | .sliceFence _ _ _ => true
  | .sliceFenced s => sliceOk p s
  | .sliceUnfence _ _ _ => true
  | .review => true
  | .migrationCommit n => n < 16384
  | .join _ _ => true
  | .quoinAliasWrite a _ _ _ => a < 16
  | .joinWord l _ => linkOk l
  | .pairWord l _ _ => linkOk l
  | .aliasQuery l _ => linkOk l
  | .aliasAnswer l _ _ _ => linkOk l
  | .quoinData l _ ws => linkOk l && ws.length = 32 * p.slices
  | .ready l => linkOk l
  | .commitWord l => linkOk l
  | .quoinCommitAck l => linkOk l
  | .resend l => linkOk l
  | .ringWord l _ => linkOk l
  | .signature l _ _ _ _ _ => linkOk l
  | .outcome l _ _ _ _ => linkOk l
  | .halt l _ => linkOk l
  | .linkDown l => linkOk l
  | .linkHandshakeTimeout l => linkOk l
  | .pairCtlWrite _ _ => true
  | .pairRetry _ => true
  | .pairSolo _ => true
  | .peerSilent => true
  | .coolantFall => true
  | .coolantRise => true
  | .coolOk => true
  | .coolResume _ => true
  | .controlPeriod _ => true
  | .controlComputeDone => true
  | .latePeriod => true
  | .quiet => true
  | .dawnStep => true
  | .duskStep => true
  | .staggerHoldEnd => true
  | .rampMarginEnd => true
  | .vrqAck => true
  | .vreqSlow => true
  | .groupEnable _ _ => true
  | .groupDisable _ _ => true
  | .paceWordSend => true
  | .paceUp _ _ => true
  | .paceDown _ _ => true
  | .groupLeave _ _ => true
  | .childLost c => c < 16
  | .parentLost => true
  | .mbDataWrite c _ _ => c < 16
  | .mbAckWrite c _ _ => c < 16
  | .mbBindWrite c _ _ => c < 16
  | .mbLock _ => true
  | .mbTimeout c => c < 16
  | .dbRing _ _ => true
  | .dbRingRemote _ _ => true
  | .msqRestart _ => true
  | .watchdog => true
  | .pkeOutcome c => c < 8
  | .pkeTimeout => true
  | .reqEvening _ => true
  | .reqNight _ => true
  | .reqActive _ => true
  | .entryDrained => true
  | .wake => true
  | .wakeComplete f => f.all (·.wf p)
  | .seqEn _ _ => true
  | .testLock _ => true
  | .testStepPhases _ g => g.length < 2 ^ 16
  | .testStepTicks _ n => n < 2 ^ 16
  | .wsBypass => true
  | .wsExtest _ => true
  | .wsIntestRing _ => true
  | .wxRegacc _ => true
  | .wxStep dr g => dr.extractLsb' 16 2 ≠ 0 || g.length = (dr.extractLsb' 0 16).toNat
  | .wxSig => true
  | .keyFragmentGenerated s => sliceOk p s
  | .imageHashDone => true
  | .spareBankZeroFillDone s b => sliceOk p s && b < banksPerSlice
  | .resetInputAsserted _ => true
  | .supplyLoss => true
  | .pkeFurtherWaitEnd => true

end Sys2Proof
end

