-- ==== Sys2Proof/Machine/Ops.lean ====
section
/-!
DEFINITION. Named operations over the state: registers, slices, rings, names, slots, descriptors, counters, energy,
the error log, and how a descriptor's work is withdrawn and its status fixed.
-/
namespace Sys2Proof.Machine

/-- The outcome type of a command. -/
abbrev Res := Host.Outcome State Fault Refusal

/-- Does the block take a command: supplied, no reset running, and the command names parts it has (R389, R427)? -/
def State.takes (s : State) (i : Instr) : Bool :=
  !s.ctl.off && s.ctl.inReset.isNone && s.ctl.resetWait.isNone && i.wf s.ctl.part

/-- A command that changes only the control state. -/
def ctlStep (i : Instr) (s : State) (f : Ctl → Ctl) : Res :=
  .next (if s.takes i then { s with ctl := f s.ctl } else s)

/-- A command that also reads or writes the bank storage. -/
def fullStep (i : Instr) (s : State) (f : Ctl → Cells → Ctl × Cells) : Res :=
  .next (if s.takes i then { s with ctl := (f s.ctl s.cells).1, cells := (f s.ctl s.cells).2 } else s)

/-- Is a block reset under way: its input held, or issued bursts awaited (R389)? -/
def Ctl.resetting (c : Ctl) : Bool := c.inReset.isSome || c.resetWait.isSome

/-- A command that a block reset takes too: time, and the answers to bursts issued before it (R389 step 2). -/
def resetStep (i : Instr) (s : State) (f : Ctl → Ctl) : Res :=
  .next (if !s.ctl.off && s.ctl.inReset ≠ some true && i.wf s.ctl.part then { s with ctl := f s.ctl } else s)

/-! ### Registers -/

/-- Reset or constant value of a register, with the fields of Table 1.2 for the part (R47). -/
def regDefault (p : Part) (off : Nat) : Word :=
  if off = rSHAPE_CAP then setFld (regReset off) 16 7 (2 * p.slices - 1)
  else if off = rCAPACITY_CAP then setFld (regReset off) 0 16 (4 * p.slices)
  else if off = rSLICE_CAP then setFld (regReset off) 0 7 p.slices
  else if off = rFABRIC_CAP then
    setFld (setFld (setFld (regReset off) 0 4 p.channels) 8 8 p.slices) 16 8 p.stages
  else regReset off

/-- The stored value of a register. -/
def Ctl.reg (c : Ctl) (off : Nat) : Word := Tab.get (regDefault c.part off) c.regs off

/-- Store a register. -/
def Ctl.setReg (c : Ctl) (off : Nat) (v : Word) : Ctl := { c with regs := c.regs.set off v }

/-- A field of a stored register. -/
def Ctl.rf (c : Ctl) (off lo n : Nat) : Nat := fld (c.reg off) lo n

/-- Set a field of a stored register. -/
def Ctl.setRf (c : Ctl) (off lo n v : Nat) : Ctl := c.setReg off (setFld (c.reg off) lo n v)

/-- Set one bit of a stored register. -/
def Ctl.raise (c : Ctl) (off i : Nat) : Ctl := c.setReg off (c.reg off ||| (1#32 <<< i))

/-- Clear one bit of a stored register. -/
def Ctl.lower (c : Ctl) (off i : Nat) : Ctl := c.setReg off (c.reg off &&& ~~~(1#32 <<< i))

/-- Put a bit of a stored register. -/
def Ctl.putBit (c : Ctl) (off i : Nat) (b : Bool) : Ctl := if b then c.raise off i else c.lower off i

/-- Add to a counter field, saturating. -/
def Ctl.bump (c : Ctl) (off lo n k : Nat) : Ctl := c.setRf off lo n (satAdd n (c.rf off lo n) k)

/-- Add to a 32-bit counter register, saturating. -/
def Ctl.count (c : Ctl) (off k : Nat) : Ctl := c.bump off 0 32 k

/-- Set several registers to zero. -/
def Ctl.zeroRegs (c : Ctl) (offs : List Nat) : Ctl := offs.foldl (fun c o => c.setReg o 0) c

/-- A 64-bit value kept in a LO and HI pair. -/
def Ctl.reg64 (c : Ctl) (lo hi : Nat) : Nat := (c.reg lo).toNat + 2 ^ 32 * (c.reg hi).toNat

/-- Store a 64-bit value in a LO and HI pair. -/
def Ctl.setReg64 (c : Ctl) (lo hi v : Nat) : Ctl := (c.setReg lo (word v)).setReg hi (word (v / 2 ^ 32))

/-- Put a bit per slice in a LO and HI pair. -/
def Ctl.putMask (c : Ctl) (lo hi n : Nat) (b : Bool) : Ctl :=
  if n < 32 then c.putBit lo n b else c.putBit hi (n - 32) b

/-- A bit per slice of a LO and HI pair. -/
def Ctl.mask (c : Ctl) (lo hi n : Nat) : Bool := if n < 32 then bit (c.reg lo) n else bit (c.reg hi) (n - 32)

/-- A timeout field in which 0 acts as 1. -/
def Ctl.ticksOf (c : Ctl) (off lo n : Nat) : Nat := max 1 (c.rf off lo n)

/-- The reference tick at which a timeout of `n` ticks armed now ends: the (n + 1)-th boundary (R32). -/
def Ctl.after (c : Ctl) (n : Nat) : Nat := c.refTicks + n + 1

/-- Has a reference timeout ended? -/
def Ctl.due (c : Ctl) (d : Nat) : Bool := d ≤ c.refTicks

/-- Record what the block drives on a port (log entry 9). -/
def Ctl.emit (c : Ctl) (o : Out) : Ctl := { c with outbox := c.outbox ++ [o] }

/-! ### Parts of the state -/

/-- Slice n. -/
def Ctl.slice (c : Ctl) (n : Nat) : Slice := Tab.get Slice.reset c.slices n
/-- Change slice n. -/
def Ctl.modSlice (c : Ctl) (n : Nat) (f : Slice → Slice) : Ctl := { c with slices := c.slices.set n (f (c.slice n)) }
/-- The unit port of slice n. -/
def Ctl.port (c : Ctl) (n : Nat) : Port := (c.slice n).port
/-- Change the unit port of slice n. -/
def Ctl.modPort (c : Ctl) (n : Nat) (f : Port → Port) : Ctl := c.modSlice n fun s => { s with port := f s.port }
/-- Ring k. -/
def Ctl.ring (c : Ctl) (k : Nat) : Ring := Tab.get Ring.reset c.rings k
/-- Change ring k. -/
def Ctl.modRing (c : Ctl) (k : Nat) (f : Ring → Ring) : Ctl := { c with rings := c.rings.set k (f (c.ring k)) }
/-- Tile name n. -/
def Ctl.name (c : Ctl) (n : Nat) : NameRec := Tab.get NameRec.reset c.names n
/-- Change tile name n. -/
def Ctl.modName (c : Ctl) (n : Nat) (f : NameRec → NameRec) : Ctl := { c with names := c.names.set n (f (c.name n)) }
/-- Slot by key. -/
def Ctl.slot (c : Ctl) (k : Nat) : Slot := Tab.get Slot.reset c.slots k
/-- Change a slot. -/
def Ctl.modSlot (c : Ctl) (k : Nat) (f : Slot → Slot) : Ctl := { c with slots := c.slots.set k (f (c.slot k)) }
/-- Link l. -/
def Ctl.link (c : Ctl) (l : Nat) : Link := Tab.get Link.reset c.net.links l
/-- Change link l. -/
def Ctl.modLink (c : Ctl) (l : Nat) (f : Link → Link) : Ctl :=
  { c with net := { c.net with links := c.net.links.set l (f (c.link l)) } }
/-- Change the network. -/
def Ctl.modNet (c : Ctl) (f : Net → Net) : Ctl := { c with net := f c.net }
/-- Change the memory path. -/
def Ctl.modMem (c : Ctl) (f : Mem → Mem) : Ctl := { c with mem := f c.mem }
/-- Change power. -/
def Ctl.modPower (c : Ctl) (f : Power → Power) : Ctl := { c with power := f c.power }
/-- Change the group. -/
def Ctl.modGroup (c : Ctl) (f : Group → Group) : Ctl := { c with group := f c.group }
/-- Change the MSQ. -/
def Ctl.modMsq (c : Ctl) (f : Msq → Msq) : Ctl := { c with msq := f c.msq }
/-- Change integrity state. -/
def Ctl.modInteg (c : Ctl) (f : Integ → Integ) : Ctl := { c with integ := f c.integ }
/-- A descriptor. -/
def Ctl.desc? (c : Ctl) (k : Key) : Option Desc := c.descs.find? (·.key = k)
/-- Change a descriptor. -/
def Ctl.modDesc (c : Ctl) (k : Key) (f : Desc → Desc) : Ctl :=
  { c with descs := c.descs.map fun d => if d.key = k then f d else d }
/-- Raise a bank access. -/
def Ctl.addJobs (c : Ctl) (js : List Job) : Ctl := { c with jobs := c.jobs ++ js }
/-- Apply an operation for each element. -/
def Ctl.each {α : Type} (c : Ctl) (l : List α) (f : Ctl → α → Ctl) : Ctl := l.foldl f c

/-! ### Slices in service -/

/-- Slices of the part. -/
def Ctl.slicesN (c : Ctl) : Nat := c.part.slices
/-- Is slice n in service (R20)? -/
def Ctl.isIn (c : Ctl) (n : Nat) : Bool := c.inService.contains n
/-- The reference slice: the lowest in service (R31); 0 when none is (REF_SLICE's reset value). -/
def Ctl.refSlice (c : Ctl) : Nat := c.inService.foldl min (c.inService.headD 0)
/-- The present span P (R40): the largest power of two not above the slices in service, 0 with none. -/
def Ctl.presentSpan (c : Ctl) : Nat := if c.inService.isEmpty then 0 else 2 ^ Nat.log2 c.inService.length
/-- The lowest fold of a span (R40, R43); with no slice in service no list exists and the span stands. -/
def Ctl.foldFor (c : Ctl) (s : Nat) : Nat := if c.presentSpan = 0 then s else max 1 (s / c.presentSpan)
/-- Is deterministic mode in force (R312)? -/
def Ctl.det (c : Ctl) : Bool := bit (c.reg rINT_CTL_ACT) 0
/-- A field of KS_CTL_ACT, its reset value while EXPERT is 0 (R115). -/
def Ctl.ksCtl (c : Ctl) : Word :=
  if bit (c.reg rKS_CTL_ACT) 0 then c.reg rKS_CTL_ACT else regReset rKS_CTL_ACT
/-- Is FREEZE in force (R118)? -/
def Ctl.freeze (c : Ctl) : Bool := bit c.ksCtl 1

/-- The power state (Table 13.18): 0 ACTIVE, 1 and 3 entering, 2 EVENING, 4 NIGHT, 5 WAKING. -/
def Ctl.pstate (c : Ctl) : Nat := c.rf rPSTATE_STATUS 0 3
/-- May paced work and issue go on: not coolant-stopped, not gated (Table 11.3, Table 13.5)? -/
def Ctl.issuing (c : Ctl) : Bool := !c.power.stopped && c.pstate ∉ [2, 4, 5]
/-- Has step 5 of the entry to Night begun: watches disarmed, polling and scrubbing stopped (Table 13.6)? -/
def Ctl.toNight (c : Ctl) : Bool := c.pstate = 2 && c.rf rPSTATE_CTL 0 2 = 2
/-- May descriptors be fetched and admitted (Table 11.3 step 4, Table 13.6 step 1, R319)? -/
def Ctl.admitting (c : Ctl) : Bool :=
  !c.power.stopped && c.pstate = 0 && !bit (c.reg rPAIR_STATUS) 30

/-! ### Events and logs -/

/-- Add an entry to the error log; a full log drops it and flags it (R324, Table 10.7). -/
def Ctl.logEvent (c : Ctl) (e : LogEntry) : Ctl :=
  if c.integ.log.length < 16 then c.modInteg fun i => { i with log := i.log ++ [e] }
  else (c.raise rERR_LOG_CTL 8).raise rINT_EVT 10

/-- Poison a LIVE name; the record of its first lost word stays (R301). -/
def Ctl.poisonName (c : Ctl) (n slice bank row : Nat) : Ctl :=
  if !(c.name n).live || (c.name n).poison.isSome then c
  else ((c.modName n fun r => { r with poison := some (slice, bank, row) }).raise rINT_EVT 0).count rPOISON_EVENTS 1

/-- Poisoned names (R303). -/
def Ctl.poisoned (c : Ctl) : Nat := (c.names.filter fun p => p.2.live && p.2.poison.isSome).length

/-! ### Energy (R330 to R332) -/

/-- A quotient whose rounding the spec leaves open. -/
def openQuot (a b : Nat) : Nat := a / b + (if a % b ≠ 0 && Config.roundUp a b then 1 else 0)

/-- An active coefficient (Table 11.22). -/
def Ctl.coef (c : Ctl) (off : Nat) : Nat := c.rf off 0 16

/-- The active static energy, tick length or initial slope; 0 acts as 1 (Table 11.23). -/
def Ctl.coef1 (c : Ctl) (off : Nat) : Nat := max 1 (c.coef off)

/-- The cost of one event of class k in 1/64 pJ: c_k × (V_req / 750 mV)² (R331). -/
def Ctl.eventCost (c : Ctl) (k : Nat) : Nat :=
  openQuot (c.coef (rEC_ACT k) * 16 * c.power.vreq ^ 2) (750 ^ 2)

/-- Who pays for an event (R332). -/
inductive Account where
  | desc (k : Key)
  | background
  deriving DecidableEq, Repr

/-- The phase of a descriptor: word 0 bits 7 to 4 (Table 4.4). -/
def Desc.phaseOf (d : Desc) : Nat := fld (d.words.getD 0 0) 4 4

/-- Add to an energy account, in 1/64 pJ. -/
def Ctl.addAccount (c : Ctl) (a n : Nat) : Ctl :=
  c.modPower fun p => { p with accounts := p.accounts.set a (Tab.get 0 p.accounts a + n) }

/-- Count n events of class k and charge them (R330, R332). -/
def Ctl.charge (c : Ctl) (who : Account) (k n : Nat) : Ctl :=
  let e := n * c.eventCost k
  let c := c.modPower fun p =>
    { p with acts := p.acts.set k (satAdd 48 (Tab.get 0 p.acts k) n), win := { p.win with energy := p.win.energy + e } }
  match who with
  | .background => c.addAccount 16 e
  | .desc key => match c.desc? key with
    | none => c.addAccount 16 e
    | some d => (c.modDesc key fun d => { d with energy := d.energy + e }).addAccount d.phaseOf e

/-- Kind of a descriptor: word 0 bits 3 to 0 (Table 4.4). -/
def Desc.kind (d : Desc) : Nat := fld (d.words.getD 0 0) 0 4
/-- Word i of a descriptor. -/
def Desc.w (d : Desc) (i : Nat) : Word := d.words.getD i 0
/-- Has the descriptor completed: is its final status fixed (R139)? -/
def Desc.completed (d : Desc) : Bool := d.stage ∈ [.final, .record]
/-- Has it passed step 5, and not completed: is a memory write of it perhaps still unacknowledged (R139)? -/
def Desc.live5 (d : Desc) : Bool := d.admitted && !(d.completed && d.closed)

/-! ### Operating points -/

/-- OPP[p] as in force: the value at the last boundary (R327). -/
def Ctl.oppWord (c : Ctl) (p : Nat) : Word := word (c.power.opp.getD p (regReset (rOPP p)).toNat)
/-- Preferred pace of a point; below 64 acts as 64 (R326). -/
def oppPace (w : Word) : Nat := max 64 (fld w 16 11)
/-- Phase voltage of a point, mV (R326). -/
def oppVolt (w : Word) : Nat := 600 + min 300 (fld w 0 9)

/-- The active phases (R326). -/
def Ctl.activePhases (c : Ctl) : List Nat := ((c.descs.filter (·.live5)).map (·.phaseOf)).eraseDups

/-- The phases whose points apply: the active ones, or phase 0 (R326). -/
def Ctl.phases (c : Ctl) : List Nat := if c.activePhases.isEmpty then [0] else c.activePhases

/-- E_pref (R326). -/
def Ctl.ePref (c : Ctl) : Nat := (c.phases.map fun p => oppPace (c.oppWord p)).foldl max 0

/-- The trim in mV: 5 mV per step (R353). -/
def Ctl.trim (c : Ctl) : Nat := 5 * c.rf rCTRL_STATUS 16 4
/-- The ramp margin in mV (R343). -/
def Ctl.margin (c : Ctl) : Nat := if c.power.margin then c.rf rPWR_CTL 8 8 else 0

/-- V_req for a phase voltage (R327). -/
def Ctl.voltage (c : Ctl) (v : Nat) : Nat := min 900 (v + c.trim + c.margin)

/-- V_req of the active phases (R327); phase 0's point plus trim while coolant-stopped (Table 11.3 step 4). -/
def Ctl.voltageNow (c : Ctl) : Nat :=
  if c.power.stopped then min 900 (oppVolt (c.oppWord 0) + c.trim)
  else c.voltage ((c.phases.map fun p => oppVolt (c.oppWord p)).foldl max 0)

/-- Put V_req; a change is sent at once, or after the handshake that runs (R426), or on the wake from Night (R427). -/
def Ctl.putVreq (c : Ctl) (v : Nat) : Ctl :=
  if v = c.power.vreq then c
  else
    let c := c.modPower fun p => { p with vreq := v }
    if c.power.vbusy || c.pstate = 4 then c else (c.modPower fun p => { p with vsent := v, vbusy := true }).emit (.vrq (v - 600))

/-- Raise V_req where it lies above, never lower it (R327). -/
def Ctl.raiseVreq (c : Ctl) : Ctl := if c.power.vreq < c.voltageNow then c.putVreq c.voltageNow else c

/-- A descriptor passes step 5: V_req rises to its phase's point as written, and paced beats wait for VRQ_ACK (R327,
R426). -/
def Ctl.phaseRaise (c : Ctl) (phase : Nat) : Ctl :=
  let v := c.voltage (oppVolt (c.reg (rOPP phase)))
  if c.power.vreq < v then
    (c.putVreq v).modPower fun p => { p with vwait := some (c.after (c.ticksOf rBND_CFG 0 8)) }
  else c

/-- The margin begins, and with it V_req rises (R343). -/
def Ctl.startMargin (c : Ctl) : Ctl := (c.modPower fun p => { p with margin := true, marginEnd := none }).raiseVreq

/-! ### Token buckets (R26, R27) -/

/-- Bucket of a paced stream: operand beats of port n, result beats of port n, network passes, channel, key lane. -/
inductive Stream where
  | operand (n : Nat)
  | result (n : Nat)
  | network
  | channel (m : Nat)
  | lane (n : Nat)
  deriving DecidableEq, Repr

/-- The bucket number of a stream. -/
def Stream.bucket : Stream → Nat
  | .operand n => n | .result n => 64 + n | .network => 128 | .channel m => 129 + m | .lane n => 137 + n

/-- Tokens in a stream's bucket, in sixteenths. -/
def Ctl.tokens (c : Ctl) (st : Stream) : Nat := Tab.get 0 c.buckets st.bucket

/-- The beats that a stream has begun in the present frame of 16 monitor beats (R340). -/
def Power.inFrame (p : Power) (st : Stream) : Nat :=
  match p.gateSeen.find? (·.1 = st.bucket) with
  | some e => if e.2.1 = p.mon / 16 then e.2.2 else 0
  | none => 0

/-- Does the ramp gate let a stream begin a beat: at level g fewer than g beats of the frame have begun, and the k-th begins
no earlier than monitor beat ⌊16·k / g⌋ of the frame; level 16 sets no limit and level 0 admits nothing (R340)? -/
def Power.gateOpen (p : Power) (st : Stream) : Bool :=
  16 ≤ p.gate || (decide (p.inFrame st < p.gate) && decide (16 * p.inFrame st / p.gate ≤ p.mon % 16))

/-- Do the pacer, the gate and the voltage request let a beat of the stream begin: unpaced, or a whole token (R26, R340, R426)? -/
def Ctl.beatOpen (c : Ctl) (st : Stream) : Bool :=
  c.power.gateOpen st && c.power.vwait.isNone && (c.power.pace = 2047 || 16 ≤ c.tokens st)

/-- May a paced beat of the stream begin, issue not being stopped? -/
def Ctl.mayBeat (c : Ctl) (st : Stream) : Bool := c.issuing && c.beatOpen st

/-- May ring traffic go out while the block wakes: paced as ever (Table 13.5, R27)? -/
def Ctl.wakeBeat (c : Ctl) (st : Stream) : Bool := c.pstate = 5 && !c.power.stopped && c.beatOpen st

/-- The first paced request after quiet starts a dawn (R341), with its ramp margin (R343): whether its beat can begin at once or
not. -/
def Ctl.startDawn (c : Ctl) : Ctl :=
  if c.power.quiet && c.power.ramp = .none && (c.issuing || (c.pstate = 5 && !c.power.stopped)) then
    (c.modPower fun p => { p with quiet := false, ramp := .dawn, gate := 1, stepAt := p.mon }).startMargin
  else c

/-- A ramp step, or a hold, of `n` monitor beats is over: the monitor has come at least that far (R340 to R344). -/
def Power.stepOver (p : Power) (n : Nat) : Power := { p with mon := max p.mon (p.stepAt + n), stepAt := max p.mon (p.stepAt + n) }

/-- Monitor beats of a step of the ramp: DAWN_LOG2, DUSK_LOG2 or STAGGER_LOG2, clamped (Table 11.8). -/
def Ctl.stepBeats (c : Ctl) (lo : Nat) : Nat := 2 ^ max 4 (min 12 (c.rf rPWR_CTL lo 4))

/-- Is a bank access one of a scrub visit? -/
def Purpose.scrubs : Purpose → Bool
  | .scrubRead => true
  | .scrubBack => true
  | .scrubVerify => true
  | _ => false

/-- May a bank access be raised: its beat can begin, and it is not held by a stop (R27, R340, Table 11.3)? Clearing and zero-fill go
on but in Night; scrubbing stops with issue, and on the way to Night (Table 13.6 step 5). -/
def Ctl.jobReady (c : Ctl) (j : Job) : Bool :=
  match j.purpose with
  | .clear _ => c.pstate ≠ 4
  | .zeroRow => c.pstate ≠ 4
  | .operand n _ => c.mayBeat (.operand n)
  | .read _ 1 _ => c.mayBeat .network
  | .read _ 8 _ => c.mayBeat .network
  | .update k t _ => c.issuing && (c.desc? k).any fun d => d.done.contains (t / 128)
  | p => if p.scrubs then !c.power.stopped && c.pstate ≠ 4 && !c.toNight else c.issuing

/-- Every bank access that may be raised is raised, and stays so until it is granted or withdrawn (R276). -/
def Ctl.raiseJobs (c : Ctl) : Ctl :=
  { c with jobs := c.jobs.map fun (j : Job) => if !j.raised && c.jobReady j then { j with raised := true } else j }

/-- Begin a paced beat: take a token, count it in the gate's frame, and note the beat for quiet and for its phase (R26, R334,
R340, R341). -/
def Ctl.beat (c : Ctl) (st : Stream) (who : Account) : Ctl :=
  let c := c.startDawn.raiseJobs
  let c := if c.power.pace = 2047 then c else { c with buckets := c.buckets.set st.bucket (c.tokens st - 16) }
  let c := c.modPower fun p => { p with
    beatSeen := true, idleTicks := 0, gateSeen := p.gateSeen.set st.bucket (p.mon / 16, p.inFrame st + 1) }
  let a := match who with
    | .background => 16
    | .desc k => match c.desc? k with
      | none => 16
      | some d => d.phaseOf
  c.modPower fun p => { p with
    win := { p.win with phaseBeats := p.win.phaseBeats.set a (Tab.get 0 p.win.phaseBeats a + 1) } }

/-! ### Slots and fragments -/

/-- Key of a slot: 8192 per slice, four quarters per row line (R88). -/
def slotKey (slice row q : Nat) : Nat := slice * 8192 + row * 4 + q
/-- Slice of a slot key. -/
def slotSlice (k : Nat) : Nat := k / 8192
/-- Row line of a slot key. -/
def slotRow (k : Nat) : Nat := k % 8192 / 4
/-- Quarter of a slot key. -/
def slotQ (k : Nat) : Nat := k % 4

/-- The slots that a fragment at bank offset o of row r covers: one, or two adjacent ones (R88). -/
def fragSlots (slice o r : Nat) : List Nat :=
  if o % 8 = 0 then [slotKey slice r (o / 8)] else [slotKey slice r (o / 8), slotKey slice r ((o / 8 + 1) % 4)]

/-- The physical bank that stands for a logical bank (R298). -/
def Ctl.physBank (c : Ctl) (n b : Nat) : Nat := Tab.get b c.integ.spareFor (n * 34 + b)
/-- Bank of chunk k of a fragment at bank offset o. -/
def chunkBank (o k : Nat) : Nat := (o + k) % 32

/-- Slice of fragment i of a table (R62). -/
def FragTable.sliceOf (t : FragTable) (i : Nat) : Nat := t.list.getD (i % t.span / t.fold) 0
/-- Slice, bank offset and row of fragment i. -/
def FragTable.at (t : FragTable) (i : Nat) : Nat × Nat × Nat :=
  (t.sliceOf i, (t.frags.getD i (0, 0)).1, (t.frags.getD i (0, 0)).2)
/-- Fragments of a table. -/
def FragTable.count (t : FragTable) : Nat := t.rows * t.span
/-- Every slot of a table. -/
def FragTable.slots (t : FragTable) : List Nat :=
  (List.range t.frags.length).flatMap fun i => fragSlots (t.at i).1 (t.at i).2.1 (t.at i).2.2

/-- Set the state and holder of slots. -/
def Ctl.setSlots (c : Ctl) (ks : List Nat) (st : SlotState) (o : Owner) : Ctl :=
  c.each ks fun c k => c.modSlot k fun s => { s with state := st, owner := o }

/-- Invalidate every latch entry on a slot (R86, R90). -/
def Ctl.dropLatches (c : Ctl) (k : Nat) : Ctl :=
  c.each (List.range c.slicesN) fun c n =>
    if (c.port n).latches.isEmpty then c
    else c.modPort n fun p =>
      { p with latches := p.latches.filter fun l => !(fragSlots l.tag.1 l.tag.2.1 l.tag.2.2).contains k }

/-- Move slots to CLEARING: latches invalidated, zero writes raised as SCRUB requests (R90). -/
def Ctl.clearSlots (c : Ctl) (ks : List Nat) : Ctl :=
  c.each ks fun c k =>
    ((c.dropLatches k).setSlots [k] .clearing .none).addJobs
      [{ req := 12, purpose := .clear k, slice := slotSlice k, offset := 8 * slotQ k, row := slotRow k,
         chunks := List.range 8, words := List.replicate 128 0, skip := [] }]

/-- Is a RETIRED slot still read by a descriptor that resolved it (Table 3.1)? -/
def Ctl.stillRead (c : Ctl) (k : Nat) : Bool :=
  c.descs.any fun d => d.stage ∈ [.wait, .run, .written, .parked, .peer] && d.srcs.any fun s => s.table.slots.contains k

/-- RETIRED slots that nobody reads any more enter CLEARING (Table 3.1). -/
def Ctl.reapRetired (c : Ctl) : Ctl :=
  c.clearSlots ((c.slots.filter fun p => p.2.state = .retired && !c.stillRead p.1).map (·.1))

/-- Slots of a state on in-service slices. -/
def Ctl.countSlots (c : Ctl) (p : Slot → Bool) : Nat :=
  (c.slots.filter fun q => c.isIn (slotSlice q.1) && p q.2).length

/-- FREE slots of a slice that Keystone may allocate: not a condemned one (R297), nor one that an ALLOC waits to map (R97). -/
def Ctl.freeOn (c : Ctl) (n : Nat) : Nat :=
  if c.isIn n then
    8192 - (c.slots.filter fun q => slotSlice q.1 = n && (q.2.state ≠ .free || q.2.condemned || q.2.owner ≠ .none)).length
  else 0

/-- FREE slots of the block that Keystone may allocate. -/
def Ctl.freeSlots (c : Ctl) : Nat := (c.inService.map c.freeOn).sum

/-- The claim of a shape in fragments: rows × span (R56). -/
def shapeClaim (sh : Word) : Nat := (fld sh 0 10 + 1) * 2 ^ fld sh 12 3

/-- K: the claims of LIVE names and of ALLOCs admitted and not yet committed or completed (R98). -/
def Ctl.claimed (c : Ctl) : Nat :=
  ((c.names.filter (·.2.live)).map fun p => shapeClaim p.2.shape).sum +
  ((c.descs.filter fun d => d.kind = 12 && d.granted && !d.completed).map fun d => shapeClaim (d.w 4)).sum

/-- Slices that return from a fence and fill (R308). -/
def Ctl.returning (c : Ctl) : Nat := (c.slices.filter fun p => p.2.fstate = .returning).length

/-- C, or C_fill while FILL_DONE is clear (R98, R395). -/
def Ctl.capacity (c : Ctl) : Nat :=
  8192 * (c.inService.length +
    if bit (c.reg rREADY) 9 then 0 else c.filling.length + c.fillWait.length + c.returning)

/-- Is C − K, or C_fill − K, below 16,384 fragments (R100)? -/
def Ctl.scarce (c : Ctl) : Bool := c.capacity - c.claimed < 16384

/-- Is FILL_DONE still clear (R393, R395)? -/
def Ctl.fillsOn (c : Ctl) : Bool := !bit (c.reg rREADY) 9

/-- Has the last slice in service been fenced: service returns only through block reset (R307)? READY.TILES stays set from the first
slice in service on (R393). -/
def Ctl.serviceLost (c : Ctl) : Bool := c.inService.isEmpty && bit (c.reg rREADY) 3

/-- The shortage of R100; not while filling (R395), but once service is lost (R307). -/
def Ctl.shortage (c : Ctl) : Bool := (!c.fillsOn || c.serviceLost) && c.scarce

/-! ### Withdrawing work and fixing a status -/

/-- Does a carry belong to the descriptor? -/
def Carry.ofKey (k : Key) : Carry → Bool
  | .dest k' _ => k' = k
  | .stage k' _ => k' = k
  | .side k' _ => k' = k
  | _ => false

/-- Does a bank access belong to the descriptor? -/
def Purpose.ofKey (k : Key) : Purpose → Bool
  | .read k' _ _ => k' = k
  | .put cy => cy.ofKey k
  | .gatherWord k' _ _ => k' = k
  | .update k' _ _ => k' = k
  | _ => false

/-- Does a network word belong to the descriptor? -/
def FlitWhat.ofKey (k : Key) : FlitWhat → Bool
  | .frag cy _ => cy.ofKey k
  | .request k' _ _ => k' = k
  | .ret k' _ => k' = k
  | .addend k' _ _ => k' = k
  | .reduce k' _ => k' = k

/-- The descriptor of a burst, none for ring and service traffic. -/
def BPurpose.key? : BPurpose → Option Key
  | .tensorRd k _ _ _ => some k
  | .tensorWr k _ _ _ => some k
  | .keyRd k _ _ _ => some k
  | .route k _ => some k
  | _ => none

/-- A burst whose answer nobody waits for any more keeps its tag under this purpose. -/
def BPurpose.orphan : BPurpose := .tensorRd { ring := 64, idx := 0, sub := 0 } 0 0 0

/-- Is a memory write of the descriptor issued and not yet acknowledged (R143)? -/
def Ctl.writesOut (c : Ctl) (k : Key) : Bool :=
  c.mem.bursts.any fun b => b.state = .issued && b.access = 1 && b.purpose.key? = some k

/-- BUSY of ATC_INVAL clears once no burst that used a removed entry waits for its response (R244). -/
def Ctl.invalDone (c : Ctl) : Ctl :=
  if bit (c.reg rATC_INVAL) 31 && !c.mem.bursts.any (·.waitInval) then c.lower rATC_INVAL 31 else c

/-- Drop the bursts that a test selects: not issued, gone; a read already issued is answered to nobody; a write already
issued stays until it is acknowledged (R143). -/
def Ctl.dropBursts (c : Ctl) (f : Burst → Bool) : Ctl :=
  (c.modMem fun m => { m with
    bursts := (m.bursts.filter fun b => b.state = .issued || !f b).map fun (b : Burst) =>
      if f b && b.access ≠ 1 && b.access ≠ 4 then { b with purpose := .orphan } else b }).invalDone

/-- A beat of a descriptor that finished or starts again: it takes its place, and its W will be discarded. -/
def Assign.outdate (a : Assign) (k : Key) : Assign := if a.key = k then { a with stale := true } else a

/-- Take the descriptor's fragments off a port; a beat whose request is up, or which is outstanding, stays, and its W is
discarded (Table 11.3, R45). -/
def Port.forget (p : Port) (k : Key) : Port :=
  let up := if p.opReq.isSome then (p.queue.take 1).map (·.outdate k) else []
  let headMine : Bool := up.isEmpty && p.queue.head?.any (·.key = k)
  { p with queue := up ++ (p.queue.drop up.length).filter (·.key ≠ k), lane := p.lane.filter (·.key ≠ k),
           laneBeats := if p.lane.head?.any (·.key = k) then 0 else p.laneBeats,
           keyBuf := p.keyBuf.filter (·.key ≠ k), operands := if headMine then [] else p.operands,
           outst := p.outst.map fun o => { o with what := o.what.outdate k } }

/-- Set the PORT_EVT bit of a port (R185). -/
def Ctl.portEvt (c : Ctl) (n : Nat) : Ctl := c.putMask rPORT_EVT_LO rPORT_EVT_HI n true

/-- Set the state of a port and its PORT_EVT bit (R185). -/
def Ctl.portEnter (c : Ctl) (n : Nat) (st : PortState) (cause : Option Nat) : Ctl :=
  (c.modPort n fun p => { p with state := st, cause := cause.getD p.cause }).portEvt n

/-- A QUIESCING port with nothing left becomes QUIESCED (R182). -/
def Ctl.quiesceDone (c : Ctl) (n : Nat) : Ctl :=
  let p := c.port n
  if p.state = .quiescing && p.queue.isEmpty && p.outst.isEmpty then c.portEnter n .quiesced none else c

/-- Does a move hold windows on a slice that have not gone through its merge buffer (R222, Table 9.1)? -/
def Desc.mergesOn (d : Desc) (n : Nat) : Bool :=
  d.kind ∈ [6, 7] && d.stage = .run && (d.srcs.filter (·.role = 0)).any fun s =>
    (List.range s.table.count).any fun i => s.table.sliceOf i = n && Tab.get 0 d.aux i ≠ 2

/-- Has requester k of a stored arbiter work that keeps its request up, or may raise it? -/
def Ctl.hasWork (c : Ctl) (a k : Nat) : Bool :=
  if a < 3000 then c.jobs.any fun j => j.req = k && j.slice = a / 34 && j.chunks.any fun q =>
    j.phys.getD (c.physBank j.slice (chunkBank j.offset q)) = a % 34
  else if a < 4000 then decide (k < (c.descs.filter (·.mergesOn (a - 3000))).length)
  else if a < 5000 then c.mem.bursts.any fun b => b.state = .ready && b.ch = a - 4000 && b.cls = k
  else if a < 20000 then c.net.flits.any fun f => !f.injected && f.src = a - 5000 && f.user = k
  else if k = 0 then c.descs.any fun d => d.kind = 8 && d.stage = .run && d.phase = 1
  else !c.net.flits.isEmpty

/-- A requester whose request has been withdrawn because its work is abandoned returns to age 0 (R279, Table 9.4). -/
def Ctl.dropAges (c : Ctl) : Ctl :=
  { c with arbs := c.arbs.map fun p =>
      if p.2.reqs.any (·.age ≠ 0) then
        (p.1, { p.2 with reqs := p.2.reqs.zipIdx.map fun (q : ReqState × Nat) =>
          if q.1.age ≠ 0 && !c.hasWork p.1 q.2 then { q.1 with age := 0 } else q.1 })
      else p }

/-- Withdraw everything raised for a descriptor: bank accesses, network words, bursts, port work (R279, Table 9.4). -/
def Ctl.withdraw (c : Ctl) (k : Key) : Ctl :=
  let heads := (List.range c.slicesN).filter fun n => match (c.port n).queue with
    | a :: _ => decide (a.key = k)
    | [] => false
  let mine (j : Job) : Bool := j.purpose.ofKey k || match j.purpose with
    | .operand port _ => heads.contains port
    | _ => false
  let carries (cy : Carry) : Bool := cy.ofKey k || match cy with
    | .operand port _ => heads.contains port
    | _ => false
  let gone (f : Flit) : Bool := f.what.ofKey k || match f.what with
    | .frag cy _ => carries cy
    | _ => false
  let c := { c with jobs := c.jobs.filter fun j => !mine j }
  let c := c.modNet fun n => { n with
    flits := n.flits.filter (fun f => !gone f), asm := n.asm.filter (fun a => !carries a.what),
    waves := n.waves.filter (·.key ≠ k) }
  let c := (c.dropBursts fun b => decide (b.purpose.key? = some k)).dropAges
  c.each (List.range c.slicesN) fun c n =>
    let p := c.port n
    if p.queue.any (·.key = k) || p.lane.any (·.key = k) || p.keyBuf.any (·.key = k) ||
        p.outst.any (·.what.key = k) then
      (c.modPort n (·.forget k)).quiesceDone n else c

/-- The FRESH slots of a descriptor enter CLEARING (R110); FREE ones that an ALLOC was to map are free of it (R97). -/
def Ctl.abandonFresh (c : Ctl) (k : Key) : Ctl :=
  let mine := (c.slots.filter fun p => p.2.state = .free && p.2.owner = .desc k).map (·.1)
  let c := c.each mine fun c n => c.modSlot n fun s => { s with owner := .none }
  let c : Ctl := if mine.isEmpty then c else { c with slots := c.slots.filter fun (p : Nat × Slot) => p.2 ≠ Slot.reset }
  let c := c.clearSlots ((c.slots.filter fun p => p.2.state = .fresh && p.2.owner = .desc k).map (·.1))
  c.modDesc k fun d => { d with dst := none }

/-- The map store is released by the completion of the PERMUTE that holds it, unless another uses the same program
(R197). -/
def Ctl.releaseMap (c : Ctl) (k : Key) : Ctl :=
  if c.net.mapOwner = some k then
    match c.descs.find? fun d =>
        d.key ≠ k && d.kind = 8 && fld (d.words.getD 1 0) 8 2 = 2 && d.stage = .run && d.phase = 1 with
    | some d => c.modNet fun n => { n with mapOwner := some d.key }
    | none => c.modNet fun n => { n with mapOwner := none, mapWords := [] }
  else c

/-! ### Quoin links and the pair -/

/-- The instance at the far end of link l (R424). -/
def Ctl.linkPeer (c : Ctl) (l : Nat) : Nat := (c.rf rQUOIN_CTL 8 2 + 1 + l) % 4
/-- The link to an instance (R424): 3 when it is the own one. -/
def Ctl.linkTo (c : Ctl) (inst : Nat) : Nat := (inst + 3 - c.rf rQUOIN_CTL 8 2) % 4
/-- Is a join link up (R209)? -/
def Ctl.linkUp (c : Ctl) (inst : Nat) : Bool := bit (c.reg rQUOIN_STATUS) (16 + inst)
/-- JOINED (R209). -/
def Ctl.joined (c : Ctl) : Bool := bit (c.reg rQUOIN_STATUS) 0

/-- Are the quoin links gated: in Evening and Night (Table 13.5)? -/
def Ctl.linksGated (c : Ctl) : Bool := c.pstate ∈ [2, 4]

/-- Send words on a quoin link (Table 14.4): the link's handshake runs until acknowledged (R424), and each word is an event of
class 6 (R330, Table 11.1). While the links are gated the words wait. -/
def Ctl.sendLinkFor (c : Ctl) (who : Account) (l kind ctl : Nat) (ws : List Word) : Ctl :=
  if c.linksGated || !(c.link l).owed.isEmpty then c.modLink l fun k => { k with owed := k.owed ++ [(kind, ctl, ws)] }
  else
  let c := if ws.isEmpty then c else c.charge who 6 ws.length
  (c.emit (.link l kind ctl ws)).modLink l fun k => { k with deadline := some (c.after 16) }

/-- Send words that are of no descriptor's own on a quoin link. -/
def Ctl.sendLink (c : Ctl) (l kind ctl : Nat) (ws : List Word) : Ctl := c.sendLinkFor .background l kind ctl ws

/-- Does the block run as one of a pair (R314, R320)? -/
def Ctl.paired (c : Ctl) : Bool := bit (c.reg rPAIR_STATUS) 31 && !bit (c.reg rPAIR_STATUS) 1
/-- Is it the shadow (R315)? -/
def Ctl.shadow (c : Ctl) : Bool := c.paired && bit (c.reg rPAIR_CTL) 1
/-- Is the pair halted (R319)? -/
def Ctl.halted (c : Ctl) : Bool := bit (c.reg rPAIR_STATUS) 30
/-- The link to the other instance of a pair, from SELF and PEER (R314, R424). -/
def Ctl.pairLink (c : Ctl) : Nat := (c.rf rPAIR_CTL 8 2 + 3 - c.rf rPAIR_CTL 4 2) % 4

/-- Is an outcome reconciled in a pair rather than compared (R318)? -/
def reconciled (status : Nat) : Bool := status ∈ [0x20, 0x21, 0x22, 0x30, 0x31, 0x40, 0x41, 0x42]

/-- Send a reconciled outcome to the peer and wait for its own (R318, R321). -/
def Ctl.sendOutcome (c : Ctl) (k : Key) (status detail cursor : Nat) : Ctl :=
  if c.paired && k.sub = 0 then
    let g : Sig :=
      { ring := k.ring, idx := k.idx, row := none, local_ := none, peer := none, deadline := c.after (c.ticksOf rPAIR_CFG 0 16) }
    { c.sendLink c.pairLink 11 0 [word (status + detail * 2 ^ 8 + cursor * 2 ^ 16), word k.idx, word (k.idx / 2 ^ 32),
        word k.ring] with
      sigs := (c.sigs.filter fun (s : Sig) => !(s.ring = k.ring && s.idx = k.idx && s.row.isNone)) ++ [g] }
  else c

/-- SIGNATURE words of Table 14.4. -/
def sigWords (ring idx : Nat) (row : Option Nat) (sig : BitVec 64) : List Word :=
  [word (ring + match row with
    | some r => 2 ^ 31 + r * 2 ^ 16
    | none => 0), word idx, word (idx / 2 ^ 32), word sig.toNat, word (sig.toNat / 2 ^ 32)]

/-- Halt the pair (R319, R321). -/
def Ctl.haltPair (c : Ctl) (cause : Nat) : Ctl :=
  if c.halted then c else ((c.raise rPAIR_STATUS 30).setRf rPAIR_STATUS 16 3 cause).raise rINT_EVT 9

/-- Record a mismatch and halt; the peer is told (R319). -/
def Ctl.mismatch (c : Ctl) (g : Sig) (a b : BitVec 64) : Ctl :=
  let c := c.setReg rPAIR_MIS_RING (word (g.ring + match g.row with
    | some r => 2 ^ 8 + r * 2 ^ 16
    | none => 0))
  let c := (c.setReg64 rPAIR_MIS_IDX_LO rPAIR_MIS_IDX_HI g.idx).setReg64 rPAIR_SIG_LOCAL_LO rPAIR_SIG_LOCAL_HI a.toNat
  ((c.setReg64 rPAIR_SIG_PEER_LO rPAIR_SIG_PEER_HI b.toNat).haltPair 1).sendLink c.pairLink 12 0 [1]

/-- The signature held for a ring, index and row, or a new one. -/
def Ctl.sigFor (c : Ctl) (ring idx : Nat) (row : Option Nat) : Sig :=
  (c.sigs.find? fun s => s.ring = ring && s.idx = idx && s.row = row).getD
    { ring := ring, idx := idx, row := row, local_ := none, peer := none, deadline := 0 }

/-- Replace the signature held for its ring, index and row. -/
def Ctl.putSig (c : Ctl) (g : Sig) : Ctl :=
  { c with sigs := (c.sigs.filter fun (s : Sig) => !(s.ring = g.ring && s.idx = g.idx && s.row = g.row)) ++ [g] }

/-- Send an own signature of a ring, index and row to the peer and keep it for the comparison (R317); the peer's has PAIR_TICKS
to come (R321). -/
def Ctl.sendSig (c : Ctl) (k : Key) (row : Option Nat) (s : BitVec 64) : Ctl :=
  (c.sendLink c.pairLink 10 0 (sigWords k.ring k.idx row s)).putSig
    { c.sigFor k.ring k.idx row with local_ := some s, deadline := c.after (c.ticksOf rPAIR_CFG 0 16) }

/-- Is an own signature or outcome of a descriptor waiting for the peer's? -/
def Ctl.outcomeWaits (c : Ctl) (ring idx : Nat) : Bool :=
  c.sigs.any fun g => g.ring = ring && g.idx = idx && g.row.isNone && g.local_.isNone && g.peer.isNone

/-- The bytes of a signature that stand before its tiles (R316). -/
def Desc.sigHead (d : Desc) (status : Nat) : List Byte :=
  natBytes 1 d.key.ring ++ natBytes 8 d.key.idx ++ natBytes 1 d.kind ++ natBytes 1 status

/-- A completion has its place in the order of records, and its ELAPSED_TICKS, once every memory write of the descriptor is
acknowledged (R139, R142, R143). -/
def Ctl.close (c : Ctl) (k : Key) : Ctl :=
  match c.desc? k with
  | none => c
  | some d =>
    if !d.completed || d.closed || c.writesOut k then c
    else { c.modDesc k (fun d => { d with
      closed := true, order := c.nextOrder, elapsed := c.refTicks - d.started }) with nextOrder := c.nextOrder + 1 }

/-- A barrier release holds the gate at 0 for the node's stagger, then a dawn begins (R344). -/
def Ctl.barrier (c : Ctl) (d : Desc) : Ctl :=
  let t := fld (d.w 2) 0 8
  if bit (d.w 1) 9 && bit (c.reg (rBARRIER_MASK (t / 32))) (t % 32) && c.power.quiet && c.power.ramp = .none then
    let hold := (c.rf rNODE_ID 0 16 % 16) * c.stepBeats 16
    (c.modPower fun p => { p with gate := 0, ramp := .stagger hold, quiet := false, stepAt := p.mon }).startMargin
  else c

/-- Fix a descriptor's final status (R139): its work is withdrawn and, unless it committed, its FRESH slots enter
CLEARING. A descriptor that never reached step 5 has ELAPSED_TICKS 0 (Table 4.15). -/
def Ctl.fixNow (c : Ctl) (k : Key) (status detail : Nat) : Ctl :=
  match c.desc? k with
  | none => c
  | some d =>
    if d.completed then c
    else
      let c := ((c.withdraw k).abandonFresh k).releaseMap k
      let c := if reconciled status then c.sendOutcome k status detail 0 else c
      let c := if status = 0x60 then (c.setRf rXN_STATUS 16 8 detail).count rREFUSALS 1 else c
      let c := if d.kind = 11 && status = 0 then c.barrier d else c
      let c := c.modDesc k fun d => { d with
        stage := .final, status := status, detail := detail, granted := false, deadline := none, proposed := false,
        sigWait := false, started := if d.stage ∈ [Stage.hold, .check] || d.mods.isEmpty then c.refTicks else d.started }
      (c.close k).reapRetired

/-- A descriptor of a pair that ends otherwise than by a reconciled outcome, and commits no tile: its signature goes out, and it
completes once the peer's is there and equal (R316, R317). -/
def Ctl.propose (c : Ctl) (d : Desc) (status detail : Nat) : Ctl :=
  let c := ((c.withdraw d.key).releaseMap d.key).modDesc d.key fun e => { e with
    stage := .peer, status := status, detail := detail, sigWait := true, proposed := true, deadline := none }
  if c.halted then c else c.sendSig d.key none (crc64 (d.sigHead status))

/-- The peer's signature may be here already: an equal one completes a proposal, a differing one halts the pair (R317, R319). -/
def Ctl.agree (c : Ctl) (d : Desc) (status detail : Nat) : Ctl :=
  let g := c.sigFor d.key.ring d.key.idx none
  match g.local_, g.peer with
  | some a, some b =>
    let c : Ctl := { c with sigs := c.sigs.filter fun (s : Sig) => s ≠ g }
    if a = b then (c.count rPAIR_COMPARED 1).fixNow d.key status detail else c.mismatch g a b
  | _, _ => c

/-- Fix a descriptor's final status; in a pair, once both instances agree on it (R316 to R318). The images of a bulk service
have no status of their own there. -/
def Ctl.fix (c : Ctl) (k : Key) (status detail : Nat) : Ctl :=
  match c.desc? k with
  | none => c
  | some d =>
    if d.completed || !c.paired || k.sub ≠ 0 || reconciled status || d.committed then c.fixNow k status detail
    else if d.stage = .peer then c
    else (c.propose d status detail).agree d status detail

/-- The other descriptor of a key-stream pair (R267). -/
def Ctl.partnerOf (c : Ctl) (k : Key) : Option Key :=
  match c.desc? k with
  | some d => d.partner.map fun i => { k with idx := i }
  | none => none

/-- Complete a descriptor, and with it the other half of a streamed KEYSTREAM and its consumer (R267). -/
def Ctl.complete (c : Ctl) (k : Key) (status detail : Nat) : Ctl :=
  match c.partnerOf k with
  | none => c.fix k status detail
  | some p => (c.fix k status detail).fix p status detail

/-! ### FENCE and tokens (R147 to R149) -/

/-- Has a descriptor completed: final status fixed, every memory write acknowledged (R139, R143)? -/
def Ctl.hasCompleted (c : Ctl) (d : Desc) : Bool := d.completed && !c.writesOut d.key

/-- Has every older descriptor of the ring completed (R147)? -/
def Ctl.olderDone (c : Ctl) (k : Key) : Bool :=
  c.descs.all fun d => !(d.key.ring = k.ring && d.key.sub = 0 && d.key.idx < k.idx) || c.hasCompleted d

/-- Is the token condition of a FENCE satisfied (R149)? -/
def Ctl.tokenMet (c : Ctl) (d : Desc) : Bool :=
  decide (((c.reg (rTOKEN_VALUE (fld (d.w 2) 0 8))) - d.w 3).toNat < 2 ^ 31)

/-- May a FENCE complete with OK (R147, R149)? -/
def Ctl.fenceMet (c : Ctl) (d : Desc) : Bool :=
  (!bit (d.w 1) 9 || c.tokenMet d) && (!bit (d.w 1) 8 || c.olderDone d.key)

/-- The block becomes quiet: g is 1 and any ramp is over (R341). The target of a dusk under way takes effect at the next tick
(R342). The margin stays until 4 ticks after g has reached 16, as its rule says (R343). -/
def Ctl.becomeQuiet (c : Ctl) : Ctl :=
  c.modPower fun p => { p with
    quiet := true, gate := 1, idleTicks := 0, beatSeen := false, ramp := .none,
    newTarget := match p.ramp with
      | .dusk _ t => p.newTarget <|> some (t, p.limit)
      | _ => p.newTarget }

/-- With WAKE_ON_WORK set, work wakes the block from Evening, or stops its entry, but not once it is on its way to Night (R401, Table
13.9): it becomes WAKING, quiet with g 1
unless coolant-stopped (Table 11.4), and raises V_req (R402). -/
def Ctl.wakeOnWork (c : Ctl) : Ctl :=
  if c.pstate ∈ [1, 2] && !c.toNight && bit (c.reg rPSTATE_CTL) 8 then
    let c := c.setRf rPSTATE_STATUS 0 3 5
    (if c.power.stopped then c else c.becomeQuiet).raiseVreq
  else c

/-- Re-evaluate every waiting FENCE (R149). With WAKE_ON_WORK a satisfied one wakes the block from Evening (R401). -/
def Ctl.fences (c : Ctl) : Ctl :=
  c.each (c.descs.filter fun d => d.kind = 11 && d.stage = .wait) fun c d =>
    if c.fenceMet d then (c.fix d.key 0 0).wakeOnWork else c

/-- Complete a descriptor and let the FENCEs that wait on it go on. -/
def Ctl.finish (c : Ctl) (k : Key) (status detail : Nat) : Ctl := (c.complete k status detail).fences

/-! ### Sequenced mode (R430) -/

/-- Is sequenced mode in force? -/
def Ctl.sequenced (c : Ctl) : Bool := bit (c.reg rTEST_CTL) 0

/-- May an arbiter grant: of itself, or in sequenced mode as far as steps have let grants through? -/
def Ctl.mayGrant (c : Ctl) : Bool := !c.sequenced || c.stepGrants ≠ 0

/-- A grant has been made. -/
def Ctl.useGrant (c : Ctl) : Ctl := if c.sequenced then { c with stepGrants := c.stepGrants - 1 } else c

/-! ### Ready bits (R393) -/

/-- RINGS and LOADER are raised once they are usable (Table 13.3): NODE valid, the PKE port idle, and MEMPATH up. TILES and
MSQ are raised where their condition comes true; the other bits follow from the state. -/
def Ctl.readyUp (c : Ctl) : Ctl :=
  if c.func = 2 then c
  else
    let c := if bit (c.reg rNODE_ID) 31 then c.raise rREADY 2 else c
    if c.msq.pkeDeadline.isNone && c.msq.pkeOwed.isNone then c.raise rREADY 5 else c

/-! ### Order of duties -/

/-- Is an optional deadline due? -/
def Ctl.dueBy (c : Ctl) (d : Option Nat) : Bool := d.any c.due

/-- Has a streamed KEYSTREAM waited in vain for a consumer (R271), or a prefetch for one that fixes its port group (R268)? -/
def Ctl.streamDue (c : Ctl) (d : Desc) : Bool :=
  (d.stage = .run && d.kind = 9 && !bit (d.w 1) 8 && d.partner.isNone && c.dueBy d.deadline) ||
    (d.prefetched && d.phase ≠ 0 && c.due d.phase && !d.completed)

/-- Is a timeout of the reference counter due that has not been acted on (R434)? A FENCE, a walk, a burst, an ARM, a
mailbox word, a key stream or prefetch, the public-key engine, a pace word or a silence of the group, the peer of a pair, a
link, the ramp margin, the voltage request, the coolant hold, a late computation. -/
def Ctl.timeoutsDue (c : Ctl) : Bool :=
  c.descs.any c.streamDue || c.dueBy c.msq.pkeDeadline ||
  (c.group.state ≠ 0 && !c.group.left && (c.due c.group.sendDeadline || c.dueBy c.group.parentDeadline ||
    c.group.children.any fun p => c.due p.2.2)) ||
  (c.paired && !c.halted && c.sigs.any fun g => g.peer.isNone && c.due g.deadline) ||
  (c.net.links.any fun p => c.dueBy p.2.deadline) || c.dueBy c.power.marginEnd || c.dueBy c.power.vwait ||
  (c.power.stopped && bit (c.reg rBND_STATUS) 0 && !bit (c.reg rPWR_EVT) 4 && c.dueBy c.power.coolDeadline) ||
  (c.power.closed.isSome && c.due (c.power.closedAt + 16)) ||
  (c.descs.any fun d => d.kind = 11 && d.stage = .wait && match d.deadline with
    | some t => c.due t
    | none => false) ||
  (c.mem.walks.any fun w => !w.late && c.due w.deadline) ||
  (c.mem.bursts.any fun b => b.state = .issued && c.due b.deadline) ||
  (c.rings.any fun p => match p.2.watch with
    | .arming t => c.due t
    | _ => false) ||
  (c.mbDeadline.any fun p => c.due p.2)

end Sys2Proof.Machine
end

