-- ==== Sys2Proof/Machine/Flags.lean ====
section
/-!
DEFINITION. Event flags and the outputs they drive, the power-state view of the register port, and who may access a
register (R154, R185, R325, R329, R360, R367, R392, R403, R416, R429).
-/
namespace Sys2Proof.Machine

/-! ### Event outputs (R416) -/

/-- Is an unmasked bit set? -/
def Ctl.unmasked (c : Ctl) (evt mask : Nat) : Bool := c.reg evt &&& ~~~(c.reg mask) ≠ 0

/-- NOTIFY_IRQ (R154). -/
def Ctl.notifyIrq (c : Ctl) : Bool :=
  c.unmasked rNOTIFY_PEND_LO rNOTIFY_MASK_LO || c.unmasked rNOTIFY_PEND_HI rNOTIFY_MASK_HI
/-- PORT_EVT_IRQ (R185): PORT_EVT has no mask. -/
def Ctl.portEvtIrq (c : Ctl) : Bool := c.reg rPORT_EVT_LO ≠ 0 || c.reg rPORT_EVT_HI ≠ 0
/-- INT_IRQ (R325). -/
def Ctl.intIrq (c : Ctl) : Bool := c.unmasked rINT_EVT rINT_MASK
/-- DB_IRQ (R367). -/
def Ctl.dbIrq (c : Ctl) : Bool := c.unmasked rDB_PEND rDB_MASK
/-- PWR_IRQ (R329). -/
def Ctl.pwrIrq (c : Ctl) : Bool := c.unmasked rPWR_EVT rPWR_MASK

/-- Doorbell bit (R367, R368). -/
def Ctl.ringBell (c : Ctl) (b : Nat) : Ctl := c.raise rDB_PEND b

/-! ### Access -/

/-- Is PRIV_MASTER valid, and who is it (Table 12.17)? -/
def Ctl.privMaster (c : Ctl) : Option Nat :=
  if bit (c.reg rTRUST_STATUS) 31 then some (c.rf rTRUST_STATUS 16 8) else none

/-- May the identity write BLOCK, FUNC_GO and the region "Test" (R392, R429)? -/
def Ctl.privOk (c : Ctl) (id : Byte) : Bool :=
  match c.privMaster with
  | some m => id.toNat = m
  | none => id ≠ 0xFF

/-- Record a denied access (R360, Table 12.10). -/
def Ctl.deny (c : Ctl) (id : Byte) (off : Nat) : Ctl :=
  c.setReg rMB_DENY (word (2 ^ 31 + (off / 4 % 1024) * 2 ^ 20 + off / 2 ^ 16 % 16 * 2 ^ 16 + id.toNat))

/-- Does a register answer in Night: "Identity and capability", "Global control and generations", "Mailboxes" (R403)? -/
def nightAnswers (off : Nat) : Bool := off < 0x10000 || (0x80000 ≤ off && off < 0x90000)

/-- Is the access gated by Night? -/
def Ctl.gated (c : Ctl) (off : Nat) : Bool := c.pstate = 4 && !nightAnswers off

/-- An access by `id` to the register at `off`: a gated one sets NIGHT_ACCESS (R403), a denied one is recorded (R360);
otherwise it takes effect. Either answers zero to a read. Identity 0xFF is denied everywhere on the register port. -/
def Ctl.access (c : Ctl) (id : Byte) (off : Nat) (allowed : Bool) (f : Ctl → Ctl) : Ctl :=
  let gated := c.gated off
  let c' : Ctl := { (if gated then c.raise rPSTATE_STATUS 18 else c) with regRdata := 0 }
  if id = 0xFF || !allowed then c'.deny id off else if gated then c' else f c

end Sys2Proof.Machine
end

