-- ==== Sys2Proof/Machine/Arb.lean ====
section
/-!
DEFINITION. Arbitration: settings and presets (R283, R285), one decision (R276 to R280, R287), windows (R278, R286,
R409), convergence (R410), the wait bound (R282) and the counters (R288). What a grant does stands in Round.
-/
namespace Sys2Proof.Machine

/-! ### Arbiters -/

/-- Key of an arbiter in the table. -/
def arbKey : ArbId → Nat
  | .bank s b => s * 34 + b
  | .merge s => 3000 + s
  | .channel m => 4000 + m
  | .inject l => 5000 + l
  | .mode => 20000

/-- First weight index and number of requesters (Tables 9.1, 9.8). -/
def arbSpan : ArbId → Nat × Nat
  | .bank _ _ => (0, 13)
  | .merge _ => (13, 3)
  | .channel _ => (16, 6)
  | .inject _ => (22, 4)
  | .mode => (26, 2)

/-- The slice whose counter times the arbiter's idle window, none for channels and the mode arbiter (R409). -/
def arbSlice : ArbId → Option Nat
  | .bank s _ => some s
  | .merge s => some s
  | .inject l => some (l / 128)
  | _ => none

/-- The slice of a stored arbiter by its key. -/
def keySlice (k : Nat) : Option Nat :=
  if k < 3000 then some (k / 34) else if k < 4000 then some (k - 3000)
  else if k < 5000 then none else if k < 20000 then some ((k - 5000) / 128) else none

/-- Is the key that of a bank, which has two tiers? -/
def keyBank (k : Nat) : Bool := k < 3000

/-- Weights of a preset, by weight index (R283, Table 9.2). -/
def presetWeights (p : Nat) : List Nat :=
  let pick (a b c d : Nat) : Nat := if p = 1 then b else if p = 2 then c else if p = 3 then d else a
  List.replicate 4 (pick 16 24 16 16) ++ List.replicate 5 (pick 16 12 16 16) ++
  [pick 32 16 64 16, pick 32 16 32 16, pick 8 4 8 32, pick 16 8 16 32, 16, 16, 16, pick 24 24 24 24] ++
  List.replicate 3 (pick 24 24 32 24) ++ [pick 8 8 16 8, pick 16 16 8 16, 32, 16, 8, 16, 16, 16]

/-- The weight words of a list of 28 weights (Table 9.8). -/
def weightWord (ws : List Nat) (k : Nat) : Word :=
  word (ws.getD (4 * k) 0 + 2 ^ 8 * ws.getD (4 * k + 1) 0 + 2 ^ 16 * ws.getD (4 * k + 2) 0 + 2 ^ 24 * ws.getD (4 * k + 3) 0)

/-- The window a WINDOW field acts as (Table 9.9). -/
def clampWindow (w : Nat) : Nat := max 16 (min 1024 w)

/-- The setting that a control word and weight registers give (R283, R285). -/
def settingOf (ctl : Word) (ws : List Nat) : ArbSetting :=
  if bit ctl 0 then { weights := ws, window := clampWindow (fld ctl 16 11) }
  else { weights := presetWeights (fld ctl 4 2), window := 256 }

/-- Weights held in seven registers. -/
def Ctl.weightsAt (c : Ctl) (r : Nat → Nat) : List Nat := (List.range 28).map fun i => c.rf (r (i / 4)) (8 * (i % 4)) 8

/-- The active setting. -/
def Ctl.arbActive (c : Ctl) : ArbSetting := settingOf (c.reg rARB_CTL_ACT) (c.weightsAt (rARB_WEIGHT_ACT ·))
/-- The pending setting. -/
def Ctl.arbPending (c : Ctl) : ArbSetting := settingOf (c.reg rARB_CTL) (c.weightsAt (rARB_WEIGHT ·))

/-- An arbiter that has granted nothing: its first window starts at its first grant (R278). -/
def freshArb (lo n : Nat) (st : ArbSetting) (gen : Nat) (det : Bool) : Arb :=
  { reqs := (List.range n).map fun i =>
      { credit := st.weights.getD (lo + i) 0, age := 0, run := 0, grants := 0, waits := 0, longest := 0 },
    ptr := 0, left := st.window, leftG := st.window, setting := st, settingG := st, gen := gen, genG := gen,
    busy := false, busyG := false, det := det }

/-- The arbiter of an id. -/
def Ctl.arb (c : Ctl) (a : ArbId) : Arb :=
  Tab.get (freshArb (arbSpan a).1 (arbSpan a).2 c.arbActive c.arbGen c.det) c.arbs (arbKey a)

/-- Is a requester of tier F (R275)? Only a bank has two tiers. -/
def tierF (bank : Bool) (k : Nat) : Bool := !bank || k ≤ 8

/-- Start a new window of a tier: the active setting is loaded and credits become weights (R278, R286). -/
def Arb.newWindow (a : Arb) (bank : Bool) (lo : Nat) (f : Bool) (st : ArbSetting) (gen : Nat) : Arb :=
  let a := { a with
    reqs := (a.reqs.zipIdx).map fun (p : ReqState × Nat) =>
      if tierF bank p.2 = f then { p.1 with credit := st.weights.getD (lo + p.2) 0 } else p.1 }
  if f then { a with left := st.window, setting := st, gen := gen,
                     genG := if bank then a.genG else gen }
  else { a with leftG := st.window, settingG := st, genG := gen }

/-- The first of some candidates at or after the pointer, in cyclic order. -/
def firstFrom (n ptr : Nat) (cands : List Nat) : Nat :=
  ((List.range n).map fun i => (ptr + i) % n).find? cands.contains |>.getD 0

/-- The winner among candidates of one tier, and the new pointer (R280, R287). -/
def Arb.pick (a : Arb) (cands : List Nat) : Nat × Nat :=
  let n := a.reqs.length
  let score (k : Nat) : Nat := match a.reqs[k]? with
    | some r => r.credit + r.age
    | none => 0
  if a.det then
    let w := firstFrom n a.ptr cands
    (w, (w + 1) % n)
  else
    let best := cands.foldl (fun m k => max m (score k)) 0
    let ties := cands.filter fun k => score k = best
    let w := firstFrom n a.ptr ties
    (w, if 2 ≤ ties.length then (w + 1) % n else a.ptr)

/-- One requester after a round (R278, R279, R288). -/
def ReqState.after (r : ReqState) (won took : Bool) : ReqState :=
  if won then { r with credit := r.credit - 1, age := 0, run := 0, grants := satAdd 48 r.grants 1 }
  else if took then
    { r with age := min 15 (r.age + 1), run := r.run + 1, waits := satAdd 48 r.waits 1,
             longest := max r.longest (min (r.run + 1) (2 ^ 16 - 1)) }
  else r

/-- One decision among the requesters that take part: the winner and the arbiter after it (R276 to R280, R287). -/
def Arb.decide (a : Arb) (bank : Bool) (lo : Nat) (takers : List Nat) (st : ArbSetting) (gen : Nat) (det : Bool) :
    Nat × Arb :=
  let a := if a.det = det then a
    else if det then { a with det := true, ptr := 0 }
    else ({ a with det := false }.newWindow bank lo true st gen).newWindow bank lo false st gen
  let f := takers.any (tierF bank)
  let p := a.pick (takers.filter fun k => tierF bank k = f)
  let a := { a with
    ptr := p.2, reqs := (a.reqs.zipIdx).map fun (q : ReqState × Nat) => q.1.after (q.2 = p.1) (takers.contains q.2),
    busy := a.busy || f, busyG := a.busyG || !f }
  let a := if f then { a with left := a.left - 1 } else { a with leftG := a.leftG - 1 }
  (p.1, if (if f then a.left else a.leftG) = 0 then a.newWindow bank lo f st gen else a)

/-- Store an arbiter. -/
def Ctl.setArb (c : Ctl) (k : Nat) (a : Arb) : Ctl := { c with arbs := c.arbs.set k a }

/-! ### Convergence (R409, R410) -/

/-- Lowest weight index of a stored arbiter by its key. -/
def keyLo (k : Nat) : Nat :=
  if k < 3000 then 0 else if k < 4000 then 13 else if k < 5000 then 16 else if k < 20000 then 22 else 26

/-- An arbiter at the end of a tick: each tier that granted nothing starts a new window (R409). -/
def Arb.idleTick (a : Arb) (k : Nat) (st : ArbSetting) (gen : Nat) : Arb :=
  let b := keyBank k
  let x := if a.busy then a else a.newWindow b (keyLo k) true st gen
  let x := if b && !a.busyG then x.newWindow b (keyLo k) false st gen else x
  { x with busy := false, busyG := false }

/-- Every stored arbiter of a slice, or of none, passes the end of a tick. -/
def Ctl.idleWindows (c : Ctl) (s : Option Nat) : Ctl :=
  { c with arbs := c.arbs.map fun p => if keySlice p.1 = s then (p.1, p.2.idleTick p.1 c.arbActive c.arbGen) else p }

/-- Does an arbiter run the active generation? -/
def Ctl.arbCurrent (c : Ctl) (a : Arb) : Bool := a.gen = c.arbGen && a.genG = c.arbGen

/-- Does slice n run the active generation (R410)? -/
def Ctl.sliceCurrent (c : Ctl) (n : Nat) : Bool :=
  (c.slice n).gen = c.arbGen && c.arbs.all fun p => keySlice p.1 ≠ some n || c.arbCurrent p.2

/-- Does a stored arbiter run the active setting (R286)? An arbiter of a slice out of service does not count. -/
def Ctl.arbSet (c : Ctl) (k : Nat) (a : Arb) : Bool :=
  (keySlice k).any (fun n => !c.isIn n) || (a.setting = c.arbActive && (!keyBank k || a.settingG = c.arbActive))

/-- Set GEN_CONV, CONVERGED and ARB_CONVERGED where they have come true (R286, R410). -/
def Ctl.converge (c : Ctl) : Ctl :=
  let c := if c.arbs.all fun p => c.arbSet p.1 p.2 then c.raise rARB_STATUS 16 else c
  if bit (c.reg rGEN_STATUS) 8 then c
  else
    let c := c.each c.inService fun c n =>
      if c.sliceCurrent n then c.putMask rGEN_CONV_LO rGEN_CONV_HI n true else c
    if c.inService.all (fun n => c.mask rGEN_CONV_LO rGEN_CONV_HI n) &&
        c.arbs.all (fun p => (keySlice p.1).isSome || c.arbCurrent p.2) then
      c.raise rGEN_STATUS 8
    else c

/-- A slice that enters service applies the active generation at that moment (R394, R410). -/
def Ctl.applyGeneration (c : Ctl) (n : Nat) : Ctl :=
  let c := { c with
    arbs := c.arbs.map fun (p : Nat × Arb) =>
      if keySlice p.1 = some n then
        (p.1, (p.2.newWindow (keyBank p.1) (keyLo p.1) true c.arbActive c.arbGen).newWindow (keyBank p.1) (keyLo p.1) false
          c.arbActive c.arbGen)
      else p }
  (c.modSlice n fun s => { s with gen := c.arbGen, scrubRows := c.rf rINT_CTL_ACT 8 4 }).putMask
    rGEN_CONV_LO rGEN_CONV_HI n true

/-! ### The wait bound (R282, R285) -/

/-- B_k of requester k among weights. -/
def waitBound (ws : List Nat) (k : Nat) : Nat :=
  let wk := ws.getD k 0
  14 + ws.length + ((ws.zipIdx).map fun p => if p.2 = k then 0 else p.1 + (p.1 - wk)).sum

/-- Weight indices of every arbiter and tier: first index and count. -/
def arbGroups : List (Nat × Nat) := [(0, 9), (9, 4), (13, 3), (16, 6), (22, 4), (26, 2)]

/-- The lowest weight index whose bound is not below the window. -/
def boundFails (st : ArbSetting) : Option Nat :=
  (arbGroups.flatMap fun g => (List.range g.2).map fun i => (g, i)).findSome? fun p =>
    if waitBound ((st.weights.drop p.1.1).take p.1.2) p.2 < st.window then none else some (p.1.1 + p.2)

/-! ### Counters (R288) -/

/-- The arbiters whose counters a KIND selects in a slice (Table 9.5). -/
def sliceArbs (s kind : Nat) : List Nat :=
  match kind with
  | 0 => (List.range 34).map fun b => s * 34 + b
  | 1 => [3000 + s]
  | 2 => (List.range 128).map fun l => 5000 + 128 * s + l
  | _ => []

/-- The arbiters whose counters a KIND selects in the block (Table 9.11). -/
def Ctl.blockArbs (c : Ctl) (kind ch : Nat) : List Nat :=
  match kind with
  | 0 => if ch < c.part.channels then [4000 + ch] else []
  | 1 => [20000]
  | _ => []

/-- GRANTS, WAITS and LONGEST of a requester over some arbiters. -/
def Ctl.counterSum (c : Ctl) (ks : List Nat) (req : Nat) : Nat × Nat × Nat :=
  let rs := (c.arbs.filter fun p => ks.contains p.1).filterMap fun p => p.2.reqs[req]?
  (min (rs.map (·.grants)).sum (2 ^ 48 - 1), min (rs.map (·.waits)).sum (2 ^ 48 - 1),
    (rs.map (·.longest)).foldl max 0)

/-- Capture the five counter fields into registers (R288). -/
def Ctl.capture (c : Ctl) (v : Nat × Nat × Nat) (gl gh wl wh : Nat) : Ctl :=
  (((c.setReg gl (word v.1)).setReg gh (word (v.1 / 2 ^ 32 + v.2.2 * 2 ^ 16))).setReg wl (word v.2.1)).setReg wh
    (word (v.2.1 / 2 ^ 32))

/-- An arbiter whose counters have been cleared; an open run restarts from zero (R288). -/
def Arb.cleared (a : Arb) : Arb :=
  { a with reqs := a.reqs.map fun r => { r with run := 0, grants := 0, waits := 0, longest := 0 } }

/-- Clear the counters of some arbiters (R288). -/
def Ctl.clearCounters (c : Ctl) (ks : List Nat) : Ctl :=
  { c with arbs := c.arbs.map fun p => if ks.contains p.1 then (p.1, p.2.cleared) else p }

/-- CNT_GRANT_LO_READ of a slice or of the block (R288): the captured counters of the selected requester. -/
def Ctl.readCounters (c : Ctl) (blockWide : Bool) (n : Nat) : Ctl :=
  if blockWide then
    c.capture (c.counterSum (c.blockArbs (c.rf rARB_BSEL 8 2) (c.rf rARB_BSEL 0 3)) (c.rf rARB_BSEL 12 4))
      rBCNT_GRANT_LO rBCNT_GRANT_HI rBCNT_WAIT_LO rBCNT_WAIT_HI
  else
    c.capture (c.counterSum (sliceArbs n (c.rf (rARB_SEL n) 8 2)) (c.rf (rARB_SEL n) 12 4))
      (rCNT_GRANT_LO n) (rCNT_GRANT_HI n) (rCNT_WAIT_LO n) (rCNT_WAIT_HI n)

/-- Clear the counters of the selected KIND of a slice (Table 9.7). -/
def Ctl.clearSliceArbs (c : Ctl) (n : Nat) : Ctl := c.clearCounters (sliceArbs n (c.rf (rARB_SEL n) 8 2))

/-- Clear the counters of the selected KIND of the block (Table 9.7). -/
def Ctl.clearBlockArbs (c : Ctl) : Ctl :=
  c.clearCounters (match c.rf rARB_BSEL 8 2 with
    | 0 => (List.range c.part.channels).map (4000 + ·)
    | 1 => [20000]
    | _ => [])

/-- CNT_GRANT_LO_READ (R288). -/
def execCntGrantLoRead (blockWide : Bool) (slice : Nat) (id : Byte) (s : State) : Res :=
  ctlStep (.cntGrantLoRead blockWide slice id) s fun c =>
    let off := if blockWide then rBCNT_GRANT_LO else rCNT_GRANT_LO slice
    let v (c : Ctl) : Ctl := let c := c.readCounters blockWide slice
      { c with regRdata := c.reg off }
    { c with regRdata := 0 }.access id off true v

/-- ARB_CNT_CLEAR (R288). -/
def execArbCntClear (slice : Nat) (id : Byte) (s : State) : Res :=
  ctlStep (.arbCntClear slice id) s fun c =>
    c.access id (rARB_CNT_CLEAR slice) true fun c => { c.clearSliceArbs slice with regRdata := 0 }

/-- ARB_BCNT_CLEAR (R288). -/
def execArbBcntClear (id : Byte) (s : State) : Res :=
  ctlStep (.arbBcntClear id) s fun c =>
    c.access id rARB_BCNT_CLEAR true fun c => { c.clearBlockArbs with regRdata := 0 }

end Sys2Proof.Machine
end

