-- ==== Sys2Proof/Machine/Operands.lean ====
section
/-!
DEFINITION. The operand forms of descriptors: field maps (Tables 4.4 to 4.13, 12.3), the form check (R135), the checks
of Table 2.3 and of each kind, unit checks (Table 5.6), footprints (R259), addresses (R249).
-/
namespace Sys2Proof.Machine

/-- The outcome of checks: none, or the status and detail of the first that fails. -/
abbrev Chk := Option (Nat × Nat)

/-- The first failure of a list of (holds, status, detail) in order. -/
def firstFail : List (Bool × Nat × Nat) → Chk
  | [] => none
  | (ok, st, de) :: t => if ok then firstFail t else some (st, de)

/-! ### Shapes -/

/-- Rows of a shape word (Table 2.1). -/
def shRows (w : Word) : Nat := fld w 0 10 + 1
/-- Base-2 logarithm of the span. -/
def shSpanLog (w : Word) : Nat := fld w 12 3
/-- Span. -/
def shSpan (w : Word) : Nat := 2 ^ shSpanLog w
/-- Element format number (Table 2.4). -/
def shFmt (w : Word) : Nat := fld w 16 5
/-- Modulus entry of row i (R59). -/
def modEntry (m : Word) (i : Nat) : Nat := fld m 0 6 + (i / 2 ^ fld m 16 4) % (fld m 8 6 + 1)
/-- Access width of a format (Table 2.4, R77). -/
def fmtWidth (f : Nat) : Nat := if f = 7 then 68 else if f = 8 then 132 else 64
/-- Block bytes of a format (R250). -/
def fmtBlock (f : Nat) : Nat := if f = 7 then 476 else if f = 8 then 396 else 512
/-- Words of a block that are not pad words (R70). -/
def fmtWords (f : Nat) : Nat := fmtBlock f / 4

/-- Modulus of row i under a modulus word, from a sampled table (R75). -/
def modulusOf (mods : List Word) (m : Word) (i : Nat) : Nat := (mods.getD (modEntry m i) 0).toNat

/-- A tile that a descriptor names: role (as `Src.role`, 9 for the destination), name, word index of its shape. -/
structure TileRef where
  role : Nat
  name : Nat
  at_ : Nat
  deriving DecidableEq, Repr

/-- The tiles of a descriptor, present ones only, sources first (Tables 4.6 to 4.13). -/
def Desc.tiles (d : Desc) : List TileRef :=
  let w := d.w
  let nm (i lo : Nat) := fld (w i) lo 14
  match d.kind with
  | 1 => (if bit (w 2) 14 then [⟨0, nm 2 0, 4⟩] else []) ++ (if bit (w 2) 30 then [⟨1, nm 2 16, 6⟩] else []) ++
      (if bit (w 3) 14 then [⟨2, nm 3 0, 8⟩] else []) ++ [⟨9, nm 3 16, 10⟩]
  | 2 => [⟨9, nm 2 0, 4⟩]
  | 3 => [⟨0, nm 2 0, 4⟩]
  | 4 => (if bit (w 1) 8 then [⟨0, nm 2 0, 4⟩] else []) ++ (if bit (w 1) 9 then [⟨9, nm 6 0, 8⟩] else [])
  | 5 | 6 | 7 => [⟨0, nm 2 0, 4⟩, ⟨1, nm 2 16, 6⟩, ⟨9, nm 3 16, 8⟩]
  | 8 => [⟨0, nm 2 0, 4⟩, ⟨9, nm 2 16, 6⟩]
  | 9 => if bit (w 1) 8 then [⟨9, nm 2 0, 4⟩] else []
  | 10 => [⟨0, nm 2 0, 4⟩] ++ (if bit (w 1) 10 then [⟨1, nm 2 16, 6⟩] else []) ++ [⟨9, nm 3 16, 8⟩]
  | 12 => [⟨9, nm 2 0, 4⟩]
  | 13 | 14 => [⟨0, nm 2 0, 0⟩]
  | _ => []

/-- Names read (Table 4.14); scatters read D as well (R93). -/
def Desc.reads (d : Desc) : List Nat :=
  (d.tiles.filter fun t => t.role ≠ 9 || d.kind = 6 || d.kind = 7).map (·.name)

/-- Names written (Table 4.14). -/
def Desc.writes (d : Desc) : List Nat :=
  if d.kind = 13 then d.tiles.map (·.name) else (d.tiles.filter (·.role = 9)).map (·.name)

/-- The destination tile reference. -/
def Desc.dRef (d : Desc) : Option TileRef := d.tiles.find? (·.role = 9)
/-- Shape word of the destination, or of a key stream (Table 4.11). -/
def Desc.dShape (d : Desc) : Word := match d.dRef with
  | some t => d.w t.at_
  | none => if d.kind = 9 then d.w 4 else 0
/-- Modulus word of the destination, or of a key stream. -/
def Desc.dModulus (d : Desc) : Word := match d.dRef with
  | some t => d.w (t.at_ + 1)
  | none => if d.kind = 9 then d.w 5 else 0
/-- A source by role. -/
def Desc.src? (d : Desc) (role : Nat) : Option Src := d.srcs.find? (·.role = role)
/-- Shape word of a tile by role. -/
def Desc.shapeOf (d : Desc) (role : Nat) : Word := match d.tiles.find? (·.role = role) with
  | some t => d.w t.at_
  | none => 0
/-- Is it a streamed KEYSTREAM (R138)? -/
def Desc.isStream (d : Desc) : Bool := d.kind = 9 && !bit (d.w 1) 8
/-- Is it a TILE_OP with C_KEY set? -/
def Desc.takesKey (d : Desc) : Bool := d.kind = 1 && bit (d.w 3) 15
/-- A 64-bit address in two words. -/
def Desc.addr (d : Desc) (i : Nat) : Addr := BitVec.ofNat 64 ((d.w i).toNat + 2 ^ 32 * (d.w (i + 1)).toNat)

/-! ### Form check (R135) -/

/-- Bits that may be set in a shape word, and in a modulus word (Tables 2.1, 2.2). -/
def shapeBits : Word := 0x001F73FF
/-- Bits that may be set in a modulus word. -/
def modulusBits : Word := 0x010F3F3F

/-- The bits that each of words 1 to 15 may set, by kind (Tables 4.4 to 4.13, 12.3). A bit of Tables 4.8 to 4.12 that lies in no
listed field, and that the table does not mark reserved, is taken as reserved (R134; DESIGN CHOICE, log entry 93). -/
def Desc.allowed (d : Desc) : List Word :=
  let all : Word := 0xFFFFFFFF
  let sm := [shapeBits, modulusBits]
  let side (tile : Bool) : List Word := if tile then [0x3FFF, 0] ++ sm else [all, all, all, 0]
  match d.kind with
  | 0 => [0x7]
  | 1 => [0xFFFFFF07, 0x7FFF7FFF, 0x3FFFFFFF] ++ sm ++ sm ++ sm ++ sm
  | 2 | 3 => [0x7, 0x3FFF, 0] ++ sm ++ [all, all, all, all, all, all]
  | 4 => [0x001F0707] ++ side (bit (d.w 1) 8) ++ side (bit (d.w 1) 9) ++ [0xFFFFF, 0xFFFFFF, 0xFFFFF, 0xFFFFFF, all]
  | 5 => [0x7, 0x3FFF3FFF, 0x3FFF0000] ++ sm ++ sm ++ sm ++ [all, all]
  | 6 | 7 => [0x7, 0x3FFF3FFF, 0x3FFF0000] ++ sm ++ sm ++ sm ++ [0, all]
  | 8 => [0x001F0F07, 0x3FFF3FFF, all] ++ sm ++ sm ++
      (match fld (d.w 1) 8 2 with
       | 0 => [0x3FFFFFFF, 0x3FFFFFFF, 0x3FFFFFFF, 0x01FFFFFF, 0x007FFFFF]
       | 1 => [all, all]
       | _ => [0xFFFF, 0xFFFF])
  | 9 => [0x0707, 0x3FFF, all] ++ sm ++ List.replicate 10 all
  | 10 => [0x0707, 0x3FFF3FFF, 0x3FFF0000] ++ sm ++ sm ++ sm
  | 11 => [0x0307, 0xFF, all, all]
  | 12 => [0x7, 0x3FFF, 0] ++ sm
  | 13 => [0x7, 0x3FFF]
  | 14 => [0x7F07, 0x3FFF, 0, all, all]
  | _ => [0xFF07] ++
      (match fld (d.w 1) 8 8 with
       | 1 => [all, all, all, 0xFF]
       | 2 => [0, 0, 0, 0xFF]
       | 3 => [all, all, 0xFFF, 0x73F, all, all, 0x7FF, all, all]
       | 4 => [all, all, 0x7FF]
       | 5 => [0, 0, 0, 0x1]
       | 6 => [0, 0, 0, 0x1F]
       | _ => [])

/-- Are only allowed bits set in words 1 to 15? -/
def Desc.reservedOk (d : Desc) : Bool :=
  (List.range 15).all fun i => (d.w (i + 1) &&& ~~~(d.allowed.getD i 0)) = 0

/-- BIT_MAP entry e (Table 4.10). -/
def Desc.bitMap (d : Desc) (e : Nat) : Nat := fld (d.w (8 + e / 6)) (5 * (e % 6)) 5

/-- The ranges of a shape and modulus pair (Tables 2.1, 2.2). -/
def pairOk (d : Desc) (i : Nat) : Bool := fld (d.w i) 12 3 ≤ 6 && fld (d.w (i + 1)) 16 4 ≤ 10

/-- Words that must be zero. -/
def zeroW (d : Desc) (is : List Nat) : Bool := is.all fun i => d.w i = 0

/-- The ranges and zero fields of each kind (R135, R257, R261, R371, R177, R198). -/
def Desc.rangesOk (d : Desc) : Bool :=
  let w := d.w
  (bit (w 1) 0 || fld (w 0) 8 8 = 0) &&
  match d.kind with
  | 1 => !(bit (w 3) 15 && bit (w 3) 14) && fld (w 1) 8 8 ∉ [0, 0xFF] &&
      (bit (w 2) 14 || (fld (w 2) 0 14 = 0 && zeroW d [4, 5])) &&
      (bit (w 2) 30 || (fld (w 2) 16 14 = 0 && zeroW d [6, 7])) &&
      (bit (w 3) 14 || (fld (w 3) 0 14 = 0 && (bit (w 3) 15 || zeroW d [8, 9]))) &&
      pairOk d 4 && pairOk d 6 && pairOk d 8 && pairOk d 10
  | 2 | 3 | 9 | 12 => pairOk d 4 &&
      (d.kind ≠ 9 ||
        ((bit (w 1) 8 || fld (w 2) 0 14 = 0) && (!bit (w 1) 9 || zeroW d [3, 6, 7]) &&
         (bit (w 1) 9 || zeroW d [8, 9, 10, 11, 12, 13, 14, 15]) && !(bit (w 1) 8 && bit (w 1) 10)))
  | 4 => fld (w 10) 0 20 ≤ 1024 && fld (w 12) 0 20 ≤ 1024 && fld (w 11) 0 24 ≤ 0x00FFFFC0 &&
      fld (w 13) 0 24 ≤ 0x00FFFFC0 && (!bit (w 1) 8 || (zeroW d [10, 11] && pairOk d 4)) &&
      (!bit (w 1) 9 || (zeroW d [12, 13] && pairOk d 8)) && (!(bit (w 1) 8 || bit (w 1) 9) || fld (w 1) 16 5 = 0)
  | 5 | 6 | 7 => pairOk d 4 && pairOk d 6 && pairOk d 8
  | 8 => fld (w 1) 16 5 ≤ 23 && fld (w 1) 8 2 ≠ 3 && pairOk d 4 && pairOk d 6 &&
      (fld (w 1) 8 2 ≠ 0 || (List.range 23).all fun e => d.bitMap e ≤ 22)
  | 10 => fld (w 1) 8 2 ≠ 3 && pairOk d 4 && pairOk d 6 && pairOk d 8 &&
      (bit (w 1) 10 || (fld (w 2) 16 14 = 0 && zeroW d [6, 7]))
  | 15 =>
      let ty := fld (w 5) 4 4
      let slot := fld (w 5) 0 4
      (match fld (w 1) 8 8 with
       | 1 | 2 => 1 ≤ ty && ty ≤ 3 && (ty = 2 || slot = 0)
       | 3 => 1 ≤ fld (w 8) 0 11 && fld (w 8) 0 11 ≤ 2046
       | 4 => 1 ≤ fld (w 4) 0 11 && fld (w 4) 0 11 ≤ 1024
       | 5 => true
       | 6 => fld (w 5) 0 5 = 0 || 4 ≤ fld (w 5) 0 5
       | _ => false)
  | _ => true

/-- The form check (R135). -/
def Desc.formOk (d : Desc) : Bool := d.reservedOk && d.rangesOk

/-- May the ring's domain use a token (R150)? -/
def Ctl.tokenOk (c : Ctl) (dom t : Nat) : Bool :=
  bit (c.reg (rTOKEN_CFG t)) 8 || c.rf (rTOKEN_CFG t) 0 6 = dom

/-- Form and token checks (R135). -/
def Ctl.formCheck (c : Ctl) (d : Desc) : Chk :=
  firstFail [(d.formOk, 0x10, 1),
    ((!bit (d.w 1) 0 || c.tokenOk d.domain (fld (d.w 0) 8 8)) &&
      !(d.kind = 11 && bit (d.w 1) 9 && !c.tokenOk d.domain (fld (d.w 2) 0 8)), 0x14, 2)]

/-! ### Table 2.3 -/

/-- Formats a kind accepts (Table 2.7). -/
def kindFmtOk (kind f : Nat) : Bool :=
  match kind with
  | 5 | 6 | 8 => f ≤ 6
  | 7 => f ≤ 3
  | 10 => f = 3
  | 9 => f = 0
  | _ => true

/-- A VALID alias entry for a local name (R210). -/
def Ctl.quoinEntry (c : Ctl) (n : Nat) : Option Nat :=
  (List.range 16).find? fun a => bit (c.reg (rQUOIN_ALIAS_A a)) 31 && c.rf (rQUOIN_ALIAS_A a) 0 14 = n

/-- Shape and modulus pairs to check: those of the tiles, and of a key stream. -/
def Desc.pairs (d : Desc) : List Nat :=
  (d.tiles.filter (·.at_ ≠ 0)).map (·.at_) ++
  (if d.isStream then [4] else if d.takesKey then [8] else [])

/-- Check 3: spans accepted, rows and spans fit (R42, R60, R214, R228, R258). Span against span is checked where the kind
asks for equal spans; rows of sources are the destination's or one. `recd` gives the recorded shape. -/
def Ctl.check3 (c : Ctl) (d : Desc) (recd : TileRef → Option Word) : Chk :=
  let mask := c.part.slices * 2 - 1
  let sp (i : Nat) := shSpanLog (d.w i)
  let dsh := d.dShape
  let same : Bool := d.kind = 4 || d.pairs.all fun i => d.kind = 3 || sp i = shSpanLog dsh
  let rowsOk : Bool := d.kind ∉ [1, 8, 10] ||
    d.pairs.all fun i => shRows (d.w i) = shRows dsh || shRows (d.w i) = 1
  firstFail [
    (d.pairs.all fun i => mask.testBit (sp i), 0x10, 2),
    (d.tiles.all (fun t => t.at_ = 0 || match recd t with
      | some r => shRows r = shRows (d.w t.at_) && shSpanLog r = sp t.at_
      | none => true) && same && rowsOk, 0x10, 3)]

/-- Check 4 for one pair: format known, R58, R59, R76 and Table 2.7. -/
def Ctl.fmtOk (c : Ctl) (kind : Nat) (sh m : Word) : Bool :=
  let f := shFmt sh
  f ≤ 8 && kindFmtOk kind f && (f = 0 || fld m 0 20 = 0) && (f = 8 || !bit m 24) &&
  (f ≠ 0 || (fld m 0 6 + fld m 8 6 ≤ 63 &&
    (List.range (fld m 8 6 + 1)).all fun e => c.reg (rMODQ_ACTIVE (fld m 0 6 + e)) ≠ 0))

/-- Check 4 of Table 2.3 with the parts of R192, R257 and R258. -/
def Ctl.check4 (c : Ctl) (d : Desc) (recd : TileRef → Option (Word × Word)) : Chk :=
  firstFail [(d.pairs.all (fun i => c.fmtOk d.kind (d.w i) (d.w (i + 1))) &&
    d.tiles.all (fun t => t.at_ = 0 || match recd t with
      | some (r, m) => shFmt r = shFmt (d.w t.at_) && m = d.w (t.at_ + 1)
      | none => true) &&
    (d.kind ≠ 8 || !bit (d.w 1) 10 || (shFmt (d.w 4) = 0 && shFmt (d.w 6) = 0)) &&
    (d.kind ≠ 4 || (if bit (d.w 1) 8 && bit (d.w 1) 9 then shFmt (d.w 4) = shFmt (d.w 8)
      else bit (d.w 1) 8 || bit (d.w 1) 9 || fld (d.w 1) 16 5 ≤ 8)), 0x12, 0)]

/-- The access width that check 5 applies (R77, R257). -/
def Desc.width (d : Desc) : Nat :=
  match d.kind with
  | 4 => fmtWidth (if bit (d.w 1) 8 then shFmt (d.w 4) else if bit (d.w 1) 9 then shFmt (d.w 8) else fld (d.w 1) 16 5)
  | _ => fmtWidth (shFmt (d.w 4))

/-- Check 5: alignment of every address and stride (R77, R257). Signed strides are aligned when their value is. -/
def Desc.check5 (d : Desc) : Chk :=
  let a := d.width
  let ad (i : Nat) : Bool := (d.addr i).toNat % a = 0
  let st (i : Nat) : Bool := (d.w i).toInt % (a : Int) = 0
  let ok : Bool := match d.kind with
    | 2 | 3 => ad 6 && st 8 && st 9
    | 4 => (bit (d.w 1) 8 || (ad 2 && st 4 && fld (d.w 11) 0 24 % a = 0)) &&
        (bit (d.w 1) 9 || (ad 6 && st 8 && fld (d.w 13) 0 24 % a = 0))
    | 9 => bit (d.w 1) 9 || (ad 6 && st 3)
    | _ => true
  firstFail [(ok, 0x11, 0)]

/-- Checks 1 and 2: every named tile LIVE, of the descriptor's domain (R52). -/
def Ctl.check12 (c : Ctl) (d : Desc) (ts : List TileRef) : Chk :=
  firstFail [(ts.all fun t => (c.name t.name).live && (c.quoinEntry t.name).isNone, 0x13, 0),
    (ts.all fun t => (c.name t.name).domain = d.domain, 0x14, 1)]

/-- The recorded words of a local tile. -/
def Ctl.recorded (c : Ctl) (t : TileRef) : Option (Word × Word) := some ((c.name t.name).shape, (c.name t.name).modulus)

/-- The five checks of Table 2.3 for a descriptor whose tiles are local (R61). -/
def Ctl.tileChecks (c : Ctl) (d : Desc) : Chk :=
  (if d.kind = 12 then
    firstFail [(d.tiles.all fun t => !(c.name t.name).live && (c.quoinEntry t.name).isNone, 0x13, 0)]
   else c.check12 d d.tiles) <|>
  c.check3 d (fun t => if d.kind = 12 then none else (c.recorded t).map (·.1)) <|>
  c.check4 d (fun t => if d.kind = 12 then none else c.recorded t) <|> d.check5

/-! ### Checks of a kind -/

/-- Poison of a name read (R302); FREE and PIN do not check it, nor does a service (R372). -/
def Ctl.poisonCheck (c : Ctl) (d : Desc) : Chk :=
  firstFail [(d.kind ∈ [13, 14, 15] || d.reads.all fun n => (c.name n).poison.isNone, 0x30, 0)]

/-- Unit checks 6 to 9 against a class record (Table 5.6). -/
def unitChecks (cap : List Word) (d : Desc) : Chk :=
  let c0 := cap.getD 1 0
  let c1 := cap.getD 2 0
  let c3 := cap.getD 3 0
  let fmts (role : Nat) : Nat := match role with
    | 0 => fld c0 0 9 | 1 => fld c0 16 9 | _ => fld c1 0 9
  let srcs : List (Nat × Nat) := (d.tiles.filter (·.role ≠ 9)).map (fun t => (t.role, t.at_)) ++
    (if d.takesKey then [(2, 8)] else [])
  firstFail [
    ((fld c3 0 7).testBit (shSpanLog d.dShape), 0x10, 2),
    (srcs.all fun s => !(shRows (d.w s.2) = 1 && shRows d.dShape > 1) || bit c3 (8 + s.1), 0x10, 3),
    (srcs.all fun s => (fmts s.1).testBit (shFmt (d.w s.2)), 0x12, 0),
    ((fld c1 16 9).testBit (shFmt d.dShape), 0x12, 0)]

/-- Length of a shape in words (R190). -/
def shLen (w : Word) : Nat := shRows w * 128 * shSpan w

/-- Kind checks of Table 7.1. -/
def Desc.indexChecks (d : Desc) : Chk :=
  let s := d.w 4
  let x := d.w 6
  let t := d.w 8
  match d.kind with
  | 5 | 6 | 7 =>
    let elem := if d.kind = 5 then t else s
    let addressed := if d.kind = 5 then s else t
    firstFail [(shRows x = shRows elem && shSpanLog x = shSpanLog elem, 0x10, 3),
      ((d.w 11).toNat ≤ shLen addressed, 0x10, 3), (shFmt x = 2, 0x12, 0),
      (d.kind ≠ 7 || shFmt s = shFmt t, 0x12, 0)]
  | 10 => firstFail [(shRows t = shRows s && (!bit (d.w 1) 10 || shRows x = shRows s || shRows x = 1), 0x10, 3)]
  | _ => none

/-- Route checks of Table 6.4. -/
def Ctl.routeChecks (c : Ctl) (d : Desc) : Chk :=
  let rk := fld (d.w 1) 8 2
  let n := fld (d.w 1) 16 5
  let neg := bit (d.w 1) 10
  let perm : Bool := (List.range n).all fun v => (List.range n).any fun e => d.bitMap e = v
  let high : Bool := ((List.range 23).all fun e => e < n || d.bitMap e = 0) && (d.w 12).toNat < 2 ^ n
  let lib := fld (d.w 9) 0 16
  let progs := Tab.get [] c.net.libs lib
  let pr := progs[fld (d.w 8) 0 16]?
  let m := 2 ^ n
  firstFail [
    (rk ≠ 0 || perm, 0x60, 1), (rk ≠ 0 || high, 0x60, 2), (rk ≠ 0 || !neg, 0x60, 3),
    (rk ≠ 1 || bit (d.w 8) 0, 0x60, 4),
    (rk ≠ 2 || (lib ≤ 15 && bit (c.reg (rLIB_INFO lib)) 31 && pr.isSome), 0x60, 5),
    (rk ≠ 2 || (pr.map (·.log2n)) = some n, 0x60, 6), (rk ≠ 2 || (pr.map (·.negate)) = some neg, 0x60, 7),
    (!bit (d.w 1) 11 || (shLen (d.w 6) + m - 1) / m * m ≤ shLen (d.w 4), 0x51, 0)]

/-! ### Memory sides -/

/-- Block stride: BLOCK_STRIDE, or packed when 0 (R249). -/
def Desc.blockStride (d : Desc) : Int :=
  if d.kind = 9 || d.w 9 = 0 then fmtBlock (shFmt (d.w 4)) else (d.w 9).toInt

/-- Virtual address of block b of row i of a LOAD, STORE or stored KEYSTREAM (R249, R262). -/
def Desc.blockVa (d : Desc) (i b : Nat) : Addr :=
  let rs := if d.kind = 9 then d.w 3 else d.w 8
  d.addr 6 + BitVec.ofInt 64 (i * rs.toInt + b * d.blockStride)

/-- A side of a RELAYOUT (R254): is it a tile, its rows, its row bytes. -/
def Desc.side (d : Desc) (dst : Bool) : Bool × Nat × Nat :=
  let sh := d.w (if dst then 8 else 4)
  if bit (d.w 1) (if dst then 9 else 8) then (true, shRows sh, shSpan sh * fmtBlock (shFmt sh))
  else (false, fld (d.w (if dst then 12 else 10)) 0 20, fld (d.w (if dst then 13 else 11)) 0 24)

/-- Address of row r of a memory side (R254). -/
def Desc.sideVa (d : Desc) (dst : Bool) (r : Nat) : Addr :=
  d.addr (if dst then 6 else 2) + BitVec.ofInt 64 (r * (d.w (if dst then 8 else 4)).toInt)

/-- A footprint from base, rows, row stride, blocks, block stride and bytes per block: lowest and highest byte addressed, none
when it addresses nothing (R259). Addresses are modulo 2^64 (R239): a side that passes the end of the space is taken block by
block. -/
def footprint (base : Nat) (rows : Nat) (rs : Int) (blocks : Nat) (bs : Int) (len : Nat) : Option (Int × Int) :=
  if rows = 0 || blocks = 0 || len = 0 then none
  else
    let r : Int := (rows - 1 : Nat) * rs
    let b : Int := (blocks - 1 : Nat) * bs
    let m : Int := 2 ^ 64
    let lo : Int := base + min 0 r + min 0 b
    let hi : Int := base + max 0 r + max 0 b + len - 1
    if lo / m = hi / m then some (lo % m, hi % m)
    else
      let at_ := (List.range rows).flatMap fun i => (List.range blocks).map fun j => ((base + i * rs + j * bs : Int) % m)
      if at_.any fun a => m < a + len then some (0, m - 1)
      else some (at_.foldl min m, at_.foldl max 0 + len - 1)

/-- The memory footprints of a descriptor (R259); the second of a RELAYOUT is its destination. -/
def Desc.footprints (d : Desc) : List (Option (Int × Int)) :=
  match d.kind with
  | 2 | 3 => [footprint (d.addr 6).toNat (shRows (d.w 4)) (d.w 8).toInt (shSpan (d.w 4)) d.blockStride
      (fmtBlock (shFmt (d.w 4)))]
  | 9 => if bit (d.w 1) 9 then [] else
      [footprint (d.addr 6).toNat (shRows (d.w 4)) (d.w 3).toInt (shSpan (d.w 4)) d.blockStride 512]
  | 4 =>
    let one (dst : Bool) :=
      let s := d.side dst
      if s.1 then none else footprint (d.addr (if dst then 6 else 2)).toNat s.2.1
        (d.w (if dst then 8 else 4)).toInt 1 0 s.2.2
    [one false, one true]
  | _ => []

/-- Do two footprints share a byte? -/
def overlap : Option (Int × Int) → Option (Int × Int) → Bool
  | some (a, b), some (x, y) => a ≤ y && x ≤ b
  | _, _ => false

/-- The overlap check of a RELAYOUT (R259, R260). -/
def Ctl.overlapCheck (c : Ctl) (d : Desc) : Chk :=
  let dst := d.footprints.getD 1 none
  let src := d.footprints.getD 0 none
  let live := (c.descs.filter fun e => e.live5 && e.domain = d.domain && e.key ≠ d.key && e.kind ∈ [2, 3, 4, 9]).flatMap
    (·.footprints)
  let allowed := bit (d.w 1) 10 && bit (c.reg rKS_CTL_ACT) 0
  firstFail [(allowed || !(overlap dst src || live.any (overlap dst)), 0x50, 0)]

end Sys2Proof.Machine
end

