-- ==== Sys2Proof/Machine/Place.lean ====
section
/-!
DEFINITION. Keystone: placement (R104, R106, R116, R119), migrations (R113, R114, R117) and reviews (R108, Table 3.4).
-/
namespace Sys2Proof.Machine

/-! ### Placement -/

/-- May Keystone allocate the slot: FREE, not condemned (R297), and not promised to an ALLOC that has been granted its slots? -/
def Ctl.slotFree (c : Ctl) (k : Nat) : Bool :=
  (c.slot k).state = .free && !(c.slot k).condemned && (c.slot k).owner = .none

/-- The in-service slices, ascending. -/
def Ctl.services (c : Ctl) : List Nat := (List.range c.slicesN).filter c.isIn

/-- Lowest row lines from `row` on whose slots at bank offset o are FREE, `need` of them at most (R106). -/
def Ctl.findFree (c : Ctl) (n o : Nat) : Nat → Nat → Nat → List (Nat × Nat)
  | 0, _, _ => []
  | fuel + 1, row, need =>
    if need = 0 then []
    else if (fragSlots n o row).all c.slotFree then (o, row) :: c.findFree n o fuel (row + 1) (need - 1)
    else c.findFree n o fuel (row + 1) need

/-- Bank offset and row of `need` fragments on a slice from home quarter q on: quarters q, q + 1, q + 2, q + 3 (R106). -/
def Ctl.fragPlaces (c : Ctl) (n q need : Nat) : List (Nat × Nat) :=
  (List.range 4).foldl (fun acc i =>
    if acc.length < need then acc ++ c.findFree n (8 * ((q + i) % 4)) 2048 0 (need - acc.length) else acc) []

/-- A fragment table on a list, in row-major order of fragments; none where a slice lacks the slots. A pinned offset
admits no other (R116). -/
def Ctl.placeOn (c : Ctl) (list : List Nat) (f home rows span : Nat) (offset : Option Nat) : Option FragTable :=
  let need := f * rows
  let places := list.map fun n => match offset with
    | some o => c.findFree n o 2048 0 need
    | none => c.fragPlaces n home need
  if places.all (·.length = need) then
    some { list := list, fold := f, home := home, span := span, rows := rows,
           frags := (List.range (rows * span)).map fun i =>
             (places.getD (i % span / f) []).getD (i / span * f + i % span % f) (0, 0) }
  else none

/-- The hash of deterministic placement (R119). -/
def Ctl.placeHash (c : Ctl) (name : Nat) : Nat := (name ^^^ c.rf rKS_SEED 16 16) * 40503 % 65536

/-- The list of a pin: its lowest s/f in-service slices, none when it holds fewer (R116, R117). -/
def Ctl.pinList (c : Ctl) (p : Pin) (n : Nat) : Option (List Nat) :=
  let l := c.services.filter fun s => p.mask.getLsbD s
  if n ≤ l.length then some (l.take n) else none

/-- Has a list room: f × rows FREE slots on each of its slices, all in service (R104)? -/
def Ctl.hasRoom (c : Ctl) (list : List Nat) (need : Nat) : Bool := list.all fun n => c.isIn n && need ≤ c.freeOn n

/-- The n in-service slices with the most FREE slots, ties to the lower, ascending (R104 rule 6). -/
def Ctl.emptiest (c : Ctl) (n : Nat) : List Nat :=
  let order := sortBy (fun a b => c.freeOn b < c.freeOn a || (c.freeOn a = c.freeOn b && a ≤ b)) c.services
  sortBy (fun a b => a ≤ b) (order.take n)

/-- Is the name's pin kept but not honoured (R117)? -/
def NameRec.pinBroken (r : NameRec) : Bool := r.pin.any (·.broken)

/-- The list that the name's pin gives, none without a pin that is honoured (R104 rule 2, R117). -/
def Ctl.pinnedList (c : Ctl) (r : NameRec) (n : Nat) : Option (List Nat) :=
  r.pin.bind fun p => if p.broken then none else c.pinList p n

/-- The slice list of a placement (R104, R119), none when a rule's list does not exist. A pin that is not honoured leaves rules
4 to 6 (R117). -/
def Ctl.chooseList (c : Ctl) (name rows span f : Nat) (srcs : List Src) : Option (List Nat) :=
  let n := span / f
  let need := f * rows
  let r := c.name name
  let own := r.live && r.table.fold = f && c.hasRoom r.table.list need
  let ser := c.services
  if ser.length < n || n = 0 then none
  else if c.det then some ((List.range n).map fun j => ser.getD ((c.placeHash name + j) % ser.length) 0)
  else match c.pinnedList r n with
    | some l => some l
    | none =>
      if c.freeze && own && !r.pinBroken then some r.table.list
      else match srcs.find? fun s => s.table.span = span && s.table.fold = f && c.hasRoom s.table.list need with
        | some s => some s.table.list
        | none => if own then some r.table.list else some (c.emptiest n)

/-- Does a table share a slice with a list (R106)? -/
def onList (list : List Nat) (t : FragTable) : Bool := t.list.any list.contains

/-- Score of a quarter (R106). -/
def Ctl.quarterScore (c : Ctl) (name : Nat) (list : List Nat) (srcs : List Src) (q : Nat) : Nat :=
  4 * (srcs.filter fun s => onList list s.table && s.table.home = q).length +
    ((c.name name).partners.filter fun m => onList list (c.name m).table && (c.name m).table.home = q).length

/-- The quarter of lowest score, ties to the lower (R106). -/
def Ctl.bestQuarter (c : Ctl) (name : Nat) (list : List Nat) (srcs : List Src) : Nat :=
  let sc := c.quarterScore name list srcs
  (List.range 4).foldl (fun b q => if sc q < sc b then q else b) 0

/-- The pinned bank offset that applies (R116, R117); none in deterministic mode (R119). -/
def Ctl.pinOffset (c : Ctl) (name span f : Nat) : Option Nat :=
  if c.det || (c.pinnedList (c.name name) (span / f)).isNone then none else (c.name name).pin.bind (·.offset)

/-- The home quarter of a placement on a list (R106, R116, R118, R119). -/
def Ctl.chooseHome (c : Ctl) (name span f : Nat) (list : List Nat) (srcs : List Src) : Nat :=
  if c.det then c.placeHash name / 2 ^ 14
  else match c.pinOffset name span f with
    | some o => o / 8
    | none => if c.freeze && (c.name name).live then (c.name name).table.home else c.bestQuarter name list srcs

/-- A placement of a tile (R104, R106): none when it does not succeed. -/
def Ctl.place (c : Ctl) (name rows span : Nat) (srcs : List Src) : Option FragTable :=
  let f := c.foldFor span
  (c.chooseList name rows span f srcs).bind fun list =>
    c.placeOn list f (c.chooseHome name span f list srcs) rows span (c.pinOffset name span f)

/-- Is some fragment outside the home quarter (R106)? -/
def FragTable.displaced (t : FragTable) : Bool := t.frags.any fun p => p.1 / 8 ≠ t.home

/-! ### Migrations -/

/-- Is the name being migrated? -/
def Ctl.migrating (c : Ctl) (n : Nat) : Bool := c.migs.any (·.name = n)

/-- Begin a migration to a table (Table 3.3): FRESH slots, and a read of every fragment (step 2). -/
def Ctl.startMig (c : Ctl) (n : Nat) (dest : FragTable) (required : Bool) : Ctl :=
  let r := c.name n
  let c := c.setSlots dest.slots .fresh (.mig n)
  let m : Mig :=
    { name := n, dest := dest, commits := r.commits, copied := [], required := required, retry := false, failed := false }
  let c := { c with migs := c.migs ++ [m] }
  c.addJobs ((List.range r.table.count).map fun i =>
    { req := 11, purpose := .migRead n i, slice := (r.table.at i).1, offset := (r.table.at i).2.1, row := (r.table.at i).2.2,
      chunks := List.range 8, words := List.replicate 128 0, skip := [] })

/-- A required migration that cannot begin yet: no room, or the name is being migrated. It waits ahead of every descriptor
(R101, Table 3.3 step 1). -/
def Ctl.wantMig (c : Ctl) (n : Nat) : Ctl := if c.wanted.contains n then c else { c with wanted := c.wanted ++ [n] }

/-- Begin a required migration of a LIVE name to wherever R104 and R106 put it, or let it wait for room (R114). -/
def Ctl.requireMig (c : Ctl) (n : Nat) : Ctl :=
  let r := c.name n
  if !r.live then c
  else if c.migrating n then c.wantMig n
  else match c.place n r.table.rows r.table.span [] with
    | some t => c.startMig n t true
    | none => c.wantMig n

/-- Does a tile lie where its pin wants it (R116)? A pin without an offset wants a home quarter: no fragment lies across two. -/
def Ctl.pinMet (c : Ctl) (r : NameRec) (p : Pin) : Bool :=
  c.pinList p (r.table.span / c.foldFor r.table.span) = some r.table.list &&
    (c.det || match p.offset with
      | some o => r.table.frags.all (·.1 = o)
      | none => r.table.frags.all (·.1 % 8 = 0))

/-- Is a LIVE name away from its seeded placement (R119)? Displaced rows are part of it (R106). -/
def Ctl.astray (c : Ctl) (n : Nat) : Bool :=
  let t := (c.name n).table
  let f := c.foldFor t.span
  match c.chooseList n t.rows t.span f [] with
  | some l => !(t.fold = f && t.list = l && t.home = c.placeHash n / 2 ^ 14)
  | none => true

/-- Does a LIVE name still need a required migration: off a slice out of service (R45), to a lower fold (R44), to where its pin
wants it (R116), off a condemned slot (R297), to its seeded placement (R312)? -/
def Ctl.needsMig (c : Ctl) (n : Nat) : Bool :=
  let r := c.name n
  r.live && ((r.table.list.any fun s => !c.isIn s) || c.foldFor r.table.span < r.table.fold ||
    (r.pin.any fun p => !p.broken && !c.det && !c.pinMet r p) || (r.table.slots.any fun k => (c.slot k).condemned) ||
    (c.det && !bit (c.reg rINT_STATUS) 16 && c.astray n))

/-- Required migrations that wait begin where they can now, oldest first (R101, R113). -/
def Ctl.tryWanted (c : Ctl) : Ctl :=
  let l := c.wanted
  ({ c with wanted := [] } : Ctl).each l fun c n => if c.needsMig n then c.requireMig n else c

/-- Does a carry belong to the migration of a name? -/
def Carry.ofMig (n : Nat) : Carry → Bool
  | .mig m _ => m = n
  | _ => false

/-- Does a bank access belong to the migration of a name? -/
def Purpose.ofMig (n : Nat) : Purpose → Bool
  | .migRead m _ => m = n
  | .put cy => cy.ofMig n
  | _ => false

/-- Does a network word belong to the migration of a name? -/
def FlitWhat.ofMig (n : Nat) : FlitWhat → Bool
  | .frag cy _ => cy.ofMig n
  | _ => false

/-- Withdraw what is raised for the migration of a name. -/
def Ctl.withdrawMig (c : Ctl) (n : Nat) : Ctl :=
  let c := { c with
    jobs := c.jobs.filter (fun j => !(j.purpose.ofMig n)), migs := c.migs.filter (fun (m : Mig) => m.name ≠ n) }
  c.modNet fun x => { x with
    flits := x.flits.filter (fun f => !(f.what.ofMig n)), asm := x.asm.filter (fun a => !(a.what.ofMig n)) }

/-- Abandon a migration: its slots enter CLEARING (Table 3.3 steps 3, 4). -/
def Ctl.abandonMig (c : Ctl) (n : Nat) : Ctl :=
  let c := c.withdrawMig n
  (c.clearSlots ((c.slots.filter fun p => p.2.state = .fresh && p.2.owner = .mig n).map (·.1))).count rMIG_ABANDON 1

/-- Publish a migration: the fragment table is replaced in one update, the old slots become RETIRED (Table 3.3 step 3), and
the latches of the migrated fragments are invalid (R86). -/
def Ctl.publishMig (c : Ctl) (m : Mig) : Ctl :=
  let old := (c.name m.name).table.slots
  let c := c.withdrawMig m.name
  let c := c.setSlots m.dest.slots .mapped (.name m.name)
  let c := (c.each old fun c k => c.dropLatches k).setSlots old .retired .none
  let c := c.modName m.name fun r => { r with table := m.dest, displaced := m.dest.displaced }
  (c.count rMIG_DONE 1).reapRetired

/-- The end of a migration (Table 3.3 step 3): a required one that a commit has overtaken, or that failed, is taken again where
it is still needed (R114). -/
def Ctl.endMig (c : Ctl) (m : Mig) : Ctl :=
  if (c.name m.name).live && (c.name m.name).commits = m.commits && !m.failed then c.publishMig m
  else
    let c := c.abandonMig m.name
    if m.required && c.needsMig m.name then c.requireMig m.name else c

/-- MIGRATION_COMMIT (R113): every fragment of the name has been copied, or the copy is to be abandoned. -/
def execMigrationCommit (name : Nat) (s : State) : Res :=
  ctlStep (.migrationCommit name) s fun c =>
    match c.migs.find? (·.name = name) with
    | some m =>
      if m.dest.count ≤ m.copied.length || m.failed || (c.name name).commits ≠ m.commits then (c.endMig m).tryWanted
      else c
    | none => c

/-! ### Reviews -/

/-- FRESH slots that the destinations of a waiting descriptor need: N of R101. -/
def Desc.need (d : Desc) : Nat := ((d.tiles.filter (·.role = 9)).map fun t => shapeClaim (d.w t.at_)).sum

/-- Slots that the descriptors waiting at step 5 need together. -/
def Ctl.waitingNeed (c : Ctl) : Nat := ((c.descs.filter fun d => d.stage = .wait && d.dst.isNone).map (·.need)).sum

/-- Start an optional migration where slots and concurrency allow it (Table 3.3, Table 3.4). -/
def Ctl.optionalMig (c : Ctl) (most n : Nat) (t : Option FragTable) : Ctl :=
  match t with
  | some t =>
    if c.migrating n || most ≤ (c.migs.filter (!·.required)).length || c.freeSlots < c.waitingNeed + t.slots.length then c
    else c.startMig n t false
  | none => c

/-- A new placement on the name's own list with home quarter q; its slices must be in service (R20). -/
def Ctl.rehome (c : Ctl) (r : NameRec) (q : Nat) : Option FragTable :=
  if r.table.list.all fun n => c.isIn n then c.placeOn r.table.list r.table.fold q r.table.rows r.table.span none else none

/-- The optional migration of one name at a level (Table 3.4 levels 1 and 2). -/
def Ctl.reviewName (c : Ctl) (level most n : Nat) : Ctl :=
  let r := c.name n
  let q := c.bestQuarter n r.table.list []
  if r.pin.isSome then c
  else if c.foldFor r.table.span < r.table.fold then c.optionalMig most n (c.place n r.table.rows r.table.span [])
  else if 2 ≤ level && fld c.ksCtl 16 8 ≤ r.score && q ≠ r.table.home then c.optionalMig most n (c.rehome r q)
  else if 2 ≤ level && r.displaced then
    c.optionalMig most n ((c.rehome r r.table.home).bind fun t => if t.displaced then none else some t)
  else c

/-- LIVE names in descending score, ties to the lower name (Table 3.4). -/
def Ctl.byScore (c : Ctl) : List Nat :=
  (sortBy (fun a b => b.2.score < a.2.score || (a.2.score = b.2.score && a.1 ≤ b.1)) (c.names.filter (·.2.live))).map
    (·.1)

/-- The tiles on a slice that are neither pinned nor being migrated, narrowest span first, ties to the lower name. -/
def Ctl.movable (c : Ctl) (slice : Nat) : List Nat :=
  (sortBy (fun a b => a.2.table.span < b.2.table.span || (a.2.table.span = b.2.table.span && a.1 ≤ b.1))
    (c.names.filter fun p => p.2.live && p.2.pin.isNone && !c.migrating p.1 && p.2.table.list.contains slice)).map (·.1)

/-- The tile of narrowest span on a slice, ties to the lower name, neither pinned nor being migrated. -/
def Ctl.narrowest (c : Ctl) (slice : Nat) : Option Nat := (c.movable slice).head?

/-- A placement of a name on the slices of R104 rule 6. -/
def Ctl.placeEmptiest (c : Ctl) (n : Nat) : Option FragTable :=
  let r := c.name n
  let f := c.foldFor r.table.span
  let l := c.emptiest (r.table.span / f)
  if l.length < r.table.span / f then none
  else c.placeOn l f (c.bestQuarter n l []) r.table.rows r.table.span none

/-- Level 3: each slice with fewer than 512 FREE slots, beside another with more than 2048 (Table 3.4). -/
def Ctl.reviewBalance (c : Ctl) (most : Nat) : Ctl :=
  c.each c.services fun c n =>
    if c.freeOn n < 512 && c.services.any (fun m => 2048 < c.freeOn m) then
      match c.narrowest n with
      | some t => c.optionalMig most t (c.placeEmptiest t)
      | none => c
    else c

/-- Pins that can be honoured again are applied by required migration (R117). -/
def Ctl.reviewPins (c : Ctl) : Ctl :=
  c.each (c.names.filter fun p => p.2.live) fun c p =>
    match p.2.pin with
    | some pin =>
      if pin.broken && (c.pinList pin (p.2.table.span / c.foldFor p.2.table.span)).isSome then
        let c := c.modName p.1 fun r => { r with pin := some { pin with broken := false } }
        if c.pinMet p.2 pin then c else c.requireMig p.1
      else c
    | none => c

/-- A review: pins, optional migrations unless FREEZE or deterministic mode is in force or the block is on its way to Evening or
out of it (Table 13.6 step 2), scores halved (R108, R117, R118, R119). -/
def Ctl.keystoneReview (c : Ctl) : Ctl :=
  let level := fld c.ksCtl 4 2
  let most := if level = 0 then 0 else if level = 1 then 1 else if level = 2 then 2 else 4
  let c := c.reviewPins
  let c := if c.freeze || c.det || level = 0 || c.pstate ≠ 0 then c
    else
      let c := c.each c.byScore fun c n => c.reviewName level most n
      if level = 3 then c.reviewBalance most else c
  let c := { c with names := c.names.map fun (p : Nat × NameRec) => (p.1, { p.2 with score := p.2.score / 2 }) }
  c.modPower fun p => { p with reviewDue := false }

/-- Are reviews held: not while issue is stopped (Table 11.3 step 4), nor in Evening or Night, for which Table 13.5 lists none.
On the way there and while waking they are held, without optional migrations (Table 13.6 step 2). That none is held in Evening
itself is a DESIGN CHOICE (log entry 83): the table lists reviews neither as running nor as gated. -/
def Ctl.reviewing (c : Ctl) : Bool := !c.power.stopped && c.pstate ∉ [2, 4]

/-! ### Room for a placement (R98, R114) -/

/-- The slices that a placement needs room on: those of its pin, or the emptiest. In deterministic mode every place is seeded
and none can be made (R119). -/
def Ctl.roomList (c : Ctl) (name span : Nat) : List Nat :=
  let n := span / c.foldFor span
  if c.det || n = 0 then []
  else (c.pinnedList (c.name name) n).getD (c.emptiest n)

/-- Does a slice lack places for `need` fragments, at a pinned bank offset where there is one? -/
def Ctl.lacks (c : Ctl) (n need : Nat) (offset : Option Nat) : Bool :=
  match offset with
  | some o => (c.findFree n o 2048 0 need).length < need
  | none => (c.fragPlaces n 0 need).length < need

/-- Does a migration under way take a tile off the slice? -/
def Ctl.leaving (c : Ctl) (n : Nat) : Bool :=
  c.migs.any fun m => (c.name m.name).table.list.contains n && !m.dest.list.contains n

/-- A placement of tile t off slice n: on the emptiest slices that have room for it and, where they are among `targets`, keep
room for `need` fragments more. -/
def Ctl.placeOff (c : Ctl) (t n : Nat) (targets : List Nat) (need : Nat) : Option FragTable :=
  let r := c.name t
  let f := c.foldFor r.table.span
  let k := r.table.span / f
  let own := f * r.table.rows
  let ok (m : Nat) : Bool := m ≠ n && own + (if targets.contains m then need else 0) ≤ c.freeOn m
  let l := sortBy (fun a b => decide (a ≤ b))
    ((sortBy (fun a b => c.freeOn b < c.freeOn a || (c.freeOn a = c.freeOn b && a ≤ b)) (c.services.filter ok)).take k)
  if l.length < k then none else c.placeOn l f (c.bestQuarter t l []) r.table.rows r.table.span none

/-- Keystone makes room for a placement by required migration: from each slice that lacks it, and that no migration is leaving,
the first tile that can go goes (R98, R114). Which tile goes is a DESIGN CHOICE (log entry 84). -/
def Ctl.makeRoom (c : Ctl) (name rows span : Nat) : Ctl :=
  let need := c.foldFor span * rows
  let targets := c.roomList name span
  let offset := c.pinOffset name span (c.foldFor span)
  c.each targets fun c n =>
    if !c.lacks n need offset || c.leaving n then c
    else match (c.movable n).findSome? fun t => (c.placeOff t n targets need).map (t, ·) with
      | some (t, p) => c.startMig t p true
      | none => c

end Sys2Proof.Machine
end

