-- ==== Sys2Proof/Machine/Ring.lean ====
section
/-!
DEFINITION. Operations on descriptor rings: states (Table 4.3), draining (R131 to R133), indices (R123), record contents
(Table 4.15, R435). The commands stand in Rings.
-/
namespace Sys2Proof.Machine

/-- STATE of a ring: 0 DISABLED, 1 RUNNING, 2 DRAINING (Table 4.3). -/
def Ctl.ringState (c : Ctl) (k : Nat) : Nat := c.rf (rRING_STATUS k) 0 2
/-- Is the ring RUNNING? -/
def Ctl.running (c : Ctl) (k : Nat) : Bool := c.ringState k = 1
/-- Entries of a ring (R121). -/
def Ctl.ringSize (c : Ctl) (k : Nat) : Nat := 2 ^ c.rf (rRING_CFG k) 0 5
/-- PI_SEEN. -/
def Ctl.piSeen (c : Ctl) (k : Nat) : Nat := c.reg64 (rPI_SEEN_LO k) (rPI_SEEN_HI k)
/-- The domain of a ring. -/
def Ctl.ringDomain (c : Ctl) (k : Nat) : Nat := c.rf (rRING_CFG k) 8 6

/-- The descriptors of a ring; images of a bulk service are not its own. -/
def Ctl.ringDescs (c : Ctl) (k : Nat) : List Desc := c.descs.filter fun d => d.key.ring = k && d.key.sub = 0

/-- HELD of RING_INFLIGHT: between fetch and completion (R125); held records of an earlier enable do not count. -/
def Ctl.heldCount (c : Ctl) (k : Nat) : Nat := ((c.ringDescs k).filter fun d => !(c.ring k).held.contains d.key).length

/-- Address of the descriptor with index i (R121). -/
def Ctl.descAddr (c : Ctl) (k i : Nat) : Addr :=
  BitVec.ofNat 64 (c.reg64 (rRING_BASE_LO k) (rRING_BASE_HI k) + 64 * (i % c.ringSize k))
/-- Address of the record of index i (R121). -/
def Ctl.recordAddr (c : Ctl) (k i : Nat) : Addr :=
  BitVec.ofNat 64 (c.reg64 (rCPL_BASE_LO k) (rCPL_BASE_HI k) + 32 * (i % c.ringSize k))

/-- The retire index (R123): the lowest index whose descriptor has not completed. -/
def Ctl.lowestOpen (c : Ctl) (k : Nat) : Nat :=
  ((c.ringDescs k).map (·.key.idx)).foldl min (c.ring k).nextIdx

/-- Put the STATE of a ring. -/
def Ctl.putRingState (c : Ctl) (k s : Nat) : Ctl := c.setRf (rRING_STATUS k) 0 2 s

/-- A function reset of RINGS ends when every ring is DISABLED, one of TRANSLATION when every watch is rearmed or refused
(Table 13.2). -/
def Ctl.funcSettle (c : Ctl) : Ctl :=
  let armed (w : Watch) : Bool := match w with
    | .translating => false
    | .arming _ => false
    | _ => true
  if (c.func = 1 && (List.range 64).all fun k => c.ringState k = 0) ||
     (c.func = 2 && c.rings.all fun p => armed p.2.watch) then ({ c with func := 0 } : Ctl).readyUp else c

/-- DISARM the watch of a ring that leaves RUNNING (R272). -/
def Ctl.disarm (c : Ctl) (k : Nat) : Ctl :=
  let c' := match (c.ring k).watch with
    | .arming _ => c.emit (.disarm k)
    | .armed => c.emit (.disarm k)
    | _ => c
  let c' := c'.dropBursts fun b => decide (b.purpose = .watch k)
  ((c'.modRing k fun r => { r with watch := .off }).lower (rRING_STATUS k) 15).funcSettle

/-- A DRAINING ring with nothing left but held records is DISABLED (Table 4.3): RING_HEAD is the oldest unconsumed index
(R131). -/
def Ctl.settleRing (c : Ctl) (k : Nat) : Ctl :=
  if c.ringState k = 2 && c.heldCount k = 0 then
    ((c.putRingState k 0).setReg64 (rRING_HEAD_LO k) (rRING_HEAD_HI k) (c.ring k).nextIdx).funcSettle
  else c

/-- A ring that was writing held records before it ran stays DISABLED, and keeps those records (R133). -/
def Ctl.stopStart (c : Ctl) (k : Nat) : Ctl :=
  if (c.ring k).starting then
    let kept := sortBy (fun a b => a.order ≤ b.order) ((c.ringDescs k).filter (·.stage = .final))
    (c.modRing k fun r => { r with starting := false, held := kept.map (·.key) }).lower (rRING_CTL k) 0
  else c.lower (rRING_CTL k) 0

/-- A streamed KEYSTREAM past step 5 with no consumer past step 5 completes with RING_ABORT (R270). -/
def Ctl.orphanStreams (c : Ctl) (k : Nat) : Ctl :=
  c.each ((c.ringDescs k).filter fun d => d.isStream && d.live5) fun c d =>
    let fed : Bool := match c.partnerOf d.key with
      | some p => match c.desc? p with
        | some q => q.live5
        | none => false
      | none => false
    if fed then c else c.complete d.key 0x40 5

/-- Enter DRAINING (R131): descriptors that have not reached step 5 are discarded, a waiting FENCE completes with
FENCE_CANCEL, streams without a consumer are aborted (R270), the watch is disarmed. `cause`: none for a driver's write. -/
def Ctl.drain (c : Ctl) (k : Nat) (cause : Option Nat) : Ctl :=
  if !c.running k then c
  else
    let c := (c.putRingState k 2).lower (rRING_CTL k) 0
    let c := match cause with
      | some e => c.setRf (rRING_STATUS k) 8 4 e
      | none => c
    let c := c.disarm k
    let gone := (c.ringDescs k).filter fun d => d.stage ∈ [.hold, .check]
    let first := (gone.map (·.key.idx)).foldl min (c.ring k).nextIdx
    let c := c.dropBursts fun b => match b.purpose with
      | .fetch r _ => decide (r = k)
      | .index r => decide (r = k)
      | _ => false
    let c : Ctl := { c with descs := c.descs.filter fun d => !(d.key.ring = k && d.stage ∈ [Stage.hold, .check]) }
    let c := c.modRing k fun r => { r with
      nextIdx := first, fetching := false, reading := false, pollDue := false, backDue := false }
    let c := c.each ((c.ringDescs k).filter fun d => d.kind = 11 && d.stage = .wait) fun c d => c.fix d.key 0x40 8
    (c.orphanStreams k).settleRing k

/-! ### Records -/

/-- ROWS_DONE of a final record with status 0x00 to 0x02 (R435). -/
def Desc.finalRows (d : Desc) : Nat :=
  match d.kind with
  | 1 | 2 | 3 | 5 | 6 | 7 | 8 | 9 | 10 | 12 => shRows (if d.kind = 3 then d.w 4 else d.dShape)
  | 4 => (d.side true).2.1
  | 15 => d.rowsDone
  | _ => 0

/-- The eight words of a record (Table 4.15): final, or interim with the cursor in ROWS_DONE. ELAPSED_TICKS runs up to the
completion, which an interim record does not know: it holds 0 there (DESIGN CHOICE, log entry 85). -/
def Desc.record (d : Desc) (final : Bool) : List Word :=
  let rows := if !final then d.cursor else if d.kind = 15 then d.rowsDone else if d.status ≤ 2 then d.finalRows else 0
  let nj := min (d.energy / 64000) (2 ^ 48 - 1)
  [word d.key.idx,
   word ((if d.restarted then 2 ^ 25 else 0) + (if final then 2 ^ 24 else 0) + d.phaseOf * 2 ^ 20 + d.kind * 2 ^ 16 +
     d.detail * 2 ^ 8 + d.status),
   word (rows % 2 ^ 11 * 2 ^ 16 + fld (d.w 0) 16 16), word nj, word (nj / 2 ^ 32),
   word (min d.fills (2 ^ 32 - 1)), word (min d.drops (2 ^ 32 - 1)), word (min d.elapsed (2 ^ 32 - 1))]

/-- The driver's notify bit (R144): NOTIFY of the descriptor, or NOTIFY_ALL of the ring. The shadow drives none (R315). -/
def Ctl.notify (c : Ctl) (d : Desc) : Ctl :=
  if c.shadow then c
  else if bit (d.w 1) 2 || bit (c.reg (rRING_CFG d.key.ring)) 18 then
    c.putMask rNOTIFY_PEND_LO rNOTIFY_PEND_HI d.key.ring true
  else c

/-- The signal (R148): the token rises by one where the ring may use it (R150), and waiting FENCEs are re-evaluated (R149). -/
def Ctl.signal (c : Ctl) (d : Desc) : Ctl :=
  let t := fld (d.w 0) 8 8
  if bit (d.w 1) 0 && (!bit (d.w 1) 1 || d.status ≤ 2) && c.tokenOk d.domain t then
    (c.setReg (rTOKEN_VALUE t) (c.reg (rTOKEN_VALUE t) + 1)).fences
  else c

end Sys2Proof.Machine
end

