-- ==== Sys2Proof/Machine/Mem.lean ====
section
/-!
DEFINITION. The memory path: channels and fabric addresses (R235 to R238), translation and its caches (R239 to R244),
failures of rows (R245, R248). What a burst's answer means for its owner stands with the owner.
-/
namespace Sys2Proof.Machine

/-! ### Addresses -/

/-- The 64 KiB page of a virtual address: VPAGE of Table 8.1. -/
def pageOf (va : Addr) : Nat := va.toNat / 2 ^ 16

/-- The channel of a fabric address (R236). -/
def Ctl.channelOf (c : Ctl) (pa : Addr) : Nat :=
  let k := c.part.log2Channels
  let a := pa.toNat
  (a / 2 ^ 6 ^^^ a / 2 ^ (6 + k) ^^^ a / 2 ^ (6 + 2 * k)) % 2 ^ k

/-- Is a fabric address remote (R237)? -/
def Ctl.remote (c : Ctl) (pa : Addr) : Bool := pa.toNat / 2 ^ 48 ≠ c.rf rNODE_ID 0 16

/-- NODE_ID.VALID (R237). -/
def Ctl.nodeValid (c : Ctl) : Bool := bit (c.reg rNODE_ID) 31

/-- Does a translation serve a page of a domain? -/
def Xlate.covers (x : Xlate) (domain page : Nat) : Bool := x.domain = domain && x.page / 2 ^ x.log2 = page / 2 ^ x.log2

/-- The fabric address that a translation gives (R240). -/
def Xlate.apply (x : Xlate) (va : Addr) : Addr :=
  BitVec.ofNat 64 (x.frame * 2 ^ 16 + va.toNat % 2 ^ (16 + x.log2))

/-- Do the permission bits allow an access (R241, Table 8.2)? -/
def permits (perm : BitVec 4) (access : Nat) (remote : Bool) : Bool :=
  perm.getLsbD (match access with
    | 0 => 0 | 1 => 1 | 2 => 2 | 3 => 0 | _ => 1) && (!remote || perm.getLsbD 3)

/-- Detail code of an access (Table 4.17); ring reads and writes, which a service makes too, are a read and a write. -/
def accessDetail (access : Nat) : Nat := if access = 3 then 1 else if access = 4 then 2 else access + 1

/-! ### Caches (R242) -/

/-- Every cached translation. -/
def Ctl.xlates (c : Ctl) : List Xlate := c.mem.shared ++ c.mem.micro.flatMap (·.2)

/-- A cached translation for a page. -/
def Ctl.cached (c : Ctl) (domain page : Nat) : Option Xlate := c.xlates.find? (·.covers domain page)

/-- Put a translation into a set of `ways` entries of a cache; of a full set it replaces one, a free value (log entry 10). -/
def cacheInsert (ways free : Nat) (mates : Xlate → Bool) (l : List Xlate) (x : Xlate) : List Xlate :=
  if l.contains x then l
  else if l.length < ways then x :: l
  else if (l.filter mates).length < ways then x :: l
  else match (l.filter mates)[Config.atcVictim free % ways]? with
    | some v => x :: l.erase v
    | none => x :: l

/-- The set of the shared cache: 512 sets of 8 ways hold 4096 translations; which set, the spec leaves open (log entry 10). -/
def Xlate.set (x : Xlate) : Nat := Config.atcSet x.domain x.page x.log2 % 512

/-- Put a translation into the shared cache: 4096 entries, 8-way (R242). -/
def Ctl.cacheShared (c : Ctl) (x : Xlate) : Ctl :=
  { c.modMem (fun m => { m with
      shared := cacheInsert 8 c.freeCount (fun y => decide (y.set = x.set)) m.shared x }) with freeCount := c.freeCount + 1 }

/-- Put a translation into a channel's micro-cache of 64 (R242). -/
def Ctl.cacheMicro (c : Ctl) (ch : Nat) (x : Xlate) : Ctl :=
  let l := Tab.get [] c.mem.micro ch
  if l.contains x then c
  else
    { c.modMem (fun m => { m with micro := m.micro.set ch (cacheInsert 64 c.freeCount (fun _ => true) l x) }) with
      freeCount := c.freeCount + 1 }

/-! ### Bursts -/

/-- A burst that waits for its translation, or needs none (access 5). -/
def newBurst (p : BPurpose) (cls access domain : Nat) (va : Addr) (data : List (Option Byte)) : Burst :=
  { purpose := p, cls := cls, access := access, domain := domain, va := va, pa := va, data := data, state := .need, ch := 0,
    tag := 0, deadline := 0, faulted := false, waitInval := false, prefetch := false }

/-- Queue bursts. -/
def Ctl.addBursts (c : Ctl) (bs : List Burst) : Ctl := c.modMem fun m => { m with bursts := m.bursts ++ bs }

/-- Change the bursts not yet issued that have a purpose. -/
def Ctl.modBurst (c : Ctl) (p : BPurpose) (f : Burst → Burst) : Ctl :=
  c.modMem fun m => { m with bursts := m.bursts.map fun b => if b.purpose = p && b.state ≠ .issued then f b else b }

/-- Take out the burst outstanding on a channel under a tag. -/
def Ctl.removeBurst (c : Ctl) (ch tag : Nat) : Ctl :=
  c.modMem fun m => { m with bursts := m.bursts.filter fun b => !(b.state = .issued && b.ch = ch && b.tag = tag) }

/-! ### Failures -/

/-- The bursts of a descriptor's rows that a test on the row selects go out no more. -/
def Ctl.dropRows (c : Ctl) (k : Key) (f : Nat → Bool) : Ctl :=
  c.dropBursts fun b => match b.purpose with
    | .tensorRd k' row _ _ => decide (k' = k) && f row
    | .tensorWr k' row _ _ => decide (k' = k) && f row
    | .keyRd k' row _ _ => decide (k' = k) && f row
    | _ => false

/-- A row of a descriptor failed or faulted: the lowest row decides, and in one row the final failure (R245, R248). Work
on rows above it stops, and on the row itself once it failed; a row that faulted may still fail. -/
def Ctl.rowFail (c : Ctl) (k : Key) (f : RowFail) : Ctl :=
  let pick (d : Desc) : RowFail := match d.bad with
    | none => f
    | some b => if f.row < b.row || (f.row = b.row && b.parks && !f.parks) then f else b
  match c.desc? k with
  | none => c
  | some d =>
    let c := c.modDesc k fun d => { d with bad := some (pick d) }
    c.dropRows k fun row => (pick d).row < row || ((pick d).row = row && !(pick d).parks)

/-- A port forgets what stream C of its head fragment has, or has asked for, from a dropped prefetch (R269). -/
def Ctl.dropOperand (c : Ctl) (q : Key) (n : Nat) : Ctl :=
  let p := c.port n
  let mine : Carry → Bool := fun cy => decide (cy = Carry.operand n 2)
  if p.opReq.isNone && p.queue.head?.any (·.key = q) then
    let c := { c.modPort n (fun (x : Port) => { x with operands := x.operands.del 2 }) with
      jobs := c.jobs.filter fun (j : Job) => j.purpose ≠ Purpose.operand n 2 }
    c.modNet fun x => { x with
      flits := x.flits.filter (fun f => match f.what with
        | .frag cy _ => !mine cy
        | _ => true), asm := x.asm.filter fun a => !mine a.what }
  else c

/-- Drop a key prefetch (R269): its slots enter CLEARING, and the stream will be fetched again from row 0. -/
def Ctl.dropPrefetch (c : Ctl) (k : Key) : Ctl :=
  match c.desc? k with
  | some d =>
    if d.prefetched then
      let c := match c.partnerOf k with
        | some q => c.each (List.range c.slicesN) fun c n => c.dropOperand q n
        | none => c
      let c := (c.withdraw k).abandonFresh k
      (c.modDesc k fun d => { d with
        prefetched := false, pfPages := [], done := [], buf := [], aux := [], bad := none, prog := 0 }).count rPF_DROPPED 1
    else c
  | none => c

/-- A record could not be written (R133): it is held until the ring is next enabled. A ring that was writing held records before it
ran stays DISABLED. -/
def Ctl.recordFault (c : Ctl) (k : Key) (final : Bool) : Ctl :=
  let again := (c.ring k.ring).starting
  let c := if final then c.modDesc k fun d => { d with stage := .final } else c
  let c := c.modRing k.ring fun r => { r with
    recFault := true, held := if final then r.held ++ [k] else r.held }
  if again then (c.stopStart k.ring).setRf (rRING_STATUS k.ring) 8 4 5
  else (c.drain k.ring (some 5)).settleRing k.ring

/-- The burst of a ring structure failed (R133). -/
def Ctl.ringFault (c : Ctl) (p : BPurpose) : Ctl :=
  match p with
  | .fetch r _ => c.drain r (some 3)
  | .index r => c.drain r (some 4)
  | .watch r => c.drain r (some 4)
  | .recordHi k final => c.recordFault k final
  | .recordLo k final => c.recordFault k final
  | .retire r => (c.modRing r fun x => { x with retireOwed := false }).drain r (some 6)
  | _ => c

/-- A burst failed with a status: a row of its descriptor fails or, when `parks`, faults; a prefetch is dropped (R269); a
ring structure drains its ring; a service notes it. A service stops rather than parks. -/
def Ctl.burstFails (c : Ctl) (b : Burst) (status detail : Nat) (parks : Bool) : Ctl :=
  let row (k : Key) (r : Nat) : Ctl :=
    if b.prefetch then c.dropPrefetch k else c.rowFail k { row := r, status := status, detail := detail, parks := parks }
  match b.purpose with
  | .tensorRd k r _ _ => row k r
  | .tensorWr k r _ _ => row k r
  | .keyRd k r _ _ => row k r
  | .svcRd _ => c.modMsq fun q => { q with svc := q.svc.map fun s => { s with failed := s.failed <|> some (status, detail) } }
  | .svcWr _ => c.modMsq fun q => { q with svc := q.svc.map fun s => { s with failed := s.failed <|> some (status, detail) } }
  | p => c.ringFault p

/-! ### Translation -/

/-- A burst has its translation: it is refused (R241), arms a watch (R272), or waits for its channel. -/
def Ctl.resolve (c : Ctl) (b : Burst) (x : Xlate) : Ctl :=
  let pa := x.apply b.va
  let drop (c : Ctl) : Ctl := c.dropBursts fun e => decide (e.purpose = b.purpose)
  if !permits x.perm b.access (c.remote pa) then (drop c).burstFails b 0x21 (accessDetail b.access) false
  else match b.purpose with
    | .watch r =>
      ((drop c).modRing r fun g => { g with watch := .arming (c.after (c.ticksOf rWATCH_CFG 0 16)) }).emit
        (.arm r (BitVec.ofNat 64 (pa.toNat / 64 * 64)))
    | _ =>
      let ch := c.channelOf pa
      let c := (c.modBurst b.purpose fun b => { b with state := .ready, pa := pa, ch := ch }).cacheMicro ch x
      let c := if c.pstate ∈ [0, 1, 3] then c.startDawn else c
      match b.purpose with
      | .keyRd k _ _ _ =>
        if b.prefetch then c.modDesc k fun d => { d with pfPages := (pageOf b.va :: d.pfPages).eraseDups } else c
      | _ => c

/-- Walks outstanding (R240); one that timed out no longer counts. -/
def Ctl.liveWalks (c : Ctl) : Nat := (c.mem.walks.filter (!·.late)).length

/-- The tag of a new walk: the lowest not in use, else that of the oldest walk that has timed out (R419). -/
def Ctl.walkTag (c : Ctl) : Nat :=
  match (List.range 32).find? fun t => !c.mem.walks.any (·.tag = t) with
  | some t => t
  | none => ((c.mem.walks.find? (·.late)).map (·.tag)).getD 0

/-- Send a walk request (Table 8.1). Access 3 and 4, ring traffic, are a read and a write. -/
def Ctl.startWalk (c : Ctl) (b : Burst) : Ctl :=
  let t := c.walkTag
  let a := if b.access = 3 then 0 else if b.access = 4 then 1 else b.access
  let w : Walk :=
    { tag := t, domain := b.domain, page := pageOf b.va, access := a, deadline := c.after (c.ticksOf rMP_CFG 0 16), late := false }
  let c := c.modMem fun m => { m with walks := (m.walks.filter (·.tag ≠ t)) ++ [w] }
  (c.count rATC_MISSES 1).emit (.walk t (BitVec.ofNat 64 (pageOf b.va * 2 ^ 16 + b.domain * 2 ^ 8 + a)))

/-- Does a walk run for a page of the same GiB of the domain? A miss waits for it, since one translation may serve both: a page of
any size costs one walk. DEDUCED, log entry 86. -/
def Ctl.walkNear (c : Ctl) (b : Burst) : Bool :=
  c.mem.walks.any fun w => !w.late && w.domain = b.domain && w.page / 2 ^ 14 = pageOf b.va / 2 ^ 14

/-- Must the burst wait for the end of a function reset of the translation: all but the watches that it arms (R391, R393)? -/
def Ctl.heldByReset (c : Ctl) (b : Burst) : Bool :=
  c.func = 2 && match b.purpose with
    | .watch _ => false
    | _ => true

/-- One burst that needs a translation (R239, R242). -/
def Ctl.translate (c : Ctl) (p : BPurpose) : Ctl :=
  match c.mem.bursts.find? fun b => b.purpose = p && b.state = .need with
  | none => c
  | some b =>
    if c.heldByReset b then c
    else if b.access = 5 then c.modBurst p fun b => { b with state := .ready, ch := c.channelOf b.pa }
    else match c.cached b.domain (pageOf b.va) with
      | some x => (c.count rATC_HITS 1).resolve b x
      | none =>
        if c.mem.walks.any fun w => !w.late && w.domain = b.domain && w.page = pageOf b.va then
          c.modBurst p fun b => { b with state := .walking }
        else if !c.walkNear b && c.liveWalks < 32 then (c.startWalk b).modBurst p fun b => { b with state := .walking }
        else c

/-- Every burst that needs a translation, oldest first. -/
def Ctl.pump (c : Ctl) : Ctl :=
  c.each ((c.mem.bursts.filter (·.state = .need)).map (·.purpose)) fun c p => c.translate p

/-- Queue bursts and translate them. -/
def Ctl.request (c : Ctl) (bs : List Burst) : Ctl := (c.addBursts bs).pump

/-- The bursts that wait on a walk. -/
def Ctl.walkers (c : Ctl) (w : Walk) : List Burst :=
  c.mem.bursts.filter fun b => b.state = .walking && b.domain = w.domain && pageOf b.va = w.page

/-- A walk ends in FAULT for everyone who waits on it (R243, R245). -/
def Ctl.walkFails (c : Ctl) (w : Walk) : Ctl :=
  c.each (c.walkers w) fun c b =>
    if c.mem.bursts.any fun e => e.purpose = b.purpose && e.state = .walking then
      (c.dropBursts fun e => decide (e.purpose = b.purpose)).burstFails b 0x20 (accessDetail b.access) true
    else c

/-- Take a walk out. -/
def Ctl.endWalk (c : Ctl) (t : Nat) : Ctl := c.modMem fun m => { m with walks := m.walks.filter (·.tag ≠ t) }

/-- A walk's response (R240, R242): FAULT and SIZE 3 are not cached. -/
def Ctl.walkResponse (c : Ctl) (w : Walk) (resp : BitVec 64) : Ctl :=
  let n := resp.toNat
  let size := n / 2 ^ 10 % 4
  let c := c.endWalk w.tag
  if n % 2 = 1 || size = 3 then ((c.count rWALK_FAULTS 1).walkFails w).pump
  else
    let lg := if size = 0 then 0 else if size = 1 then 5 else 14
    let x : Xlate := { domain := w.domain, page := w.page / 2 ^ lg * 2 ^ lg, log2 := lg, frame := n / 2 ^ 16,
                       perm := BitVec.ofNat 4 (n / 2 ^ 4) }
    let bs := c.walkers w
    let c := c.cacheShared x
    (c.each bs fun c b =>
      if c.mem.bursts.any fun e => e.purpose = b.purpose && e.state = .walking then c.resolve b x else c).pump

/-! ### Issue -/

/-- The row of a tensor burst. -/
def BPurpose.row : BPurpose → Nat
  | .tensorRd _ r _ _ => r
  | .tensorWr _ r _ _ => r
  | .keyRd _ r _ _ => r
  | _ => 0

/-- Is a source read of a descriptor, for a row up to `row`, still to be answered: from memory or from a tile (R246, R248)? -/
def Ctl.sourceOpen (c : Ctl) (k : Key) (row : Nat) : Bool :=
  (c.mem.bursts.any fun e => match e.purpose with
    | .tensorRd k' r _ _ => decide (k' = k ∧ r ≤ row)
    | _ => false) ||
  c.jobs.any fun j => match j.purpose with
    | .read k' 0 i => decide (k' = k) && (c.desc? k).any fun d =>
        (d.srcs.filter (·.role = 0)).any fun s => decide (i / s.table.span ≤ row)
    | _ => false

/-- May a tensor write go out: its data is there, every source of its row and of the lower ones has been read, those rows have
translated and not failed (R246), an earlier write of the descriptor to the same line has gone out (R251), and the pair has released
the row (R317)? -/
def Ctl.writeReady (c : Ctl) (b : Burst) (k : Key) : Bool :=
  let mine := c.mem.bursts.filter fun e => e.access = 1 && e.purpose.key? = some k
  b.data.length = 64 &&
  ((c.desc? k).all fun d => d.bad.all fun f => decide (b.purpose.row < f.row)) &&
  !c.sourceOpen k b.purpose.row &&
  (mine.all fun e => b.purpose.row < e.purpose.row || e.state ∈ [BState.ready, .issued]) &&
  ((mine.takeWhile fun e => e ≠ b).all fun e => e.pa.toNat / 64 ≠ b.pa.toNat / 64 || e.state = .issued) &&
  (!c.paired || match c.desc? k with
    | some d => decide (b.purpose.row < d.rowsReleased)
    | none => false)

/-- Is a burst of a row at or above one that faulted or failed: it goes out no more (Table 8.3 step 3)? -/
def Ctl.rowStopped (c : Ctl) (b : Burst) : Bool :=
  match b.purpose.key? with
  | some k => b.access ≠ 5 && !b.prefetch && (c.desc? k).any fun d => d.bad.any fun f => decide (f.row ≤ b.purpose.row)
  | none => false

/-- Does a burst go out outside the pacer: records while stopped (Table 11.3 step 3), ring traffic in Evening, where no tokens come
(Table 13.5, R351)? -/
def Ctl.unpaced (c : Ctl) (b : Burst) : Bool :=
  c.pstate ≠ 4 && if c.power.stopped then b.access = 4 else c.pstate = 2 && b.cls = 0

/-- May a burst go out on its channel (R26, R236)? While waking, ring traffic goes out at its pace (Table 13.5). -/
def Ctl.mayIssue (c : Ctl) (b : Burst) : Bool :=
  let out := c.mem.bursts.filter fun e => e.state = .issued && e.ch = b.ch
  b.state = .ready && out.length < 512 && !c.rowStopped b && !c.heldByReset b &&
  (c.unpaced b || c.mayBeat (.channel b.ch) || (b.cls = 0 && c.wakeBeat (.channel b.ch))) &&
  (b.access ≠ 1 || match b.purpose.key? with
    | some k => c.writeReady b k
    | none => b.data.length = 64)

/-- Who pays for a burst (R332). -/
def Ctl.burstAccount (c : Ctl) (b : Burst) : Account :=
  match b.purpose with
  | .svcRd _ => match c.msq.svc with
    | some s => (s.key.map Account.desc).getD .background
    | none => .background
  | .svcWr _ => match c.msq.svc with
    | some s => (s.key.map Account.desc).getD .background
    | none => .background
  | p => match p.key? with
    | some k => .desc k
    | none => .background

/-- Is a burst a write? -/
def Burst.isWrite (b : Burst) : Bool := b.access = 1 || b.access = 4

/-- Issue a burst (R235, R418): a token, a tag, its deadline (R238). The shadow's tensor writes leave the block nowhere
and count as acknowledged (R315). -/
def Ctl.issue (c : Ctl) (b : Burst) : Ctl :=
  if c.shadow && b.isWrite then c.dropBursts fun e => decide (e.purpose = b.purpose)
  else
    let used := (c.mem.bursts.filter fun e => e.state = .issued && e.ch = b.ch).map (·.tag)
    let t := ((List.range 512).find? fun t => !used.contains t).getD 0
    let who := c.burstAccount b
    let c := if c.unpaced b then c else c.beat (.channel b.ch) who
    let c := (c.charge who 7 1).count (if b.isWrite then rWR_BURSTS else rRD_BURSTS) 1
    let c := c.modBurst b.purpose fun e => { e with
      state := .issued, tag := t, deadline := c.after (c.ticksOf rMP_CFG 16 16) }
    c.emit (.burst b.ch t (BitVec.ofNat 64 (b.pa.toNat / 64 * 64)) b.isWrite (if b.isWrite then b.data else []))

/-- The bursts of a channel requester that may go out, oldest first. -/
def Ctl.channelWaits (c : Ctl) (ch cls : Nat) : List Burst :=
  c.mem.bursts.filter fun b => b.ch = ch && b.cls = cls && c.mayIssue b

/-! ### Invalidation (R244) -/

/-- Is a translation removed by the scope in ATC_INVAL? -/
def Ctl.inScope (c : Ctl) (x : Xlate) : Bool :=
  let w := c.reg rATC_INVAL
  let lg := max 16 (fld w 16 6)
  let va := c.reg64 rATC_INVAL_VA_LO rATC_INVAL_VA_HI / 2 ^ 16
  match fld w 4 2 with
  | 1 => x.domain = fld w 8 6
  | 2 => x.domain = fld w 8 6 && decide (va < x.page + 2 ^ x.log2 ∧ x.page < va + 2 ^ (lg - 16))
  | _ => true

/-- The watches whose producer-index page was removed are armed again (R244). -/
def Ctl.rearm (c : Ctl) (gone : List Xlate) : Ctl :=
  c.each (List.range 64) fun c k =>
    let va : Addr := BitVec.ofNat 64 (c.reg64 (rPI_ADDR_LO k) (rPI_ADDR_HI k))
    if (c.ring k).watch ≠ .off && c.running k && gone.any (·.covers (c.ringDomain k) (pageOf va)) then
      let c := (c.disarm k).modRing k fun r => { r with watch := .translating }
      c.request [newBurst (.watch k) 0 3 (c.ringDomain k) va []]
    else c

/-- Remove cached translations (R244): the bursts that use them are waited for, prefetches from their pages dropped (R269),
watches on them armed again. -/
def Ctl.dropXlates (c : Ctl) (gone : List Xlate) : Ctl :=
  let c := c.modMem fun m => { m with
    shared := m.shared.filter fun x => !gone.contains x,
    micro := m.micro.map fun p => (p.1, p.2.filter fun x => !gone.contains x),
    bursts := m.bursts.map fun b =>
      if b.access ≠ 5 && b.state ∈ [BState.ready, .issued] && gone.any (·.covers b.domain (pageOf b.va)) then
        { b with waitInval := true } else b }
  let c := c.each (c.descs.filter fun d => d.prefetched && d.pfPages.any fun p => gone.any (·.covers d.domain p))
    fun c d => c.dropPrefetch d.key
  c.rearm gone

/-- GO of ATC_INVAL (R244). -/
def Ctl.invalidate (c : Ctl) : Ctl :=
  if bit (c.reg rATC_INVAL) 31 then c.raise rATC_INVAL 30
  else
    ((c.raise rATC_INVAL 31).dropXlates (c.xlates.filter c.inScope)).invalDone

/-- Writing ATC_INVAL (Table 8.9): INVAL_ERR clears by one, the RW fields change, GO starts. -/
def Ctl.writeInval (c : Ctl) (data : Word) : Ctl :=
  let c := if bit data 30 then c.lower rATC_INVAL 30 else c
  let c := c.setReg rATC_INVAL ((c.reg rATC_INVAL &&& 0xC0000000) ||| (data &&& 0x003F3F30))
  if bit data 0 then c.invalidate else c

/-- ATC_INVAL (R244): a write of the register that sets GO. -/
def execAtcInval (id : Byte) (data : Word) (s : State) : Res :=
  ctlStep (.atcInval id data) s fun c =>
    if bit data 0 then c.access id rATC_INVAL true fun c => { c.writeInval data with regRdata := 0 } else c

/-- MP_CNT_CLEAR (Table 8.13). -/
def Ctl.clearMemCounters (c : Ctl) : Ctl :=
  c.zeroRegs [rRD_BURSTS, rWR_BURSTS, rATC_HITS, rATC_MISSES, rWALK_FAULTS, rWALK_TIMEOUTS, rREMOTE_FAILS, rDATA_ERRS,
    rPF_DROPPED, rPF_SKIPPED, rKEY_PERMS, rKEY_WORDS]

/-- MP_CNT_CLEAR (R242). -/
def execMpCntClear (id : Byte) (s : State) : Res :=
  ctlStep (.mpCntClear id) s fun c =>
    c.access id rMP_CNT_CLEAR true fun c => { c.clearMemCounters with regRdata := 0 }

end Sys2Proof.Machine
end

