-- ==== Sys2Proof/Machine/Svc.lean ====
section
/-!
DEFINITION. The service that the MSQ runs, and how it ends (R369 to R372). What the services do stands in Msq.
-/
namespace Sys2Proof.Machine

/-- Is the burst a service's own? -/
def BPurpose.svc : BPurpose → Bool
  | .svcRd _ => true
  | .svcWr _ => true
  | _ => false

/-- Is a burst of the service outstanding or waiting? -/
def Ctl.svcBusy (c : Ctl) : Bool := c.mem.bursts.any fun b => b.purpose.svc

/-- The images of a RELAYOUT_BULK are descriptors with a `sub` of their own. -/
def Ctl.images (c : Ctl) : List Desc := c.descs.filter fun d => d.key.sub ≠ 0

/-- Memory writes already issued for a service, or for its images, are its descriptor's from here on: its record waits for
their acknowledgement (R143). -/
def Burst.inherit (b : Burst) (k : Key) : Burst :=
  match b.purpose with
  | .svcWr p => { b with purpose := .tensorWr k 0 0 p, access := 1 }
  | .tensorWr x r bl p => if x.sub = 0 then b else { b with purpose := .tensorWr k r (bl + 1) p }
  | _ => b

/-! ### The last effect of a service (R372) -/

/-- Should DEFRAG move a name (R376)? -/
def Ctl.fragmented (c : Ctl) (n : Nat) : Bool :=
  let r := c.name n
  r.live && r.pin.isNone && r.poison.isNone && (r.displaced || c.foldFor r.table.span < r.table.fold)

/-- The next fragmented name that DEFRAG visits, in ascending order from `n` on. -/
def Ctl.defragVisit (c : Ctl) (n : Nat) : Option Nat := (c.names.map (·.1)).find? fun m => n ≤ m && c.fragmented m

/-- A move by the level-3 rule (Table 3.4): the narrowest tile of a tight slice that can leave it, neither poisoned nor passed
over; its place is the emptiest slices, or in deterministic mode its seeded one (R119). -/
def Ctl.compactMove (c : Ctl) (passed : List Nat) : Option (Nat × FragTable) :=
  if !c.services.any fun m => 2048 < c.freeOn m then none
  else (c.services.filter fun n => c.freeOn n < 512).findSome? fun n =>
    ((c.movable n).filter fun m => !passed.contains m && (c.name m).poison.isNone).findSome? fun m =>
      match if c.det then c.place m (c.name m).table.rows (c.name m).table.span [] else c.placeEmptiest m with
      | some t => if t.list.contains n then none else some (m, t)
      | none => none

/-- What a service has done and not counted yet: images completed, with their energies (R375), and a migration that DEFRAG waited
for (R376). `tries` of DEFRAG holds the name, its attempts, its commits and its first slot, then the names passed over. -/
def Ctl.svcCollect (c : Ctl) : Ctl :=
  match c.msq.svc with
  | none => c
  | some s =>
    if s.number = 4 then
      let ended := c.images.filter c.hasCompleted
      let put (s : Svc) : Svc := { s with
        sum := s.sum + (ended.map (·.energy)).sum, rows := s.rows + (ended.filter (·.status ≤ 2)).length }
      { c.modMsq fun q => { q with svc := q.svc.map put } with
        descs := c.descs.filter fun (d : Desc) => d.key.sub = 0 || !c.hasCompleted d }
    else if s.number = 5 then
      match s.tries with
      | n :: attempt :: commits :: slot :: passed =>
        let r := c.name n
        if attempt ≠ 0 && !c.migrating n && r.live && r.commits = commits && r.table.slots.headD 0 ≠ slot then
          c.modMsq fun q => { q with svc := q.svc.map fun s => { s with
            rows := min 2047 (s.rows + 1), tries := 0 :: 0 :: 0 :: 0 :: passed } }
        else c
      | _ => c
    else c

/-- Is the running service committed, its last effect having taken place (R372)? The last memory write, the last image, the last
migration, the generation commit; an image's activation and a drop end their services at once. -/
def Ctl.svcCommitted (c : Ctl) : Bool :=
  match c.msq.svc with
  | none => false
  | some s =>
    s.failed.isNone && !c.svcBusy && match s.number with
      | 3 => s.phase = 3
      | 4 => s.phase = 1 && s.count ≤ s.rows
      | 5 => s.tries.getD 1 0 = 0 && match s.key.bind c.desc? with
          | some d => (s.phase ≠ 0 || (c.defragVisit s.count).isNone) && (!bit (d.w 5) 0 || (c.compactMove (s.tries.drop 4)).isNone)
          | none => false
      | 6 => s.phase = 2 && !c.deferredCommit
      | _ => false

/-- The work of the run ends: reads not issued are dropped, an image under way is abandoned and its energy counted (R375). -/
def Ctl.endWork (c : Ctl) (key : Option Key) : Ctl :=
  let c := c.dropBursts (·.purpose.svc)
  let spent := (c.images.map (·.energy)).sum
  let c := c.modMsq fun q => { q with svc := q.svc.map fun s => { s with sum := s.sum + spent } }
  let c := c.each c.images fun c d => (c.withdraw d.key).abandonFresh d.key
  let c : Ctl := { c with descs := c.descs.filter fun (d : Desc) => d.key.sub = 0 }
  match key with
  | some k => c.modMem fun m => { m with bursts := m.bursts.map fun (b : Burst) => b.inherit k }
  | none => c

/-- The run is over. After a RECALIBRATE RECAL_PENDING clears unless a request came during it (R378, Table 12.7). A PKE request
stays outstanding. -/
def Ctl.endRun (c : Ctl) (number : Nat) : Ctl :=
  (c.modMsq fun q => { q with
    svc := none, recalPending := if number = 6 then q.recalAgain else q.recalPending,
    recalAgain := if number = 6 then false else q.recalAgain }).reapRetired

/-- IMG_STATUS after an image run (Table 12.15). -/
def Ctl.imageStatus (c : Ctl) (d : Desc) (sub : Nat) : Ctl :=
  let c := ((c.setRf rIMG_STATUS 24 8 sub).setRf rIMG_STATUS 20 3 (fld (d.w 5) 4 4)).setRf rIMG_STATUS 16 4 (fld (d.w 5) 0 4)
  if sub ≠ 0 then c.raise rIMG_STATUS 0 else c

/-- The running service ends with a status (R372, Table 12.19); the run of AUTO_RECAL has no record. ROWS_DONE and ENERGY of a bulk
service count its images (R375). -/
def Ctl.svcEnd (c : Ctl) (status detail : Nat) : Ctl :=
  match c.msq.svc with
  | none => c
  | some s =>
    let c := c.svcCollect.endWork s.key
    let rows := (c.msq.svc.map (·.rows)).getD 0
    let sum := (c.msq.svc.map (·.sum)).getD 0
    let c := (c.endRun s.number).count rSVC_DONE 1
    let c := if 0x10 ≤ status then c.count rSVC_FAIL 1 else c
    match s.key.bind c.desc? with
    | none => c
    | some d =>
      let c := if s.number = 1 then c.imageStatus d (if status = 0x61 then detail else 0) else c
      let c := c.modDesc d.key fun d => { d with
        rowsDone := if status ≤ 2 || s.number = 4 then rows else 0, energy := if s.number = 4 then sum else d.energy }
      c.finish d.key status detail

/-- A coolant stop, an abort or the watchdog ends the running service, with the status given, or with its own OK once it is
committed (R372). -/
def Ctl.svcStop (c : Ctl) (status detail : Nat) : Ctl :=
  let c := c.svcCollect
  if c.svcCommitted then c.svcEnd 0 0 else c.svcEnd status detail

/-- Does the running service belong to a ring? -/
def Ctl.svcOf (c : Ctl) (ring : Nat) : Bool :=
  match c.msq.svc with
  | some s => match s.key with
    | some k => decide (k.ring = ring)
    | none => false
  | none => false

/-- Is the running service a firmware service (Table 12.3)? -/
def Ctl.svcFirmware (c : Ctl) : Bool :=
  match c.msq.svc with
  | some s => 3 ≤ s.number
  | none => false

end Sys2Proof.Machine
end

