-- ==== Sys2Proof/Machine/Rings.lean ====
section
/-!
DEFINITION. The commands of descriptor rings: enabling, disabling, aborting (Table 4.2, R131, R132), the producer
index and its watch (R126, R272), fetching (R125), records and retire indices (R142 to R144), tokens (R148).
-/
namespace Sys2Proof.Machine

/-! ### Producer and retire indices -/

/-- 64 bytes of a line with some bytes from an offset on enabled. -/
def lineData (off : Nat) (bs : List Byte) : List (Option Byte) :=
  (List.replicate off none ++ bs.map some ++ List.replicate (64 - off - bs.length) none).take 64

/-- Read the producer index of a RUNNING ring (R126 to R128); while a read runs, another is owed. -/
def Ctl.readIndex (c : Ctl) (k : Nat) : Ctl :=
  if !c.running k || !c.nodeValid then c
  else if (c.ring k).reading then c.modRing k fun r => { r with pollDue := true }
  else
    let va : Addr := BitVec.ofNat 64 (c.reg64 (rPI_ADDR_LO k) (rPI_ADDR_HI k))
    (c.modRing k fun r => { r with reading := true }).request [newBurst (.index k) 0 3 (c.ringDomain k) va []]

/-- A producer index has been read (R122, R124): out of range drains the ring; new work wakes from Evening (R401). -/
def Ctl.acceptIndex (c : Ctl) (k v : Nat) : Ctl :=
  let c := c.modRing k fun r => { r with reading := false }
  if !c.running k then c
  else if v < c.piSeen k || c.ringSize k + (c.ring k).ri < v then c.drain k (some 2)
  else
    let fresh := decide ((c.ring k).nextIdx < v)
    let c := c.setReg64 (rPI_SEEN_LO k) (rPI_SEEN_HI k) v
    if fresh then c.wakeOnWork else c

/-- Write the retire index where one is owed and no write runs (R123); the shadow writes none (R315). -/
def Ctl.writeRetire (c : Ctl) (k : Nat) : Ctl :=
  if (c.ring k).retireOwed && !(c.mem.bursts.any fun b => b.purpose = .retire k) then
    let va : Addr := BitVec.ofNat 64 (c.reg64 (rRETIRE_ADDR_LO k) (rRETIRE_ADDR_HI k))
    let c := c.modRing k fun r => { r with retireOwed := false }
    if c.shadow then c
    else c.request [newBurst (.retire k) 0 4 (c.ringDomain k) va (lineData (va.toNat % 64) (natBytes 8 (c.ring k).ri))]
  else c

/-- Advance the retire index (R123). -/
def Ctl.advanceRetire (c : Ctl) (k : Nat) : Ctl :=
  let ri := c.lowestOpen k
  if (c.ring k).ri < ri then (c.modRing k fun r => { r with ri := ri, retireOwed := true }).writeRetire k else c

/-- Arm the write-watch of a ring (R126, R272). -/
def Ctl.armWatch (c : Ctl) (k : Nat) : Ctl :=
  if bit (c.reg (rRING_CFG k)) 16 && (c.ring k).watch = .off && c.running k then
    let va : Addr := BitVec.ofNat 64 (c.reg64 (rPI_ADDR_LO k) (rPI_ADDR_HI k))
    (c.modRing k fun r => { r with watch := .translating }).request [newBurst (.watch k) 0 3 (c.ringDomain k) va []]
  else c

/-! ### Enabling, disabling, aborting -/

/-- Does the configuration pass step 3 of Table 4.2? -/
def Ctl.ringConfigOk (c : Ctl) (k : Nat) : Bool :=
  let n := c.rf (rRING_CFG k) 0 5
  6 ≤ n && n ≤ 16 && c.rf (rRING_BASE_LO k) 0 6 = 0 && c.rf (rCPL_BASE_LO k) 0 5 = 0 && c.rf (rPI_ADDR_LO k) 0 3 = 0 &&
    c.rf (rRETIRE_ADDR_LO k) 0 3 = 0

/-- Step 5 of Table 4.2: the ring runs, its watch is armed, its producer index read. The first poll comes POLL_TICKS full ticks
later (R32). -/
def Ctl.runRing (c : Ctl) (k : Nat) : Ctl :=
  let n := max 1 (c.rf (rRING_POLL k) 0 16)
  let c := (c.putRingState k 1).modRing k fun r => { r with starting := false, gap := 0, polls := 0, interval := n + 1 }
  (c.armWatch k).readIndex k

/-- Step 4 of Table 4.2, and step 5 where no record is held. Held records are written first (R133). -/
def Ctl.startRing (c : Ctl) (k : Nat) : Ctl :=
  let head := c.reg64 (rRING_HEAD_LO k) (rRING_HEAD_HI k)
  let c := (c.raise rCONTRACT_SEL 16).raise (rRING_CTL k) 0
  let c := c.setRf (rRING_STATUS k) 8 4 0
  let c := ((c.setReg64 (rPI_SEEN_LO k) (rPI_SEEN_HI k) head).setReg (rDONE_COUNT k) 0).setReg (rFAIL_COUNT k) 0
  let c := c.modRing k fun r => { r with
    nextIdx := head, fetching := false, reading := false, pollDue := false, backDue := false, held := [], recFault := false,
    starting := true }
  let c := (c.modRing k fun r => { r with ri := c.lowestOpen k, retireOwed := true }).writeRetire k
  if (c.ringDescs k).isEmpty then c.runRing k else c

/-- ENABLE 1 (Table 4.2): it acts on a DISABLED ring, once a function reset of the rings is over (R393). -/
def Ctl.enableRing (c : Ctl) (k : Nat) : Ctl :=
  if c.ringState k ≠ 0 || (c.ring k).starting then c
  else if c.func = 1 then c.raise (rRING_CTL k) 0
  else if c.ringConfigOk k then c.startRing k
  else (c.lower (rRING_CTL k) 0).setRf (rRING_STATUS k) 8 4 1

/-- Does the ENABLE of a ring wait for the end of a function reset (R393)? -/
def Ctl.enableWaits (c : Ctl) (k : Nat) : Bool := bit (c.reg (rRING_CTL k)) 0 && c.ringState k = 0 && !(c.ring k).starting

/-- The rings whose ENABLE has waited for the end of a function reset start (R393): with the first command of a ring, or the first
tick, after it (DESIGN CHOICE, log entry 87). -/
def Ctl.startWaiting (c : Ctl) : Ctl :=
  c.each ((List.range 64).filter fun k => c.enableWaits k) fun c k => c.enableRing k

/-- ABORT (R132): ENABLE 0, and every admitted descriptor that has not committed completes with RING_ABORT. A running
service of the ring ends with it. -/
def Ctl.abortRing (c : Ctl) (k : Nat) : Ctl :=
  if c.ringState k = 0 then c.stopStart k
  else
    let c := (c.drain k none).lower (rRING_CTL k) 0
    let c := if c.svcOf k then c.svcStop 0x40 5 else c
    let c := c.each ((c.ringDescs k).filter fun d => !d.completed && !d.committed) fun c d => c.fix d.key 0x40 5
    c.fences.settleRing k

/-- A write of RING_CTL (Table 4.22): ABORT takes precedence. -/
def Ctl.writeRingCtl (c : Ctl) (k : Nat) (d : Word) : Ctl :=
  let c := c.startWaiting
  if bit d 8 then c.abortRing k else if bit d 0 then c.enableRing k else (c.drain k none).stopStart k

/-- RING_ENABLE (R129). -/
def execRingEnable (ring : Nat) (id : Byte) (s : State) : Res :=
  ctlStep (.ringEnable ring id) s fun c =>
    c.access id (rRING_CTL ring) true fun c => { c.writeRingCtl ring 1 with regRdata := 0 }

/-- RING_DISABLE (R131). -/
def execRingDisable (ring : Nat) (id : Byte) (s : State) : Res :=
  ctlStep (.ringDisable ring id) s fun c =>
    c.access id (rRING_CTL ring) true fun c => { c.writeRingCtl ring 0 with regRdata := 0 }

/-- RING_ABORT (R132). -/
def execRingAbort (ring : Nat) (id : Byte) (s : State) : Res :=
  ctlStep (.ringAbort ring id) s fun c =>
    c.access id (rRING_CTL ring) true fun c => { c.writeRingCtl ring 0x100 with regRdata := 0 }

/-! ### Watches -/

/-- A watch is refused or lost (R127). -/
def Ctl.watchFalls (c : Ctl) (k : Nat) : Ctl :=
  ((c.modRing k fun r => { r with watch := .off }).raise (rRING_STATUS k) 16).lower (rRING_STATUS k) 15 |>.funcSettle

/-- Is an ARM waiting for its answer? -/
def Ctl.arming (c : Ctl) (k : Nat) : Option Nat := match (c.ring k).watch with
  | .arming d => some d
  | _ => none

/-- WATCH_ACCEPT (R272). -/
def execWatchAccept (ring : Nat) (s : State) : Res :=
  ctlStep (.watchAccept ring) s fun c =>
    if (c.arming ring).isSome then
      ((c.modRing ring fun r => { r with watch := .armed }).raise (rRING_STATUS ring) 15).funcSettle
    else c

/-- WATCH_REFUSE (R272). -/
def execWatchRefuse (ring : Nat) (s : State) : Res :=
  ctlStep (.watchRefuse ring) s fun c => if (c.arming ring).isSome then c.watchFalls ring else c

/-- WATCH_HIT (R272). -/
def execWatchHit (ring : Nat) (s : State) : Res :=
  ctlStep (.watchHit ring) s fun c => if (c.ring ring).watch = .armed then c.readIndex ring else c

/-- WATCH_LOST (R272). -/
def execWatchLost (ring : Nat) (s : State) : Res :=
  ctlStep (.watchLost ring) s fun c => if (c.ring ring).watch = .armed then c.watchFalls ring else c

/-- WATCH_TIMEOUT (R272): treated as refused. -/
def execWatchTimeout (ring : Nat) (s : State) : Res :=
  ctlStep (.watchTimeout ring) s fun c =>
    match c.arming ring with
    | some d => if c.due d then c.watchFalls ring else c
    | none => c

/-! ### Fetching -/

/-- May the next descriptor of a ring be fetched (R122, R125)? One whose index an earlier enable left with a held record waits
until that record is out (R133). -/
def Ctl.fetchable (c : Ctl) (k : Nat) : Bool :=
  c.running k && (c.ring k).nextIdx < c.piSeen k && c.heldCount k < 64 &&
    (c.desc? { ring := k, idx := (c.ring k).nextIdx, sub := 0 }).isNone

/-- DESCRIPTOR_FETCH (R125): one 64-byte read for the next ring in rotating order. -/
def execDescriptorFetch (s : State) : Res :=
  ctlStep .descriptorFetch s fun c =>
    if !c.admitting || !c.nodeValid || (List.range 64).any (fun k => (c.ring k).fetching) then c
    else match ((List.range 64).map fun i => (c.fetchPtr + i) % 64).find? c.fetchable with
      | some k =>
        let i := (c.ring k).nextIdx
        let c := { c.modRing k (fun r => { r with fetching := true }) with fetchPtr := (k + 1) % 64 }
        c.request [newBurst (.fetch k i) 0 3 (c.ringDomain k) (c.descAddr k i) []]
      | none => c

/-- A descriptor as fetched. -/
def Desc.fetched (k : Key) (domain : Nat) (ws : List Word) : Desc :=
  { key := k, words := ws, domain := domain, stage := .hold, order := 0, status := 0, detail := 0, rowsDone := 0, caps := [],
    mods := [], classRec := none, srcs := [], dst := none, granted := false, started := 0, elapsed := 0, deadline := none,
    fills := 0, drops := 0, energy := 0, restarted := false, committed := false, admitted := false, cursor := 0,
    bad := none, done := [], prog := 0, phase := 0, buf := [], aux := [], outw := [], partner := none, group := [],
    usedOn := [], prefetched := false, pfPages := [], viaLink := none, sigWait := false, rowsReleased := 0 }

/-- No signature or outcome of the peer is waited for any more for a descriptor. -/
def Ctl.dropSig (c : Ctl) (ring idx : Nat) : Ctl :=
  { c with sigs := c.sigs.filter fun (g : Sig) => !(g.ring = ring && g.idx = idx && g.row.isNone) }

/-- An outcome that the peer of a pair met first (R318): the descriptor parks at the peer's cursor, or has its status. -/
def Ctl.meetOutcome (c : Ctl) (k : Key) (status detail cursor : Nat) : Ctl :=
  (if status = 0x20 then c.rowFail k { row := cursor, status := 0x20, detail := detail, parks := true }
   else c.finish k status detail).dropSig k.ring k.idx

/-- The 64 bytes of a descriptor have arrived (R125): it is held at step 3. The peer of a pair may have met its outcome before
(R318). -/
def Ctl.acceptFetch (c : Ctl) (k i : Nat) (bs : List Byte) : Ctl :=
  if !c.running k then c
  else
    let d := Desc.fetched { ring := k, idx := i, sub := 0 } (c.ringDomain k) (bytesWords bs)
    let c : Ctl := { c.modRing k (fun r => { r with fetching := false, nextIdx := i + 1 }) with descs := c.descs ++ [d] }
    match c.outcomes.find? fun o => o.ring = k && o.idx = i with
    | some o =>
      ({ c with outcomes := c.outcomes.filter (fun (x : Outcome) => x ≠ o) } : Ctl).meetOutcome d.key o.status o.detail o.cursor
    | none => c

/-! ### Records -/

/-- A final record has been written, or is the shadow's (R144): signal, notify, retire index; then ERR_STOP (R133) and
another look at the producer index (R128). The last of the records held from before runs the ring (Table 4.2 step 5). -/
def Ctl.recordDone (c : Ctl) (d : Desc) : Ctl :=
  let k := d.key.ring
  let fail := decide (0x10 ≤ d.status)
  let c : Ctl := { c with descs := c.descs.filter fun (e : Desc) => e.key ≠ d.key }
  let c := c.count (rDONE_COUNT k) 1
  let c := if fail then c.count (rFAIL_COUNT k) 1 else c
  let c := ((c.signal d).notify d).advanceRetire k
  let c := if fail && bit (c.reg (rRING_CFG k)) 17 then c.drain k (some 7) else c
  let c := c.settleRing k
  if (c.ring k).starting && (c.ringDescs k).isEmpty then c.runRing k
  else if c.heldCount k < 64 then c.readIndex k
  else c

/-- The first write of a record: words 1 to 7 (R142). -/
def Ctl.writeRecord (c : Ctl) (d : Desc) (final : Bool) : Ctl :=
  let va := c.recordAddr d.key.ring d.key.idx
  c.request [newBurst (.recordHi d.key final) 0 4 (c.ringDomain d.key.ring) va
    (lineData (va.toNat % 64 + 4) (((d.record final).drop 1).flatMap wordBytes))]

/-- The second write of a record: word 0 (R142). -/
def Ctl.writeSeq (c : Ctl) (d : Desc) (final : Bool) : Ctl :=
  let va := c.recordAddr d.key.ring d.key.idx
  c.request [newBurst (.recordLo d.key final) 0 4 (c.ringDomain d.key.ring) va
    (lineData (va.toNat % 64) (wordBytes ((d.record final).getD 0 0)))]

/-- Is a record of the ring being written? -/
def Ctl.recording (c : Ctl) (k : Nat) : Bool :=
  c.mem.bursts.any fun b => match b.purpose with
    | .recordHi x _ => decide (x.ring = k)
    | .recordLo x _ => decide (x.ring = k)
    | _ => false

/-- Is the final record of a descriptor next in its ring (R143): completed, its memory writes acknowledged, the earliest to
complete of those not written yet? In a pair the lead waits until the shadow holds the outcome too (R317, R318). -/
def Ctl.recordNext (c : Ctl) (d : Desc) : Bool :=
  d.stage = .final && d.closed && !(c.ring d.key.ring).held.contains d.key && !c.recording d.key.ring &&
    !(c.paired && c.outcomeWaits d.key.ring d.key.idx) &&
    (c.ringDescs d.key.ring).all fun e => !e.closed || e.stage ∉ [.final, .record] || d.order ≤ e.order ||
      (c.ring d.key.ring).held.contains e.key

/-- COMPLETION_RECORD (R142, R143): after a RECORD_FAULT the record is held (R133); the shadow's is not written (R315). -/
def execCompletionRecord (ring idx : Nat) (s : State) : Res :=
  ctlStep (.completionRecord ring idx) s fun c =>
    match c.desc? { ring := ring, idx := idx, sub := 0 } with
    | some d =>
      if !c.recordNext d || c.pstate = 4 then c
      else if (c.ring ring).recFault then
        (c.modRing ring fun r => { r with held := r.held ++ [d.key] }).settleRing ring
      else if c.shadow then c.recordDone d
      else (c.modDesc d.key fun d => { d with stage := .record }).writeRecord d true
    | none => c

/-! ### Tokens -/

/-- A driver's write of TOKEN_VALUE (R148, R149). -/
def Ctl.writeToken (c : Ctl) (t : Nat) (d : Word) : Ctl := (c.setReg (rTOKEN_VALUE t) d).fences

/-- TOKEN_VALUE_WRITE (R148). -/
def execTokenValueWrite (t : Nat) (id : Byte) (data : Word) (s : State) : Res :=
  ctlStep (.tokenValueWrite t id data) s fun c =>
    c.access id (rTOKEN_VALUE t) true fun c => { c.writeToken t data with regRdata := 0 }

/-- FENCE_TIMEOUT (R149). -/
def execFenceTimeout (ring idx : Nat) (s : State) : Res :=
  ctlStep (.fenceTimeout ring idx) s fun c =>
    let k : Key := { ring := ring, idx := idx, sub := 0 }
    match c.desc? k with
    | some d => match d.deadline with
      | some t =>
        if d.kind = 11 && d.stage = .wait && c.due t && c.pstate ≠ 4 then c.finish k 0x40 7 else c
      | none => c
    | none => c

end Sys2Proof.Machine
end

