-- ==== Sys2Proof/Machine/Tensor.lean ====
section
/-!
DEFINITION. Tensor data between memory and tiles: rows of LOAD, STORE, RELAYOUT and stored KEYSTREAM (R249 to R262), their
bursts, parking and failures (R245 to R248), and row signatures of a pair (R316, R317).
-/
namespace Sys2Proof.Machine

/-! ### Rows -/

/-- Unbroken bytes of a row in memory: `block` tells runs of one row apart, `base` is the row's word at its first byte. -/
structure Run where
  block : Nat
  va : Addr
  len : Nat
  base : Nat
  deriving DecidableEq, Repr

/-- Does the descriptor read a tile, and does it write one? -/
def Desc.tileSrc (d : Desc) : Bool := d.kind = 3 || (d.kind = 4 && bit (d.w 1) 8)
/-- Does it write a tile? -/
def Desc.tileDst (d : Desc) : Bool := d.dRef.isSome
/-- Does it write memory? -/
def Desc.memDst (d : Desc) : Bool := d.kind = 3 || (d.kind = 4 && !bit (d.w 1) 9)

/-- Rows that the descriptor processes (R245). -/
def Desc.rowsN (d : Desc) : Nat := if d.kind = 4 then (d.side true).2.1 else shRows (d.w 4)

/-- Words per block of the tile side read, or written. -/
def Desc.blockWords (d : Desc) (dst : Bool) : Nat := fmtWords (shFmt (d.w (if d.kind = 4 && dst then 8 else 4)))

/-- Bytes of a destination row that are copied from the source (R255). -/
def Desc.copyBytes (d : Desc) (row : Nat) : Nat :=
  if d.kind = 4 then (if row < (d.side false).2.1 then min (d.side false).2.2 (d.side true).2.2 else 0)
  else shSpan (d.w 4) * fmtBlock (shFmt (d.w 4))

/-- Block runs of a row of a LOAD, STORE or stored KEYSTREAM (R249, R262). -/
def Desc.blockRuns (d : Desc) (row : Nat) : List Run :=
  (List.range (shSpan (d.w 4))).map fun b =>
    { block := b, va := d.blockVa row b, len := fmtBlock (shFmt (d.w 4)), base := b * fmtWords (shFmt (d.w 4)) }

/-- Runs read from memory for a row. -/
def Desc.readRuns (d : Desc) (row : Nat) : List Run :=
  match d.kind with
  | 2 | 9 => d.blockRuns row
  | 4 => if d.tileSrc || d.copyBytes row = 0 then [] else
      [{ block := 0, va := d.sideVa false row, len := d.copyBytes row, base := 0 }]
  | _ => []

/-- The padding of a row of a RELAYOUT into memory, as address and length (R255). -/
def Desc.padding (d : Desc) (row : Nat) : Addr × Nat :=
  (d.sideVa true row + BitVec.ofNat 64 (d.copyBytes row), (d.side true).2.2 - d.copyBytes row)

/-- Runs written to memory for a row: data, then padding (R255). -/
def Desc.writeRuns (d : Desc) (row : Nat) : List Run :=
  match d.kind with
  | 3 => d.blockRuns row
  | 4 =>
    if !d.memDst then []
    else
      (if d.copyBytes row = 0 then [] else [{ block := 0, va := d.sideVa true row, len := d.copyBytes row, base := 0 }]) ++
      (if (d.padding row).2 = 0 then [] else
        [{ block := 1, va := (d.padding row).1, len := (d.padding row).2, base := d.copyBytes row / 4 }])
  | _ => []

/-- Bursts of a run (R252). -/
def Run.parts (r : Run) : Nat := if r.len = 0 then 0 else (r.va.toNat % 64 + r.len - 1) / 64 + 1

/-- Address of the 64 bytes of part p of a run. -/
def Run.line (r : Run) (p : Nat) : Addr := BitVec.ofNat 64 ((r.va.toNat / 64 + p) * 64)

/-- Does an address lie in an unbroken range? -/
def inRange (a start : Addr) (len : Nat) : Bool := (a - start).toNat < len

/-- Is a byte of padding written by this row: no data byte of the descriptor lies there (R256), and no lower row pads it? -/
def Desc.padsByte (d : Desc) (row : Nat) (a : Addr) : Bool :=
  !((List.range d.rowsN).any fun e => inRange a (d.sideVa true e) (d.copyBytes e)) &&
    !((List.range row).any fun e => inRange a (d.padding e).1 (d.padding e).2)

/-- Key of a word of a row in the descriptor's buffer. -/
def rowWord (row w : Nat) : Nat := row * 2 ^ 22 + w

/-- The value of a word of a destination row, none while the source has not been read (R255). -/
def Desc.outWord (d : Desc) (row w : Nat) : Option Word :=
  if 4 * w < d.copyBytes row then (d.buf.find? (·.1 = rowWord row w)).map (·.2) else some (d.w 14)

/-- The 64 bytes that part p of a run writes, none while some are not known; a byte it does not write is not enabled. -/
def Desc.lineBytes (d : Desc) (row : Nat) (r : Run) (p : Nat) : Option (List (Option Byte)) :=
  (List.range 64).mapM fun i =>
    let a := r.line p + BitVec.ofNat 64 i
    let off := (a - r.va).toNat
    if r.len ≤ off || (d.kind = 4 && r.block = 1 && !d.padsByte row a) then some none
    else (d.outWord row (r.base + off / 4)).map fun w => some (BitVec.ofNat 8 (w.toNat / 2 ^ (8 * (off % 4))))

/-- The bursts that read a row. -/
def Desc.readBursts (d : Desc) (row : Nat) : List Burst :=
  (d.readRuns row).flatMap fun r => (List.range r.parts).map fun p =>
    if d.kind = 9 then newBurst (.keyRd d.key row r.block p) 3 2 d.domain (r.line p) []
    else newBurst (.tensorRd d.key row r.block p) 1 0 d.domain (r.line p) []

/-- The bursts that write a row; those that would enable no byte do not exist. -/
def Desc.writeBursts (d : Desc) (row : Nat) : List Burst :=
  (d.writeRuns row).flatMap fun r => ((List.range r.parts).filter fun p => match d.lineBytes row r p with
    | some bs => bs.any (·.isSome)
    | none => true).map fun p => newBurst (.tensorWr d.key row r.block p) 2 1 d.domain (r.line p) []

/-- The bank reads of a tile source for a row: only blocks that hold copied bytes. -/
def Desc.readJobs (d : Desc) (row : Nat) : List Job :=
  match d.src? 0 with
  | some s =>
    if !d.tileSrc then []
    else ((List.range s.table.span).filter fun b => 4 * b * d.blockWords false < d.copyBytes row).map fun b =>
      let i := row * s.table.span + b
      { req := 9, purpose := .read d.key 0 i, slice := (s.table.at i).1, offset := (s.table.at i).2.1,
        row := (s.table.at i).2.2, chunks := List.range 8, words := List.replicate 128 0, skip := [] }
  | none => []

/-- The bank write of a fragment into a table (R163 stores codewords as given). -/
def putJob (req : Nat) (cy : Carry) (t : FragTable) (i : Nat) (ws : List Codeword) : Job :=
  { req := req, purpose := .put cy, slice := (t.at i).1, offset := (t.at i).2.1, row := (t.at i).2.2, chunks := List.range 8,
    words := ws, skip := [] }

/-- The 128 words of a destination fragment, pad words zero (R71), none while some are not known. -/
def Desc.fragWords (d : Desc) (row b : Nat) : Option (List Word) :=
  let g := d.blockWords true
  (List.range 128).mapM fun w => if w < g then d.outWord row (b * g + w) else some 0

/-! ### Row signatures (R316, R317) -/

/-- The row signature: ring, index, row, then the bytes the row writes in ascending block and address; none while some are
not known. -/
def Desc.rowSignature (d : Desc) (row : Nat) : Option (BitVec 64) :=
  ((d.writeRuns row).mapM fun r => (List.range r.len).mapM fun i =>
    if d.kind = 4 && r.block = 1 && !d.padsByte row (r.va + BitVec.ofNat 64 i) then some none
    else (d.outWord row (r.base + i / 4)).map fun w => some (BitVec.ofNat 8 (w.toNat / 2 ^ (8 * (i % 4))))).map fun bs =>
      crc64 (natBytes 1 d.key.ring ++ natBytes 8 d.key.idx ++ natBytes 2 row ++ bs.flatten.filterMap id)

/-- The descriptor whose rows the pair compares under a ring and index: the ring's own, or the image of a bulk service that runs
(R375). -/
def Ctl.rowOwner (c : Ctl) (ring idx : Nat) : Option Key :=
  (c.descs.find? fun d => d.key.ring = ring && d.key.idx = idx && d.stage = .run && d.memDst).map (·.key)

/-- Both row signatures are there (R317): the row's writes are released when they are equal. -/
def Ctl.compareRow (c : Ctl) (g : Sig) : Ctl :=
  match g.local_, g.peer with
  | some a, some b =>
    let c : Ctl := { c with sigs := c.sigs.filter fun (s : Sig) => s ≠ g }
    if a = b then
      let c := match c.rowOwner g.ring g.idx with
        | some k => c.modDesc k fun d => { d with rowsReleased := max d.rowsReleased (g.row.getD 0 + 1) }
        | none => c
      c.count rPAIR_COMPARED 1
    else c.mismatch g a b
  | _, _ => c

/-- Send the signature of the next row once every byte of it is known (R317). `prog` counts the rows signed. -/
def Ctl.signRow (c : Ctl) (d : Desc) : Ctl :=
  if !c.paired || !d.memDst || d.rowsN ≤ d.prog then c
  else match d.rowSignature d.prog with
    | some s =>
      let c := (c.modDesc d.key fun d => { d with prog := d.prog + 1 }).sendSig d.key (some d.prog) s
      c.compareRow (c.sigFor d.key.ring d.key.idx (some d.prog))
    | none => c

/-- Send the signatures of the rows whose bytes are known, in order. -/
def Ctl.signRows (c : Ctl) (k : Key) (rows : Nat) : Ctl :=
  c.each (List.range rows) fun c _ => match c.desc? k with
    | some d => c.signRow d
    | none => c

/-! ### Progress -/

/-- Fill the write bursts of a row whose bytes are known, and write the destination fragments whose words are known. -/
def Ctl.feedRow (c : Ctl) (k : Key) (row : Nat) : Ctl :=
  match c.desc? k with
  | none => c
  | some d =>
    let c := c.each (d.writeRuns row) fun c r => c.each (List.range r.parts) fun c p =>
      match d.lineBytes row r p with
      | some bs => c.modBurst (.tensorWr k row r.block p) fun b => { b with data := bs }
      | none => c
    let c := if c.paired && d.memDst then c.signRows k d.rowsN else c
    match d.dst with
    | some t =>
      if d.kind ∉ [2, 4, 9] then c
      else c.each (List.range t.span) fun c b =>
        let i := row * t.span + b
        if d.aux.has i then c
        else match d.fragWords row b with
          | some ws =>
            (c.modDesc k fun d => { d with aux := d.aux.set i 1 }).addJobs [putJob 9 (.dest k i) t i (ws.map encodeCw)]
          | none => c
    | none => c

/-- Begin the rows from the cursor on (R247): their reads, their writes' translations, their padding. -/
def Ctl.startRows (c : Ctl) (k : Key) : Ctl :=
  match c.desc? k with
  | none => c
  | some d =>
    let rows := (List.range d.rowsN).drop d.cursor
    let c := c.addJobs (rows.flatMap d.readJobs)
    let c := c.request (rows.flatMap fun r => d.readBursts r ++ d.writeBursts r)
    c.each rows fun c r => c.feedRow k r

/-- Words read from memory for a row, put into the descriptor's buffer. -/
def Desc.takeLine (d : Desc) (row block part : Nat) (bs : List Byte) : Desc :=
  match (d.readRuns row).find? (·.block = block) with
  | none => d
  | some r =>
    { d with buf := (List.range 16).foldl (fun buf j =>
        let off := (r.line part + BitVec.ofNat 64 (4 * j) - r.va).toNat
        if off < r.len then buf.set (rowWord row (r.base + off / 4)) (word (leNat ((bs.drop (4 * j)).take 4))) else buf) d.buf }

/-- Words read from a tile source for a fragment, put into the buffer without pad words. -/
def Desc.takeFrag (d : Desc) (frag : Nat) (ws : List Word) : Desc :=
  match d.src? 0 with
  | none => d
  | some s =>
    let g := d.blockWords false
    { d with buf := (List.range g).foldl (fun buf w =>
        buf.set (rowWord (frag / s.table.span) (frag % s.table.span * g + w)) (ws.getD w 0)) d.buf }

/-- The row of the descriptor that a bank access of it serves. -/
def Ctl.jobRow (c : Ctl) (k : Key) (j : Job) : Option Nat :=
  match j.purpose, c.desc? k with
  | .read k' _ i, some d => if k' = k then (d.src? 0).map (fun s => i / s.table.span) else none
  | .put (.dest k' i), some d => if k' = k then d.dst.map fun t => i / t.span else none
  | _, _ => none

/-- Has every row below p completed (R245)? A stream's rows are complete when its consumer's ports hold them. -/
def Ctl.belowDone (c : Ctl) (d : Desc) (p : Nat) : Bool :=
  let early (k : Key) (r : Nat) : Bool := k = d.key && r < p
  (c.mem.bursts.all fun b => match b.purpose with
    | .tensorRd k r _ _ => !early k r
    | .tensorWr k r _ _ => !early k r
    | .keyRd k r _ _ => !early k r
    | _ => true) &&
  (c.jobs.all fun j => match c.jobRow d.key j with
    | some r => p ≤ r
    | none => true) &&
  (!d.isStream || d.prefetched || match c.partnerOf d.key with
    | some q => (List.range c.slicesN).all fun n => (c.port n).queue.all fun a =>
        a.key ≠ q || p ≤ (if d.rowsN = 1 then 0 else a.row) || (c.port n).keyBuf.any fun f =>
          f.key = d.key && f.row = (if d.rowsN = 1 then 0 else a.row) && f.block = a.block
    | none => true)

/-- After progress: a final failure of a row completes the descriptor once the rows below it have completed (R248);
otherwise a tile destination is written, or a memory destination has every write acknowledged. An image of a bulk service
fails where a descriptor would park (R371, R375). -/
def Ctl.tensorProgress (c : Ctl) (k : Key) : Ctl :=
  match c.desc? k with
  | none => c
  | some d =>
    if d.stage ≠ .run then c
    else match d.bad with
      | some b => if (!b.parks || k.sub ≠ 0) && c.belowDone d b.row then c.finish k b.status b.detail else c
      | none =>
        if d.isStream then c
        else match d.dst with
          | some t => if d.kind ∈ [2, 4, 9] && t.count ≤ d.done.length then c.modDesc k fun d => { d with stage := .written } else c
          | none => if d.memDst && c.belowDone d d.rowsN && (!c.paired || d.rowsN ≤ d.rowsReleased) then c.finish k 0 0 else c

/-- A LOAD, STORE, RELAYOUT or tile-writing KEYSTREAM runs (step 6). -/
def Ctl.startTensor (c : Ctl) (k : Key) : Ctl := (c.startRows k).tensorProgress k

/-- A fragment of a tile source has been read. -/
def Ctl.memFrag (c : Ctl) (k : Key) (frag : Nat) (ws : List Word) : Ctl :=
  match c.desc? k with
  | none => c
  | some d =>
    let row := match d.src? 0 with
      | some s => frag / s.table.span
      | none => 0
    (((c.modDesc k fun d => d.takeFrag frag ws).feedRow k row)).tensorProgress k

/-- A source word of a row cannot be read (R248, Table 8.4). -/
def Ctl.memLost (c : Ctl) (k : Key) (frag : Nat) : Ctl :=
  match c.desc? k with
  | none => c
  | some d =>
    let row := match d.src? 0 with
      | some s => frag / s.table.span
      | none => 0
    (c.rowFail k { row := row, status := 0x31, detail := 0, parks := false }).tensorProgress k

/-! ### Parking -/

/-- Discard what the descriptor did on rows at and above p (R245), a stream's fragments in key buffers and lanes included. -/
def Ctl.discardFrom (c : Ctl) (k : Key) (p : Nat) : Ctl :=
  let high (j : Job) : Bool := match c.jobRow k j with
    | some r => p ≤ r
    | none => false
  let c : Ctl := { c with jobs := c.jobs.filter fun j => !high j }
  let above (a : Key) (row : Nat) : Bool := a = k && p ≤ row
  let c := c.each (List.range c.slicesN) fun c n =>
    if (c.port n).keyBuf.any (fun f => above f.key f.row) || (c.port n).lane.any (fun a => above a.key a.row) then
      c.modPort n fun x => { x with
        keyBuf := x.keyBuf.filter fun f => !above f.key f.row, lane := x.lane.filter fun a => !above a.key a.row,
        laneBeats := if x.lane.head?.any (fun a => above a.key a.row) then 0 else x.laneBeats }
    else c
  (c.dropRows k fun row => p ≤ row).modDesc k fun d =>
    let sp := match d.dst with
      | some t => t.span
      | none => 1
    { d with buf := d.buf.filter (·.1 < rowWord p 0), aux := d.aux.filter (·.1 < p * sp),
             done := d.done.filter (· < p * sp), prog := min d.prog p, rowsReleased := min d.rowsReleased p }

/-- Park at the cursor: an interim record is written (R145), unless the ring may write none (R133). -/
def Ctl.park (c : Ctl) (d : Desc) (b : RowFail) : Ctl :=
  let c := (c.discardFrom d.key b.row).modDesc d.key fun d => { d with
    stage := .parked, cursor := b.row, status := 0x20, detail := b.detail, bad := none }
  let c := c.sendOutcome d.key 0x20 b.detail b.row
  match c.desc? d.key with
  | some d => if c.shadow || d.key.sub ≠ 0 || (c.ring d.key.ring).recFault then c else c.writeRecord d false
  | none => c

/-- PARK (R245). -/
def execPark (ring idx : Nat) (s : State) : Res :=
  ctlStep (.park ring idx) s fun c =>
    match c.desc? { ring := ring, idx := idx, sub := 0 } with
    | some d => match d.bad with
      | some b => if d.stage = .run && b.parks && c.belowDone d b.row then c.park d b else c
      | none => c
    | none => c

end Sys2Proof.Machine
end

