-- ==== Sys2Proof/Machine/Port.lean ====
section
/-!
DEFINITION. Operations on unit ports: steering (R109), operand fetching through latches (R84, R85), key fragments (R265),
operand requests (R157 to R165), results (R163), departure and reassignment (R179, R180).
-/
namespace Sys2Proof.Machine

/-! ### Ports and classes -/

/-- DEPTH_EFF (R165). -/
def Ctl.depth (c : Ctl) (n : Nat) : Nat := max 1 (min 32 (c.rf (rPORT_CAP0 n) 24 6))
/-- The class of the unit of a port. -/
def Ctl.portClass (c : Ctl) (n : Nat) : Nat := c.rf (rPORT_CAP0 n) 0 8

/-- The in-service ports of a class in some states, ascending. -/
def Ctl.classPorts (c : Ctl) (cls : Nat) (sts : List PortState) : List Nat :=
  c.services.filter fun n => (c.port n).state ∈ sts && c.portClass n = cls

/-- K of R109. -/
def Ctl.readyPorts (c : Ctl) (cls : Nat) : List Nat := c.classPorts cls [.ready]

/-- The end of a timeout of `t` ticks of slice n armed now, as its interval counter counts, modulo 2^48 (R30 to R32). -/
def Ctl.sliceAfter (c : Ctl) (n t : Nat) : Nat := ((c.slice n).ticks + t + 1) % 2 ^ 48
/-- Has a timeout of slice n ended? No timeout is as long as half the counter's range. -/
def Ctl.sliceDue (c : Ctl) (n d : Nat) : Bool := ((c.slice n).ticks + (2 ^ 48 - d % 2 ^ 48)) % 2 ^ 48 < 2 ^ 47

/-- ACK_TICKS of a port. -/
def Ctl.ackTicks (c : Ctl) (n : Nat) : Nat := c.ticksOf (rPORT_CFG n) 0 8

/-! ### Steering (R109) -/

/-- The steering table: A, else B, else C, else the destination. -/
def Desc.steerTable (d : Desc) : Option FragTable :=
  ((d.src? 0).map (·.table)) <|> ((d.src? 1).map (·.table)) <|> ((d.src? 2).map (·.table)) <|> d.dst

/-- The port group: home ports, then others of K (R109). -/
def portGroup (ks list : List Nat) (span : Nat) : List Nat :=
  let home := (list.filter ks.contains).eraseDups
  home ++ (ks.filter fun k => !home.contains k).take (min ks.length span - home.length)

/-- The port of least load, ties to the lower slice. -/
def leastLoad (group : List Nat) (load : Tab Word) : Nat :=
  (group.foldl (fun (b : Option Nat) p => match b with
    | none => some p
    | some q =>
      let lp := (Tab.get 0 load p).toNat
      let lq := (Tab.get 0 load q).toNat
      if lp < lq || (lp = lq && p < q) then some p else some q) none).getD 0

/-- Add one to the load of a port. -/
def addLoad (load : Tab Word) (p : Nat) : Tab Word := load.set p (Tab.get 0 load p + 1)

/-- Assign deferred fragments to the ports of least load, in order (R109, R180). -/
def assignDeferred (group : List Nat) (load : Tab Word) (fr : List (Nat × Nat)) :
    List (Nat × Nat × Nat) × Tab Word :=
  fr.foldl (fun (a : List (Nat × Nat × Nat) × Tab Word) x =>
    let p := leastLoad group a.2
    (a.1 ++ [(p, x.1, x.2)], addLoad a.2 p)) ([], load)

/-- Steering of `rows` rows of span s at fold f over list L: (port, row, block) and the loads (R109). -/
def steer (ks list : List Nat) (f s rows : Nat) : List (Nat × Nat × Nat) × Tab Word :=
  let group := portGroup ks list s
  let quota := s * rows / min ks.length s
  let all := (List.range (rows * s)).map fun i => (i / s, i % s)
  let r := all.foldl (fun (a : List (Nat × Nat × Nat) × List (Nat × Nat) × Tab Word) x =>
    let p := list.getD (x.2 / f) 0
    if group.contains p && (Tab.get 0 a.2.2 p).toNat < quota then (a.1 ++ [(p, x.1, x.2)], a.2.1, addLoad a.2.2 p)
    else (a.1, a.2.1 ++ [x], a.2.2)) ([], [], [])
  let dfr := assignDeferred group r.2.2 r.2.1
  (r.1 ++ dfr.1, dfr.2)

/-! ### Operand streams -/

/-- The stream that a TILE_OP with C_KEY takes (R138). -/
def Ctl.streamOf (c : Ctl) (d : Desc) : Option Desc := if d.takesKey then (c.partnerOf d.key).bind c.desc? else none

/-- The table that stream s (0 A, 1 B, 2 C) of a TILE_OP reads, and for a prefetched key stream which of its fragments are
there (R268). -/
def Ctl.streamTable (c : Ctl) (d : Desc) (s : Nat) : Option (FragTable × Option (List Nat)) :=
  match d.src? s with
  | some x => some (x.table, none)
  | none =>
    if s = 2 then (c.streamOf d).bind fun k => if k.prefetched then k.dst.map fun t => (t, some k.done) else none
    else none

/-- The index of the fragment of a table that an assignment presents: row 0 of a one-row source (R60). -/
def FragTable.index (t : FragTable) (a : Assign) : Nat := (if t.rows = 1 then 0 else a.row) * t.span + a.block

/-- The physical identity of the fragment of stream s (R84), none where it is absent or not there yet. -/
def Ctl.ident (c : Ctl) (d : Desc) (s : Nat) (a : Assign) : Option (Nat × Nat × Nat) :=
  (c.streamTable d s).bind fun x =>
    let i := x.1.index a
    match x.2 with
    | some done => if done.contains i then some (x.1.at i) else none
    | none => some (x.1.at i)

/-- The key fragment in the key buffer of a port for an assignment (R265). -/
def Ctl.keyFrag (c : Ctl) (n : Nat) (d : Desc) (a : Assign) : Option KeyFrag :=
  (c.streamOf d).bind fun k =>
    (c.port n).keyBuf.find? fun f => f.key = k.key && f.row = (if k.rowsN = 1 then 0 else a.row) && f.block = a.block

/-- Does stream s of a TILE_OP carry an operand (Table 5.2)? -/
def Desc.hasStream (d : Desc) (s : Nat) : Bool := (d.tiles.any (·.role = s)) || (s = 2 && d.takesKey)

/-- What stream s of the head fragment presents, none while it is not there. -/
def Ctl.operandWords (c : Ctl) (n : Nat) (d : Desc) (a : Assign) (s : Nat) : Option (List Codeword) :=
  if !d.hasStream s then some (List.replicate 128 0)
  else match ((c.port n).operands.find? (·.1 = s)) with
    | some p => some p.2
    | none => if s = 2 then (c.keyFrag n d a).map (·.words) else none

/-- Shape word of what feeds stream s. -/
def Desc.streamShape (d : Desc) (s : Nat) : Word := d.w (4 + 2 * s)

/-- Lanes of the pad words of a format (R70, R290). -/
def padLanes (f : Nat) : List Nat := (List.range 128).drop (fmtWords f)

/-- The fragment at the head of a port's queue with its descriptor. -/
def Ctl.head (c : Ctl) (n : Nat) : Option (Assign × Desc) :=
  match (c.port n).queue with
  | a :: _ => (c.desc? a.key).map (a, ·)
  | [] => none

/-- Is the fetch of a stream's operand under way? -/
def Ctl.fetching (c : Ctl) (n s : Nat) : Bool :=
  (c.jobs.any fun j => decide (j.purpose = Purpose.operand n s)) ||
  (c.net.flits.any fun f => match f.what with
    | .frag cy _ => decide (cy = Carry.operand n s)
    | _ => false) ||
  c.net.asm.any fun a => decide (a.what = Carry.operand n s)

/-- Put the words of stream s of the head fragment. -/
def Ctl.putOperand (c : Ctl) (n s : Nat) (ws : List Codeword) : Ctl :=
  c.modPort n fun p => { p with operands := p.operands.set s ws }

/-- A latch hit (R84, R87): its recency is refreshed. -/
def Ctl.latchHit (c : Ctl) (n s : Nat) (k : Key) (l : Latch) : Ctl :=
  let c := c.modPort n fun p => { p with latches := (p.latches.filter (· ≠ l)) ++ [l] }
  ((c.count (rLATCH_HITS n) 1).charge (.desc k) 3 1).putOperand n s l.words

/-- A fragment read for stream s goes into the stream's least recently used latch (R84). -/
def Port.latch (p : Port) (s : Nat) (tag : Nat × Nat × Nat) (ws : List Codeword) : Port :=
  let mine := p.latches.filter (·.stream = s)
  let kept := if mine.length < 4 then p.latches else match mine with
    | l :: _ => p.latches.erase l
    | [] => p.latches
  { p with latches := kept ++ [{ stream := s, tag := tag, words := ws }] }

/-- Fetch what the head fragment still needs for stream s: a latch, a read already under way for another stream (R85), or
a read of its banks. -/
def Ctl.fetchStream (c : Ctl) (n s : Nat) : Ctl :=
  match c.head n with
  | none => c
  | some (a, d) =>
    if (c.port n).operands.has s || c.fetching n s then c
    else match c.ident d s a with
      | none => c
      | some tag =>
        match (c.port n).latches.find? (·.tag = tag) with
        | some l => c.latchHit n s d.key l
        | none =>
          if (List.range s).any fun e => c.fetching n e && c.ident d e a = some tag then c
          else (c.count (rLATCH_MISSES n) 1).addJobs
            [{ req := (if tag.1 = n then s else 4 + s), purpose := .operand n s, slice := tag.1, offset := tag.2.1,
               row := tag.2.2, chunks := List.range 8, words := List.replicate 128 0,
               skip := padLanes (shFmt (d.streamShape s)) }]

/-- Words of the network that carry a fragment from slice to slice: each keeps its lane (R203, R204). -/
def fragFlits (user src dst : Nat) (cy : Carry) (ws : List Codeword) : List Flit :=
  ws.zipIdx.map fun p =>
    { user := user, src := src * 128 + p.2, dst := dst * 128 + p.2, word := p.1, what := .frag cy p.2, injected := false }

/-- Send a fragment across the network (R109: a lent one is counted in LENT). -/
def Ctl.sendFrag (c : Ctl) (user src dst : Nat) (cy : Carry) (ws : List Codeword) : Ctl :=
  let c := if user = 0 then c.count rLENT 1 else c
  c.modNet fun x => { x with flits := x.flits ++ fragFlits user src dst cy ws }

/-! ### Key fragments -/

/-- Does a burst fetch a fragment of a stream for a port? -/
def BPurpose.keyFor (k : Key) (n row block : Nat) : BPurpose → Bool
  | .keyRd k' r b part => k' = k && r = row && b = block && part / 16 = n
  | _ => false

/-- Fragments of key streams that a port's key buffer holds or expects; a one-row stream's fragments stay for every row
and are not counted (R265). -/
def Ctl.keyLoad (c : Ctl) (n : Nat) : Nat :=
  let p := c.port n
  let many (k : Key) : Bool := (c.desc? k).any fun d => d.isStream && !d.prefetched && 1 < d.rowsN
  let bs := (c.mem.bursts.filterMap fun b => match b.purpose with
    | .keyRd k r bl part => if many k && part / 16 = n then some (k, r, bl) else none
    | _ => none).eraseDups
  (p.keyBuf.filter fun f => many f.key).length + (p.lane.filter fun a => many a.key).length + bs.length

/-- Fetch or generate the key fragment that an assigned fragment needs (R265). -/
def Ctl.needKey (c : Ctl) (n : Nat) (a : Assign) : Ctl :=
  match (c.desc? a.key).bind c.streamOf with
  | none => c
  | some k =>
    let row := if k.rowsN = 1 then 0 else a.row
    let p := c.port n
    let open_ : Bool := match k.bad with
      | some b => row < b.row
      | none => true
    let have_ : Bool := (p.keyBuf.any fun f => f.key = k.key && f.row = row && f.block = a.block) ||
      (p.lane.any fun x => x.key = k.key && x.row = row && x.block = a.block) ||
      (c.mem.bursts.any fun b => b.purpose.keyFor k.key n row a.block)
    if k.prefetched || k.stage ≠ .run || !open_ || have_ || (1 < k.rowsN && 16 ≤ c.keyLoad n) then c
    else if bit (k.w 1) 9 then
      (c.modPort n fun p => { p with lane := p.lane ++ [{ key := k.key, row := row, block := a.block }] }).startDawn
    else
      let r : Run := { block := a.block, va := k.blockVa row a.block, len := 512, base := 0 }
      c.request ((List.range r.parts).map fun i =>
        newBurst (.keyRd k.key row a.block (16 * n + i)) 3 2 k.domain (r.line i) [])

/-- The key fragments of a port's queue, in presentation order. -/
def Ctl.feedKeys (c : Ctl) (n : Nat) : Ctl := c.each (c.port n).queue fun c a => if a.stale then c else c.needKey n a

/-! ### Operand beats -/

/-- Modulus of row i under stream word m when the format is MODQ (R160). -/
def Desc.qOf (d : Desc) (sh m : Word) (present : Bool) (row : Nat) : Word :=
  if present && shFmt sh = 0 then d.mods.getD (modEntry m row) 0 &&& 0x7FFFFFFF else 0

/-- The seven header words (Table 5.2). -/
def Desc.header (d : Desc) (a : Assign) (seq : Nat) (first last : Bool) : List Word :=
  let p (s : Nat) := d.hasStream s
  let row (s : Nat) := if shRows (d.streamShape s) = 1 then 0 else a.row
  let fm (s : Nat) := if p s then shFmt (d.streamShape s) else 0
  let fl (s : Nat) : Nat := match d.src? s with
    | some x => (x.flags.getD (row s) 0).toNat
    | none => 0
  let q (s : Nat) := d.qOf (d.streamShape s) (d.w (5 + 2 * s)) (p s) (row s)
  [word (fld (d.w 1) 16 16 * 2 ^ 16 + last.toNat * 2 ^ 12 + first.toNat * 2 ^ 11 + (p 2).toNat * 2 ^ 10 +
     (p 1).toNat * 2 ^ 9 + (p 0).toNat * 2 ^ 8 + seq),
   word (shSpanLog d.dShape * 2 ^ 20 + shFmt d.dShape * 2 ^ 15 + fm 2 * 2 ^ 10 + fm 1 * 2 ^ 5 + fm 0),
   word (fl 2 * 2 ^ 24 + fl 1 * 2 ^ 20 + fl 0 * 2 ^ 16 + a.block * 2 ^ 10 + a.row),
   q 0, q 1, q 2, d.qOf d.dShape d.dModulus true a.row]

/-- Raise OP_REQ for the head fragment when its operands are there, a place and a token are free (R156, R165, R26). A request that
waits for its token ends a quiet time (R341). -/
def Ctl.raiseReq (c : Ctl) (n : Nat) : Ctl :=
  match c.head n with
  | none => c
  | some (a, d) =>
    let p := c.port n
    if p.opReq.isSome || p.state ∉ [.ready, .quiescing] || c.depth n ≤ p.outst.length || d.stage ≠ .run then c
    else match c.operandWords n d a 0, c.operandWords n d a 1, c.operandWords n d a 2 with
      | some x, some y, some z =>
        let c := c.startDawn
        if !c.mayBeat (.operand n) then c
        else
          let last := !(p.queue.drop 1).any (·.key = a.key)
          let h := (d.header a p.seq (!d.usedOn.contains n) last).map encodeCw
          ((c.beat (.operand n) (.desc d.key)).modPort n fun p => { p with
            opReq := some (c.sliceAfter n (c.ackTicks n)) }).emit (.operandBeat n h x y z)
      | _, _, _ => c

/-- Everything a port can do by itself: key fragments, operand reads, the next request. -/
def Ctl.pumpPort (c : Ctl) (n : Nat) : Ctl :=
  if (c.port n).queue.isEmpty || !c.issuing then c
  else
    let c := c.feedKeys n
    (((c.fetchStream n 0).fetchStream n 1).fetchStream n 2).raiseReq n

/-- Every port. -/
def Ctl.pumpPorts (c : Ctl) : Ctl := c.each (List.range c.slicesN) fun c n => c.pumpPort n

/-- A fragment read for stream s of the head of a port has arrived (R84, R85): it goes into a latch, and to every stream
that needs the same fragment. -/
def Ctl.operandArrived (c : Ctl) (n s : Nat) (ws : List Codeword) : Ctl :=
  match c.head n with
  | none => c
  | some (a, d) =>
    match c.ident d s a with
    | none => c
    | some tag =>
      let c := (c.modPort n (·.latch s tag ws)).putOperand n s ws
      let more := (List.range 3).filter fun e => e ≠ s && !(c.port n).operands.has e && c.ident d e a = some tag
      let c := c.each more fun c e => ((c.count (rLATCH_HITS n) 1).charge (.desc d.key) 3 1).putOperand n e ws
      c.pumpPort n

/-! ### Starting a TILE_OP -/

/-- Does fragment a come before fragment b on a port: step-5 order, rising row, rising block (R164)? -/
def Ctl.presentedBefore (c : Ctl) (a b : Assign) : Bool :=
  let o (x : Assign) : Nat := ((c.desc? x.key).map (·.order)).getD 0
  o a < o b || (o a = o b && (a.row < b.row || (a.row = b.row && a.block ≤ b.block)))

/-- Is the head fragment of a port being fetched or presented? -/
def Ctl.headBusy (c : Ctl) (n : Nat) : Bool :=
  (c.port n).opReq.isSome || !(c.port n).operands.isEmpty || (List.range 3).any (c.fetching n)

/-- Put fragments of a descriptor on ports, in presentation order behind a head that is busy, and record the loads. -/
def Ctl.assign (c : Ctl) (k : Key) (as : List (Nat × Nat × Nat)) (load : Tab Word) : Ctl :=
  let ports := (as.map (·.1)).eraseDups
  let c := c.each ports fun c n =>
    let mine := (as.filter (·.1 = n)).map fun x => ({ key := k, row := x.2.1, block := x.2.2 } : Assign)
    let b := if c.headBusy n then 1 else 0
    c.modPort n fun p => { p with
      queue := p.queue.take b ++ sortBy c.presentedBefore (p.queue.drop b ++ mine) }
  let c := c.modDesc k fun d => { d with aux := load }
  c.each ports fun c n => c.pumpPort n

/-- Fix the port group of a TILE_OP at step 5 and begin (R109); with no port of its class it is held (R23). The deferred
or repeated unit checks come first (R178). Fragments already captured are not presented again. The window of a prefetch ends here,
for good (R268, R269). -/
def Ctl.startTileOp (c : Ctl) (k : Key) : Ctl :=
  match c.desc? k with
  | none => c
  | some d =>
    let cls := fld (d.w 1) 8 8
    let ks := c.readyPorts cls
    match c.classes.find? (·.1 = cls), d.steerTable with
    | some (_, rec), some t =>
      if ks.isEmpty then c
      else
        let bad : Chk := if d.classRec = some rec then none else unitChecks rec d
        match bad with
        | some (st, de) => c.finish k st de
        | none =>
          let r := steer ks t.list t.fold t.span (shRows d.dShape)
          let left := r.1.filter fun x => !d.outw.has (x.2.1 * t.span + x.2.2)
          let c := if d.admitted then c else c.phaseRaise d.phaseOf
          let c := match c.streamOf d with
            | some e => if e.prefetched then c.modDesc e.key fun e => { e with phase := 0 } else c
            | none => c
          (c.modDesc k fun d => { d with
            stage := .run, admitted := true, classRec := some rec, group := portGroup ks t.list t.span }).assign k left r.2
    | _, _ => c

/-- TILE_OPs that wait at step 5 with their FRESH slots for a port of their class begin, oldest first (R176, R180). -/
def Ctl.startHeld (c : Ctl) : Ctl :=
  let held := sortBy (fun a b => a.order ≤ b.order)
    (c.descs.filter fun d => d.kind = 1 && d.stage = .wait && d.dst.isSome)
  c.each held fun c d => c.startTileOp d.key

/-! ### Departure and reassignment -/

/-- Is a unit in use by a TILE_OP: from its first operand beat there until it completes (R179)? A restart begins anew (R45). -/
def Desc.usesPort (d : Desc) (n : Nat) : Bool := d.kind = 1 && !d.completed && d.stage ≠ .fenced && d.usedOn.contains n

/-- Has every W of a TILE_OP been captured? Then its commit comes before a departure (Table 5.8). -/
def Desc.allCaptured (d : Desc) : Bool := d.dst.any fun t => decide (t.count ≤ d.outw.length)

/-- Is a TILE_OP in flight on a port, with W still to be captured (R179, R184)? -/
def Ctl.inFlightOn (_c : Ctl) (n : Nat) (d : Desc) : Bool := d.usesPort n && !d.allCaptured

/-- Is the unit of a port in use (R179)? One that has left is not. -/
def Ctl.inUse (c : Ctl) (n : Nat) : Bool :=
  (c.port n).state ∈ [.ready, .quiescing, .quiesced] && c.descs.any (·.usesPort n)

/-- Idle the handshakes of a port: requests low, outstanding beats lost (R179). -/
def Ctl.idlePort (c : Ctl) (n : Nat) : Ctl :=
  let c := { c with jobs := c.jobs.filter fun j => match j.purpose with
    | .operand m _ => m ≠ n
    | _ => true }
  let c := c.modNet fun x => { x with
    flits := x.flits.filter (fun f => match f.what with
      | .frag (.operand m _) _ => m ≠ n
      | _ => true), asm := x.asm.filter fun a => match a.what with
      | .operand m _ => m ≠ n
      | _ => true }
  c.modPort n fun p => { p with
    outst := [], operands := [], opReq := none, wDeadline := none, wReq := none, seqFresh := false, rcWords := [], rcIdx := 0,
    rcTries := 0 }

/-- Does a slice's lane generate for a descriptor whatever its port does: for a tile, or for a prefetch (R265)? -/
def Ctl.laneStays (c : Ctl) (k : Key) : Bool := (c.desc? k).any fun d => !d.isStream || d.prefetched

/-- The fragments left on a port go to the remaining ports of their groups, or their instruction returns to step 5 with
its FRESH slots (R180). A beat that its instruction has left behind goes nowhere. -/
def Ctl.reassign (c : Ctl) (n : Nat) : Ctl :=
  let left := (c.port n).queue.filter (!·.stale)
  let keys := (left.map (·.key)).eraseDups
  let lane := (c.port n).lane.filter fun a => c.laneStays a.key
  let c := c.modPort n fun p => { p with
    queue := [], lane := lane, laneBeats := if lane.head? = p.lane.head? then p.laneBeats else 0, keyBuf := [], operands := [],
    opReq := none }
  let c := c.each keys fun c k =>
    match c.desc? k with
    | none => c
    | some d =>
      let group := (d.group.filter fun m => m ≠ n && (c.port m).state = .ready && c.isIn m)
      let fr := (left.filter (·.key = k)).map fun a => (a.row, a.block)
      if d.stage ≠ .run then c
      else if group.isEmpty then
        let c := c.each (List.range c.slicesN) fun c m =>
          c.modPort m (·.forget k)
        c.modDesc k fun d => { d with stage := .wait, group := [], aux := [] }
      else
        let r := assignDeferred group d.aux fr
        (c.modDesc k fun d => { d with group := group }).assign k r.1 r.2
  c.startHeld

/-- Mark a unit gone (R179): the instructions in flight on it complete with UNIT_GONE. GONES counts a PORT_RESET of a unit in use as
R179 says, although R183 has a reset change PORT_STATE alone (DESIGN CHOICE, log entry 88). -/
def Ctl.markGone (c : Ctl) (n cause : Nat) : Ctl :=
  let st : PortState := if cause = 5 then .fenced else if cause = 6 then .absent else .gone
  let hit := (c.descs.filter (c.inFlightOn n)).map (·.key)
  let c := ((c.bump (rPORT_GONE n) 0 16 1).portEnter n st (some cause)).idlePort n
  let c := c.each hit fun c k => c.finish k 0x42 0
  c.reassign n

/-- Every destination fragment of a TILE_OP has been written: it waits for its commit (R94). -/
def Ctl.tileProgress (c : Ctl) (k : Key) : Ctl :=
  match c.desc? k with
  | some d => match d.dst with
    | some t => if d.kind = 1 && d.stage = .run && t.count ≤ d.done.length then c.modDesc k fun d => { d with stage := .written } else c
    | none => c
  | none => c

end Sys2Proof.Machine
end

