-- ==== Sys2Proof/Machine/Ports.lean ====
section
/-!
DEFINITION. The commands of unit ports: operand and result beats, timeouts, roll call, departure, quiescing, fencing,
reset (R155 to R185).
-/
namespace Sys2Proof.Machine

/-! ### Beats -/

/-- An operand handshake is complete (R157, R161, R165). The first beat presented after READY was entered carries SEQ 0. -/
def Ctl.operandDone (c : Ctl) (n : Nat) : Ctl :=
  match (c.port n).queue with
  | [] => c
  | a :: rest =>
    let c := (c.count (rOP_BEATS n) 1).charge (.desc a.key) 4 1
    let one (k : Key) : Bool := (c.desc? k).any fun d => d.rowsN = 1
    let stream := if a.stale then none else ((c.desc? a.key).bind c.streamOf).map (·.key)
    let fmt := ((c.desc? a.key).map fun d => shFmt d.dShape).getD 0
    let c := c.modPort n fun p => { p with
      queue := rest, outst := p.outst ++ [{ seq := p.seq, what := a, fmt := fmt }],
      seq := if p.seqFresh then 0 else (p.seq + 1) % 64, seqFresh := false, operands := [],
      opReq := none, wDeadline := if p.outst.isEmpty then some (c.sliceAfter n (c.ackTicks n)) else p.wDeadline,
      keyBuf := p.keyBuf.filter fun f => some f.key ≠ stream || one f.key || f.row ≠ a.row || f.block ≠ a.block }
    let c := c.modDesc a.key fun d => { d with usedOn := if a.stale || d.usedOn.contains n then d.usedOn else d.usedOn ++ [n] }
    c.pumpPort n

/-- OPERAND_BEAT (R157). -/
def execOperandBeat (slice : Nat) (s : State) : Res :=
  ctlStep (.operandBeat slice) s fun c => if (c.port slice).opReq.isSome then c.operandDone slice else c

/-- The lanes of W as stored: as received, zero on pad words (R162, R163). -/
def storedW (f : Nat) (lanes : List Codeword) : List Codeword :=
  lanes.zipIdx.map fun p => if p.2 < fmtWords f then p.1 else 0

/-- The W fragment goes to the slice of its destination (R109). -/
def Ctl.writeW (c : Ctl) (n : Nat) (d : Desc) (a : Assign) (ws : List Codeword) : Ctl :=
  match d.dst with
  | none => c
  | some t =>
    let i := a.row * t.span + a.block
    let c := c.modDesc d.key fun d => { d with outw := d.outw.set i 1 }
    if t.sliceOf i = n then c.addJobs [putJob 3 (.dest d.key i) t i ws] else c.sendFrag 0 n (t.sliceOf i) (.dest d.key i) ws

/-- Count what a W beat shows (R163): each correctable codeword, an uncorrectable one once for the beat, UNIT_ERR. An uncorrectable
header word counts as an uncorrectable codeword (log entry 13); a corrected one is counted nowhere, since PORT_ERR speaks of W
codewords (DESIGN CHOICE, log entry 13). -/
def Ctl.countW (c : Ctl) (n : Nat) (wh : Decoded) (ds : List Decoded) (unc : Bool) : Ctl :=
  let cor := (ds.filter fun d => match d with
    | .corrected _ => true
    | _ => false).length
  let c := c.bump (rPORT_ERR n) 0 8 cor
  let c := if unc then c.bump (rPORT_ERR n) 8 8 1 else c
  if bit wh.data 8 then c.bump (rPORT_ERR n) 16 8 1 else c

/-- A W beat whose SEQ matches: every one is decoded and counted, whatever became of its instruction; an uncorrectable codeword or
UNIT_ERR fails the instruction (R163); the other beats of an instruction that failed, and those of one that started again, are
discarded. -/
def Ctl.acceptW (c : Ctl) (n : Nat) (o : Outst) (wh : Decoded) (lanes : List Codeword) : Ctl :=
  let ds := (lanes.take (fmtWords o.fmt)).map decodeCw
  let unc : Bool := wh = .uncorrectable || ds.any (· = .uncorrectable)
  let c := c.countW n wh ds unc
  match c.desc? o.what.key with
  | none => c
  | some d =>
    if d.stage ≠ .run || o.what.stale then c
    else if unc || bit wh.data 8 then c.finish d.key 0x31 0
    else c.writeW n d o.what (storedW o.fmt lanes)

/-- The W beat of the oldest outstanding operand beat is captured (R165, R25), while issue is stopped without a token (Table 11.3
step 2). -/
def Ctl.captureW (c : Ctl) (n : Nat) (o : Outst) (wh : Decoded) (lanes : List Codeword) : Ctl :=
  let c := if c.power.stopped then c else c.beat (.result n) (.desc o.what.key)
  let c := (c.count (rW_BEATS n) 1).charge (.desc o.what.key) 5 1
  let c := c.modPort n fun p =>
    let rest := p.outst.drop 1
    { p with outst := rest, wReq := none, wDeadline := if rest.isEmpty then none else some (c.sliceAfter n (c.ackTicks n)) }
  ((c.acceptW n o wh lanes).quiesceDone n).pumpPort n

/-- W_REQ on a port (R163, R167, R27): W_ACK is withheld while the result bucket holds no token. A unit that changes its beat
before W_ACK violates the phases (R156, Table 5.7). A QUIESCED port has nothing outstanding and leaves its state only as its row of
Table 5.3 says: W_REQ there is ignored, although R167 calls it a protocol error (DESIGN CHOICE, log entry 88). -/
def Ctl.resultReq (c : Ctl) (n : Nat) (wh : Codeword) (lanes : List Codeword) : Ctl :=
  let p := c.port n
  if p.state ∉ [.ready, .quiescing] then c
  else match p.outst with
    | [] => c.markGone n 4
    | o :: _ =>
      let h := decodeCw wh
      if p.wReq.any (· ≠ (wh, lanes)) then c.markGone n 4
      else if h ≠ .uncorrectable && fld h.data 0 6 ≠ o.seq then c.markGone n 4
      else
        let c := c.startDawn
        if c.power.stopped || c.mayBeat (.result n) then c.captureW n o h lanes
        else c.modPort n fun p => { p with wDeadline := none, wReq := some (wh, lanes) }

/-- The W beats that wait for their tokens are captured as far as tokens allow (R27). -/
def Ctl.captureWaiting (c : Ctl) : Ctl :=
  c.each (List.range c.slicesN) fun c n => match (c.port n).wReq with
    | some w => c.resultReq n w.1 w.2
    | none => c

/-- RESULT_BEAT (R163). -/
def execResultBeat (slice : Nat) (wh : Codeword) (lanes : List Codeword) (s : State) : Res :=
  ctlStep (.resultBeat slice wh lanes) s fun c => c.resultReq slice wh lanes

/-- ACK_TIMEOUT (R179): OP_ACK was not raised in time, or not lowered in time after that; neither bound ends before that of the
rise. -/
def execAckTimeout (slice : Nat) (s : State) : Res :=
  ctlStep (.ackTimeout slice) s fun c =>
    match (c.port slice).opReq with
    | some d => if c.sliceDue slice d then c.markGone slice 1 else c
    | none => c

/-- W_TIMEOUT (R179). -/
def execWTimeout (slice : Nat) (s : State) : Res :=
  ctlStep (.wTimeout slice) s fun c =>
    match (c.port slice).wDeadline with
    | some d => if c.sliceDue slice d && !(c.port slice).outst.isEmpty then c.markGone slice 2 else c
    | none => c

/-! ### Roll call (Table 5.4) -/

/-- Ask for a capability word. -/
def Ctl.askWord (c : Ctl) (n idx : Nat) : Ctl :=
  (c.modPort n fun p => { p with rcIdx := idx, rcDeadline := c.sliceAfter n (c.ticksOf (rPORT_CFG n) 8 8) }).emit
    (.rollCall n idx)

/-- PRESENT is high at a tick boundary (R171, R172); no roll call begins in Evening, in Night or while waking (R405). -/
def Ctl.presentHigh (c : Ctl) (n : Nat) : Ctl :=
  let c := c.modPort n fun p => { p with present := true, lowTicks := 0 }
  if (c.port n).state = .absent && c.isIn n && c.pstate ∉ [2, 4, 5] then
    (c.modPort n fun p => { p with state := .rolling, rcTries := 0, rcWords := [] }).askWord n 0
  else c

/-- ROLL_CALL (R172): PRESENT sampled high. -/
def execRollCall (slice : Nat) (s : State) : Res :=
  ctlStep (.rollCall slice) s fun c => if c.pstate = 4 then c else c.presentHigh slice

/-- Roll call fails with a cause (R174). -/
def Ctl.refusePort (c : Ctl) (n cause : Nat) : Ctl :=
  (c.bump (rPORT_GONE n) 16 16 1).portEnter n .refused (some cause)

/-- The acceptance fields and class of capability words, as CLASS_CAP0 to CLASS_CAP3 show them (R173, Table 5.19). -/
def acceptance (ws : List Word) : List Word :=
  List.zipWith (· &&& ·) ws [0x00FFFFFF, 0x01FF01FF, 0x01FF01FF, 0x0000077F]

/-- The four words are in (Table 5.4 steps 5 and 6, R174 to R176). -/
def Ctl.finishRoll (c : Ctl) (n : Nat) (ws : List Word) : Ctl :=
  let cls := fld (ws.getD 0 0) 0 8
  let acc := acceptance ws
  let used := !(c.classPorts cls [.ready, .quiescing]).isEmpty
  if cls = 0 || cls = 0xFF then c.refusePort n 8
  else if used && (c.classes.find? (·.1 = cls)).map (·.2) ≠ some acc then c.refusePort n 9
  else
    let c := (((c.setReg (rPORT_CAP0 n) (ws.getD 0 0)).setReg (rPORT_CAP1 n) (ws.getD 1 0)).setReg (rPORT_CAP2 n)
      (ws.getD 2 0)).setReg (rPORT_CAP3 n) (ws.getD 3 0)
    let c := if used then c else { c with classes := c.classes.set cls acc }
    ((c.modPort n fun p => { p with seq := 0 }).portEnter n .ready none).startHeld

/-- A capability word is captured (R174): an uncorrectable one is asked for again, twice at most. -/
def Ctl.rollWord (c : Ctl) (n : Nat) (w : Codeword) : Ctl :=
  let p := c.port n
  if p.state ≠ .rolling then c
  else match decodeCw w with
    | .uncorrectable =>
      if p.rcTries < 2 then
        ((c.bump (rPORT_ERR n) 24 8 1).modPort n fun p => { p with rcTries := p.rcTries + 1 }).askWord n p.rcIdx
      else c.refusePort n 10
    | d =>
      let ws := p.rcWords ++ [d.data]
      let c := c.modPort n fun p => { p with rcWords := ws, rcTries := 0 }
      if p.rcIdx < 3 then c.askWord n (p.rcIdx + 1) else c.finishRoll n ws

/-- ROLL_CALL_WORD (R174). -/
def execRollCallWord (slice : Nat) (word : Codeword) (s : State) : Res :=
  ctlStep (.rollCallWord slice word) s fun c => c.rollWord slice word

/-- ROLL_TIMEOUT (R174). -/
def execRollTimeout (slice : Nat) (s : State) : Res :=
  ctlStep (.rollTimeout slice) s fun c =>
    if (c.port slice).state = .rolling && c.sliceDue slice (c.port slice).rcDeadline then c.refusePort slice 11 else c

/-! ### Leaving -/

/-- A port becomes ABSENT. -/
def Ctl.portAbsent (c : Ctl) (n : Nat) : Ctl :=
  (c.modPort n fun p => { p with state := .absent }).reassign n

/-- PRESENT is low at a tick boundary (Tables 5.3 and 5.7). A port that rolls call stays ROLLING, which only success and failure
leave, and a unit in use with no beat outstanding and no fragment assigned leaves as ABSENT, not as gone: Tables 5.3 and 5.7 against
R182 (DESIGN CHOICE, log entry 88). -/
def Ctl.presentFalls (c : Ctl) (n : Nat) : Ctl :=
  let c := c.modPort n fun p => { p with present := false, lowTicks := p.lowTicks + 1 }
  let p := c.port n
  match p.state with
  | .ready => if p.outst.isEmpty && p.queue.isEmpty then c.portAbsent n else c.markGone n 3
  | .quiescing => if p.outst.isEmpty && p.queue.isEmpty then c.portAbsent n else c.markGone n 3
  | .quiesced => c.portAbsent n
  | .refused => if 2 ≤ p.lowTicks then c.portAbsent n else c
  | .gone => if 2 ≤ p.lowTicks && p.cause ≠ 7 then c.portAbsent n else c
  | _ => c

/-- PRESENT_LOW (R171). -/
def execPresentLow (slice : Nat) (s : State) : Res :=
  ctlStep (.presentLow slice) s fun c => if c.pstate = 4 then c else c.presentFalls slice

/-- QUIESCE set (R182). -/
def Ctl.quiesce (c : Ctl) (n : Nat) : Ctl :=
  if (c.port n).state = .ready then (c.modPort n fun p => { p with state := .quiescing }).quiesceDone n else c

/-- QUIESCE cleared (R182): the port enters READY, and the next beat it presents carries SEQ 0 (R161). -/
def Ctl.unquiesce (c : Ctl) (n : Nat) : Ctl :=
  if (c.port n).state ∈ [.quiescing, .quiesced] then
    ((c.modPort n fun p => { p with seq := if p.opReq.isSome then p.seq else 0, seqFresh := p.opReq.isSome }).portEnter n
      .ready none).startHeld
  else c

/-- FENCE set in PORT_CTL (Table 5.3, R179, R180). -/
def Ctl.fencePort (c : Ctl) (n : Nat) : Ctl :=
  if (c.port n).state = .fenced then c
  else if c.inUse n then c.markGone n 5
  else ((c.modPort n fun p => { p with state := .fenced }).idlePort n).reassign n

/-- FENCE cleared in PORT_CTL (Table 5.3, R181). -/
def Ctl.unfencePort (c : Ctl) (n : Nat) : Ctl :=
  if (c.port n).state = .fenced then c.modPort n fun p => { p with state := .absent } else c

/-- PORT_RESET (R183). A FENCED port, and one that its slice's fence marked gone while the slice is out of service (Table 5.3), only
idle their handshakes. -/
def Ctl.resetPort (c : Ctl) (n : Nat) : Ctl :=
  if (c.port n).state = .fenced || ((c.port n).state = .gone && (c.port n).cause = 7 && !c.isIn n) then c.idlePort n
  else if c.inUse n then c.markGone n 6
  else ((c.modPort n fun p => { p with state := .absent }).idlePort n).reassign n

/-- CNT_CLEAR of PORT_CTL (Table 5.10). -/
def Ctl.clearPortCounters (c : Ctl) (n : Nat) : Ctl := c.zeroRegs [rOP_BEATS n, rW_BEATS n, rPORT_GONE n, rPORT_ERR n]

/-- A write of PORT_CTL (Table 5.10). -/
def Ctl.writePortCtl (c : Ctl) (n : Nat) (d : Word) : Ctl :=
  let old := c.reg (rPORT_CTL n)
  let c := c.setReg (rPORT_CTL n) (d &&& 3)
  let c := if bit d 0 then c.fencePort n else c.unfencePort n
  let c := if bit d 1 then c.quiesce n else if bit old 1 then c.unquiesce n else c
  let c := if bit d 2 then c.resetPort n else c
  if bit d 3 then c.clearPortCounters n else c

/-- PORT_RESET (R183): a write of PORT_CTL that leaves FENCE and QUIESCE as they are. -/
def execPortReset (slice : Nat) (id : Byte) (s : State) : Res :=
  ctlStep (.portReset slice id) s fun c =>
    c.access id (rPORT_CTL slice) true fun c => { c.resetPort slice with regRdata := 0 }

/-- QUIESCE_SET (R182). -/
def execQuiesceSet (slice : Nat) (id : Byte) (s : State) : Res :=
  ctlStep (.quiesceSet slice id) s fun c =>
    c.access id (rPORT_CTL slice) true fun c => { (c.raise (rPORT_CTL slice) 1).quiesce slice with regRdata := 0 }

/-- QUIESCE_CLEAR (R182). -/
def execQuiesceClear (slice : Nat) (id : Byte) (s : State) : Res :=
  ctlStep (.quiesceClear slice id) s fun c =>
    c.access id (rPORT_CTL slice) true fun c => { (c.lower (rPORT_CTL slice) 1).unquiesce slice with regRdata := 0 }

/-- PORT_FENCE_SET (R179). -/
def execPortFenceSet (slice : Nat) (id : Byte) (s : State) : Res :=
  ctlStep (.portFenceSet slice id) s fun c =>
    c.access id (rPORT_CTL slice) true fun c => { (c.raise (rPORT_CTL slice) 0).fencePort slice with regRdata := 0 }

/-- PORT_FENCE_CLEAR (R181). -/
def execPortFenceClear (slice : Nat) (id : Byte) (s : State) : Res :=
  ctlStep (.portFenceClear slice id) s fun c =>
    c.access id (rPORT_CTL slice) true fun c => { (c.lower (rPORT_CTL slice) 0).unfencePort slice with regRdata := 0 }

/-- PORT_CNT_CLEAR (R163). -/
def execPortCntClear (slice : Nat) (id : Byte) (s : State) : Res :=
  ctlStep (.portCntClear slice id) s fun c =>
    c.access id (rPORT_CTL slice) true fun c => { c.clearPortCounters slice with regRdata := 0 }

end Sys2Proof.Machine
end

