-- ==== Sys2Proof/Machine/Key.lean ====
section
/-!
DEFINITION. Key streams: their start and prefetch (R265 to R268), expander lanes (R263, R264), stored key material
(R262), drops and orphans (R269, R271).
-/
namespace Sys2Proof.Machine

/-- Fragments of a descriptor's destination, or of a prefetched stream, that lanes generate: (slice, row, block) (R265). -/
def laneWork (t : FragTable) : List (Nat × Nat × Nat) :=
  (List.range t.count).map fun i => (t.sliceOf i, i / t.span, i % t.span)

/-- Give the expander lanes of the slices that hold a table its fragments to generate (R265). -/
def Ctl.startLanes (c : Ctl) (k : Key) (t : FragTable) : Ctl :=
  (c.each (laneWork t) fun c x =>
    c.modPort x.1 fun p => { p with lane := p.lane ++ [{ key := k, row := x.2.1, block := x.2.2 }] }).startDawn

/-- A KEYSTREAM that writes a tile runs (R262, R265). -/
def Ctl.startKeyTile (c : Ctl) (k : Key) : Ctl :=
  match c.desc? k with
  | some d => match d.dst with
    | some t => if bit (d.w 1) 9 then c.startLanes k t else c.startTensor k
    | none => c
  | none => c

/-- Try to prefetch a stream at its step 5 (R268): FRESH slots under rule 6 of R104, beyond the need of every descriptor
that waits; otherwise it runs as if PREFETCH were clear, as it does in deterministic mode (R313). -/
def Ctl.tryPrefetch (c : Ctl) (k : Key) : Ctl :=
  match c.desc? k with
  | none => c
  | some d =>
    let win := c.rf rKEY_CFG 0 16
    if !bit (d.w 1) 10 || win = 0 || c.det then c
    else
      let span := shSpan (d.w 4)
      let rows := shRows (d.w 4)
      let f := c.foldFor span
      let l := c.emptiest (span / f)
      let home := c.bestQuarter 0x4000 l []
      let t : Option FragTable :=
        if l.length < span / f || c.freeSlots < c.waitingNeed + shapeClaim (d.w 4) then none
        else c.placeOn l f home rows span none
      match t with
      | none => c.count rPF_SKIPPED 1
      | some t =>
        let c := c.setSlots t.slots .fresh (.desc k)
        let c := c.modDesc k fun d => { d with
          dst := some t, prefetched := true, phase := c.after win,
          mods := if (c.partnerOf k).any (fun q => (c.desc? q).any fun e => e.stage ∉ [Stage.hold, .check]) then d.mods
            else (List.range 64).map fun i => c.reg (rMODQ_ACTIVE i) }
        if bit (d.w 1) 9 then c.startLanes k t
        else c.request ((List.range rows).flatMap fun r => (d.readBursts r).map fun (b : Burst) =>
          { b with cls := 4, prefetch := true })

/-- A streamed KEYSTREAM passes step 5 (R268, R271). -/
def Ctl.startStream (c : Ctl) (k : Key) : Ctl :=
  (c.modDesc k fun d => { d with stage := .run, deadline := some (c.after (c.ticksOf rKEY_CFG 16 16)) }).tryPrefetch k

/-! ### Expander lanes -/

/-- The seed of a KEYSTREAM (Table 4.11). -/
def Desc.seed (d : Desc) : List Word := (List.range 8).map fun i => d.w (8 + i)

/-- The fragment that a lane generates and the permutations it takes (R263). -/
def Desc.expand (d : Desc) (a : Assign) : List Word × Nat :=
  keyFragment d.seed a.row a.block (modulusOf d.mods (d.w 5) a.row)

/-- A lane delivers a fragment: to the key buffer of its port, or into the fragment's FRESH slot (R265). -/
def Ctl.deliver (c : Ctl) (n : Nat) (d : Desc) (a : Assign) (ws : List Word) : Ctl :=
  match d.dst with
  | some t => c.addJobs [putJob 9 (.dest d.key (a.row * t.span + a.block)) t (a.row * t.span + a.block) (ws.map encodeCw)]
  | none =>
    let f : KeyFrag := { key := d.key, row := a.row, block := a.block, words := ws.map encodeCw }
    (c.modPort n fun p => { p with keyBuf := p.keyBuf ++ [f] }).pumpPort n

/-- Begin permutations of the fragment at the head of a lane while tokens last, at most `n`: each is one paced beat, one KECCAK
event and one KEY_PERMS count (R26, R27, R264, R330). -/
def Ctl.permute (c : Ctl) (slice : Nat) (k : Key) : Nat → Ctl
  | 0 => c
  | n + 1 =>
    if c.mayBeat (.lane slice) then
      let c := (c.beat (.lane slice) (.desc k)).modPort slice fun p => { p with laneBeats := p.laneBeats + 1 }
      ((c.count rKEY_PERMS 1).charge (.desc k) 8 1).permute slice k n
    else c

/-- A lane goes on with its first fragment as far as tokens allow, and delivers it once every permutation of it has run. -/
def Ctl.generate (c : Ctl) (n : Nat) : Ctl :=
  match (c.port n).lane with
  | [] => c
  | a :: rest =>
    match c.desc? a.key with
    | none => c.modPort n fun p => { p with lane := rest, laneBeats := 0 }
    | some d =>
      let r := d.expand a
      let c := c.startDawn.permute n d.key (r.2 - (c.port n).laneBeats)
      if (c.port n).laneBeats < r.2 then c
      else ((c.count rKEY_WORDS 128).modPort n fun p => { p with lane := rest, laneBeats := 0 }).deliver n d a r.1

/-- KEY_FRAGMENT_GENERATED (R264). -/
def execKeyFragmentGenerated (slice : Nat) (s : State) : Res :=
  ctlStep (.keyFragmentGenerated slice) s fun c => c.generate slice

/-! ### Stored key material -/

/-- Key of a word of a fragment of a stream fetched for port n. -/
def portWord (n row block w : Nat) : Nat := (n + 1) * 2 ^ 40 + rowWord row (block * 128 + w)

/-- Words of a stream read for a port: the whole fragment goes to the port's key buffer (R265). -/
def Ctl.keyPart (c : Ctl) (d : Desc) (row block part : Nat) (bs : List Byte) : Ctl :=
  let n := part / 16
  let va := d.blockVa row block
  let line := BitVec.ofNat 64 ((va.toNat / 64 + part % 16) * 64)
  let buf := (List.range 16).foldl (fun (buf : Tab Word) j =>
    let off := (line + BitVec.ofNat 64 (4 * j) - va).toNat
    if off < 512 then buf.set (portWord n row block (off / 4)) (word (leNat ((bs.drop (4 * j)).take 4))) else buf) d.buf
  match (List.range 128).mapM fun w => (buf.find? (·.1 = portWord n row block w)).map (·.2) with
  | none => c.modDesc d.key fun d => { d with buf := buf }
  | some ws =>
    let mine (k : Nat) : Bool := portWord n row block 0 ≤ k && k < portWord n row block 128
    let f : KeyFrag := { key := d.key, row := row, block := block, words := ws.map encodeCw }
    let c := c.modDesc d.key fun d => { d with buf := buf.filter fun p => !mine p.1 }
    ((c.modPort n fun p => { p with keyBuf := p.keyBuf ++ [f] }).tensorProgress d.key).pumpPort n

/-- A line of stored key material arrives: for a port of a stream, or for the rows of a tile or of a prefetch (R262). -/
def Ctl.keyLine (c : Ctl) (k : Key) (row block part : Nat) (bs : List Byte) : Ctl :=
  match c.desc? k with
  | none => c
  | some d =>
    if d.isStream && !d.prefetched then c.keyPart d row block part bs
    else (((c.modDesc k fun d => d.takeLine row block part bs).feedRow k row)).tensorProgress k

/-! ### Drops and orphans -/

/-- Has a consumer of the stream fixed its port group (R268)? -/
def Ctl.consumerFixed (c : Ctl) (k : Key) : Bool :=
  ((c.partnerOf k).bind c.desc?).any fun q => !q.group.isEmpty || q.completed

/-- Is a prefetch still without a consumer that has fixed its port group (R268, R269)? -/
def Desc.prefetchOpen (d : Desc) : Bool := d.prefetched && d.phase ≠ 0 && !d.completed

/-- PREFETCH_DROP (R269): the window has ended without a consumer that has fixed its group. -/
def execPrefetchDrop (ring idx : Nat) (s : State) : Res :=
  ctlStep (.prefetchDrop ring idx) s fun c =>
    let k : Key := { ring := ring, idx := idx, sub := 0 }
    match c.desc? k with
    | some d => if d.prefetchOpen && c.due d.phase then c.dropPrefetch k else c
    | none => c

/-- A stream that nobody took completes with KEY_ORPHAN; a prefetch is counted as dropped (R271). -/
def Ctl.orphanKey (c : Ctl) (k : Key) : Ctl := (c.dropPrefetch k).finish k 0x40 9

/-- KEY_ORPHAN (R271). -/
def execKeyOrphan (ring idx : Nat) (s : State) : Res :=
  ctlStep (.keyOrphan ring idx) s fun c =>
    let k : Key := { ring := ring, idx := idx, sub := 0 }
    match c.desc? k with
    | some d => match d.deadline with
      | some t =>
        if d.isStream && d.stage = .run && d.partner.isNone && c.due t then c.orphanKey k else c
      | none => c
    | none => c

end Sys2Proof.Machine
end

