-- ==== Sys2Proof/Machine/Bank.lean ====
section
/-!
DEFINITION. Banks: where a logical row lies (R296, R298), reads that decode (R290, R291), what follows from words that are
lost (R292, R301), sparing (R297, R298), fencing (R304, R45).
-/
namespace Sys2Proof.Machine

/-! ### Physical banks and rows -/

/-- The spare-row entries of a physical bank (R296). -/
def Ctl.spareEntries (c : Ctl) (n pb : Nat) : List (Nat × Bool) := Tab.get [] c.integ.spareRows (n * 34 + pb)
/-- The physical row that stands for logical row r of a physical bank: its latest entry (R296). -/
def Ctl.physRow (c : Ctl) (n pb r : Nat) : Nat :=
  match ((c.spareEntries n pb).zipIdx.filter fun e => e.1.1 = r).getLast? with
  | some e => 2048 + e.2
  | none => r
/-- The logical bank that a physical bank holds, none for an unused spare bank or one that is replaced. -/
def Ctl.bankOf (c : Ctl) (n pb : Nat) : Option Nat := (List.range 32).find? fun b => c.physBank n b = pb
/-- The logical row that a physical row holds, none for an unused or dead entry and for a row that is spared. -/
def Ctl.rowOf (c : Ctl) (n pb pr : Nat) : Option Nat :=
  if pr < 2048 then (if c.physRow n pb pr = pr then some pr else none)
  else match (c.spareEntries n pb)[pr - 2048]? with
    | some e => if c.physRow n pb e.1 = pr then some e.1 else none
    | none => none
/-- The slot of a bank row (R88). -/
def rowSlot (n b r : Nat) : Nat := slotKey n r (b / 8)

/-- Log an event at a bank row (R324). -/
def Ctl.logRow (c : Ctl) (event n pb pr : Nat) (name : Option Nat) : Ctl :=
  c.logEvent { event := event, slice := n, bank := pb, row := pr, name := name }

/-! ### Reading and writing bank rows -/

/-- What a read of a bank row gives: 16 corrected codewords, zero where a word was lost or took no part, the lost words,
how many were corrected, and how often the row was read (R291). -/
structure ReadOut where
  words : List Codeword
  lost : List Nat
  fixed : Nat
  reads : Nat
  deriving DecidableEq, Repr

/-- Decode the words that take part (R290): corrected codewords, lost words, number corrected. -/
def decodeRow (ws : List Codeword) (skip : List Nat) : List Codeword × List Nat × Nat :=
  let ds := ws.zipIdx.map fun p => if skip.contains p.2 then Decoded.ok 0 else decodeCw p.1
  (ds.map (·.codeword), (ds.zipIdx.filter fun p => p.1 = .uncorrectable).map (·.2),
    (ds.filter fun d => match d with
      | .corrected _ => true
      | _ => false).length)

/-- Count the lost words of a row that are found for the first time (R292). -/
def Ctl.countLost (c : Ctl) (n pb pr : Nat) (lost : List Nat) : Ctl :=
  let fresh := (lost.map fun w => (n, pb, pr, w)).filter fun x => !c.integ.ueSeen.contains x
  (c.count (rUE_COUNT n) fresh.length).modInteg fun i => { i with ueSeen := i.ueSeen ++ fresh }

/-- Read a physical bank row (R290, R291): `noise` and `reread` are the errors the first and second read meet; `gone` the
row of a dead bank, whose words are all lost, and were counted when it died (R299). -/
def Ctl.readPhys (c : Ctl) (cells : Cells) (n pb pr : Nat) (gone : Bool) (skip : List Nat) (noise reread : List Codeword) :
    Ctl × ReadOut :=
  let raw := cells.readRow n pb pr
  let part := (List.range 16).filter fun w => !skip.contains w
  if gone then (c, { words := List.replicate 16 0, lost := part, fixed := 0, reads := 1 })
  else
    let x := decodeRow (withNoise raw noise) skip
    let c := c.count (rCE_COUNT n) x.2.2
    if x.2.1.isEmpty then (c, { words := x.1, lost := [], fixed := x.2.2, reads := 1 })
    else
      let y := decodeRow (withNoise raw reread) skip
      let c := c.count (rCE_COUNT n) y.2.2
      if y.2.1.isEmpty then
        ((c.count rREREADS 1).logRow 1 n pb pr none, { words := y.1, lost := [], fixed := y.2.2, reads := 2 })
      else (c.countLost n pb pr y.2.1, { words := y.1, lost := y.2.1, fixed := y.2.2, reads := 2 })

/-- Read row r of bank b of a slice. -/
def Ctl.readBank (c : Ctl) (cells : Cells) (n b r : Nat) (skip : List Nat) (noise reread : List Codeword) : Ctl × ReadOut :=
  c.readPhys cells n (c.physBank n b) (c.physRow n (c.physBank n b) r) (c.integ.lost.contains (n, b, r)) skip noise reread

/-- Row r of bank b has been written: nothing in it is lost any more. -/
def Ctl.rowWritten (c : Ctl) (n b r : Nat) : Ctl :=
  let pb := c.physBank n b
  let pr := c.physRow n pb r
  c.modInteg fun i => { i with
    lost := i.lost.filter (· ≠ (n, b, r)), ueSeen := i.ueSeen.filter fun x => !(x.1 = n && x.2.1 = pb && x.2.2.1 = pr) }

/-- Is a bank access the write-back of a scrub visit at a physical row? -/
def Job.backOf (j : Job) (n pb pr : Nat) : Bool :=
  j.purpose = .scrubBack && j.slice = n && j.phys = some pb && j.row = pr

/-- A write to a row cancels the write-back of a scrub visit that has read it, and with it the verify (R294). -/
def Ctl.cancelBack (c : Ctl) (n pb pr : Nat) : Ctl :=
  if c.jobs.any fun j => j.backOf n pb pr then { c with jobs := c.jobs.filter fun j => !j.backOf n pb pr } else c

/-- The bank copy that has already read row r of bank b (R298). -/
def Ctl.copiedBy (c : Ctl) (n b r : Nat) : Option BankCopy :=
  c.integ.copies.find? fun k => k.slice = n && k.bank = b && decide (r < k.row)

/-- A row that a bank copy has read and not yet written takes the words of a later write. -/
def Ctl.copyCatchUp (c : Ctl) (k : BankCopy) (r : Nat) (ws : List Codeword) : Ctl :=
  { c with jobs := c.jobs.map fun (j : Job) =>
      if j.purpose = .copyWrite k.bank k.spare && j.slice = k.slice && j.row = r then { j with words := ws } else j }

/-- Write a whole row of a bank; a row already copied is written in the spare bank as well (R298). -/
def Ctl.writeBank (c : Ctl) (cells : Cells) (n b r : Nat) (ws : List Codeword) : Ctl × Cells :=
  let pb := c.physBank n b
  let pr := c.physRow n pb r
  let c := (c.rowWritten n b r).cancelBack n pb pr
  let cells := cells.writeRow n pb pr (ws.take 16)
  match c.copiedBy n b r with
  | some k => (c.copyCatchUp k r (ws.take 16), cells.writeRow n k.spare r (ws.take 16))
  | none => (c, cells)

/-! ### Fencing (R304, R45) -/

/-- Is a descriptor past step 5 reading, or writing, a fragment on a slice? -/
def Desc.touches (d : Desc) (n : Nat) : Bool :=
  (d.srcs.any fun s => s.table.list.contains n) || d.dst.any fun t => t.list.contains n

/-- The stream of a descriptor that starts again starts again with it, from row 0 (Table 8.4); a prefetch keeps its slots. -/
def Ctl.restartStream (c : Ctl) (s : Desc) : Ctl :=
  if s.prefetched then c
  else
    let c := c.each (List.range c.slicesN) fun c n =>
      if (c.port n).keyBuf.any (·.key = s.key) || (c.port n).lane.any (·.key = s.key) then
        c.modPort n fun p => { p with
          keyBuf := p.keyBuf.filter fun (f : KeyFrag) => f.key ≠ s.key, lane := p.lane.filter fun (a : Assign) => a.key ≠ s.key,
          laneBeats := if p.lane.head?.any (·.key = s.key) then 0 else p.laneBeats }
      else c
    (c.dropBursts fun b => decide (b.purpose.key? = some s.key)).modDesc s.key fun e => { e with
      stage := if e.stage = .parked then .run else e.stage, bad := none, buf := [], cursor := 0 }

/-- Of the signatures of a commit that starts again only the peer's stays (R318). -/
def Ctl.forgetSig (c : Ctl) (k : Key) : Ctl :=
  if k.sub ≠ 0 then c
  else { c with sigs := (c.sigs.map fun (g : Sig) =>
      if g.ring = k.ring && g.idx = k.idx && g.row.isNone then { g with local_ := none } else g).filter fun g =>
        g.local_.isSome || g.peer.isSome || !(g.ring = k.ring && g.idx = k.idx && g.row.isNone) }

/-- Abandon a descriptor because of a fence (R45): its FRESH slots enter CLEARING and it will start again from its first
row; a parked one on RESUME. A row already compared by a pair stays released. -/
def Ctl.abandonFenced (c : Ctl) (k : Key) : Ctl :=
  let c := match (c.desc? k).bind c.streamOf with
    | some s => c.restartStream s
    | none => c
  let c := (((c.withdraw k).abandonFresh k).releaseMap k).forgetSig k
  c.modDesc k fun d => { d with
    stage := if d.stage = .parked then .parked else .fenced, restarted := true, srcs := [], done := [], outw := [], buf := [],
    aux := if d.kind = 8 then d.aux else [], prog := if d.memDst then d.prog else 0, phase := 0, fills := 0, drops := 0,
    bad := none, cursor := 0, group := [], usedOn := [], sigWait := false, proposed := false }

/-- The descriptors that a fence of slice n abandons. -/
def Ctl.fenceHits (c : Ctl) (n : Nat) : List Desc :=
  c.descs.filter fun d => (d.stage ∈ [.wait, .run, .written, .parked, .peer] && d.touches n) || c.inFlightOn n d

/-- Refold every LIVE tile that lies on a slice out of service (Table 10.4 step 3). -/
def Ctl.refold (c : Ctl) : Ctl :=
  c.each ((c.names.filter fun p => p.2.live && p.2.table.list.any fun n => !c.isIn n).map (·.1)) fun c n => c.requireMig n

/-- Pins that a fence leaves with too few slices (R117). -/
def Ctl.breakPins (c : Ctl) : Ctl :=
  c.each (c.names.filter fun p => p.2.live) fun c p =>
    match p.2.pin with
    | some pin =>
      if !pin.broken && (c.pinList pin (p.2.table.span / c.foldFor p.2.table.span)).isNone then
        (c.modName p.1 fun r => { r with pin := some { pin with broken := true } }).raise rKS_STATUS 4
      else c
    | none => c

/-- Is a bank access one of a bank copy? -/
def Purpose.copies : Purpose → Bool
  | .copyRead _ _ => true
  | .copyWrite _ _ => true
  | _ => false

/-- Step 1 of Table 10.4 for one slice. -/
def Ctl.leaveService (c : Ctl) (n cause : Nat) : Ctl :=
  let c := { c with inService := c.inService.filter (· ≠ n) }
  let c := (c.modSlice n fun s => { s with fstate := .fencing, clearAsked := false }).putMask rFENCED_LO rFENCED_HI n true
  let c := ((c.setRf (rSLICE_HEALTH n) 4 4 cause).raise rINT_EVT 4).logRow 11 n 0 0 none
  let c := c.modInteg fun i => { i with
    copies := i.copies.filter (·.slice ≠ n), hard := i.hard.filter (·.1 ≠ n) }
  let c : Ctl := { c.modSlice n fun s => { s with scrubWait := [] } with
    jobs := c.jobs.filter fun (j : Job) => j.slice ≠ n || !(j.purpose.copies || j.purpose.scrubs) }
  if (c.port n).state = .fenced then c
  else ((c.bump (rPORT_GONE n) 0 16 1).portEnter n .gone (some 7)).idlePort n

/-- Does a carry belong to the incoming transfer of a link? -/
def Carry.ofLink (l : Nat) : Carry → Bool
  | .incoming m _ => m = l
  | _ => false

/-- Drop what an incoming transfer of a link has written or holds: its FRESH slots enter CLEARING (R213). -/
def Ctl.dropIncoming (c : Ctl) (l : Nat) : Ctl :=
  let c := { c with jobs := c.jobs.filter fun j => match j.purpose with
    | .put cy => !cy.ofLink l
    | _ => true }
  let c := c.modNet fun x => { x with
    flits := x.flits.filter (fun f => match f.what with
      | .frag cy _ => !cy.ofLink l
      | _ => true), asm := x.asm.filter (fun a => !a.what.ofLink l) }
  c.clearSlots ((c.slots.filter fun p => p.2.state = .fresh && p.2.owner = .link l).map (·.1))

/-- An incoming transfer starts over: the peer is asked to send again (R213). -/
def Ctl.resendIncoming (c : Ctl) (l : Nat) : Ctl :=
  match c.net.incoming.find? (·.1 = l) with
  | some p => ((c.dropIncoming l).modNet fun x => { x with
      incoming := x.incoming.set l { p.2 with
        table := p.2.table.map fun t => { t with frags := [] }, units := 0, doneFrags := [] } }).sendLink l 8 0 []
  | none => c

/-- Fence slices together (Table 10.4 steps 1 to 3, R307). Migrations onto them are abandoned and placed again. -/
def Ctl.fenceSlices (c : Ctl) (ns : List Nat) (cause : Nat) : Ctl :=
  let hits := (ns.flatMap c.fenceHits).map (·.key) |>.eraseDups
  let c := c.each ns fun c n => c.leaveService n cause
  let c := c.each hits fun c k => c.abandonFenced k
  let c := c.each ns fun c n => c.reassign n
  let c := c.each (c.descs.filter fun d => d.prefetched && d.dst.any fun t => t.list.any ns.contains) fun c d =>
    c.dropPrefetch d.key
  let c := c.each (c.migs.filter fun m => m.dest.list.any ns.contains) fun c m =>
    let c := c.abandonMig m.name
    if m.required then c.requireMig m.name else c
  let c := c.each (c.net.incoming.filter fun p => p.2.table.any fun t => !t.frags.isEmpty && t.list.any ns.contains)
    fun c p => c.resendIncoming p.1
  let c := c.breakPins
  if c.inService.isEmpty then
    let c : Ctl := { c.raise rINT_EVT 7 with filling := [], fillWait := [], wanted := [] }
    c.each ((c.names.filter (·.2.live)).map (·.1)) fun c n => c.poisonName n (ns.headD 0) 0 0
  else c.refold

/-- FILL_DONE sets once no slice fills, waits to fill or returns (R393), and stays set until a reset. -/
def Ctl.fillDone (c : Ctl) : Ctl :=
  if c.filling.isEmpty && c.fillWait.isEmpty && c.returning = 0 then c.raise rREADY 9 else c

/-- The next group starts when the last slice of a group has finished (R394). -/
def Ctl.nextGroup (c : Ctl) : Ctl :=
  if c.filling.isEmpty then { c with filling := c.fillWait.take 8, fillWait := c.fillWait.drop 8 } else c

/-- A newly set bit of a slice that is out of service: a fill or a return stops (R308, Table 13.9). -/
def Ctl.fenceOut (c : Ctl) (n : Nat) : Ctl :=
  if (c.slice n).fstate = .fencing then c.modSlice n fun s => { s with clearAsked := false }
  else
    let c := { c with filling := c.filling.filter (· ≠ n), fillWait := c.fillWait.filter (· ≠ n) }
    ((c.nextGroup.modSlice n fun s => { s with fstate := .fenced }).putMask rFENCED_LO rFENCED_HI n true).fillDone

/-- An automatic fence (R304): the FENCE_REQ bit is set. -/
def Ctl.autoFence (c : Ctl) (n cause : Nat) : Ctl :=
  let c := c.putMask rFENCE_REQ_LO rFENCE_REQ_HI n true
  if c.isIn n then c.fenceSlices [n] cause else (c.setRf (rSLICE_HEALTH n) 4 4 cause).fenceOut n

/-! ### Sparing (R297, R298) -/

/-- Is a spare bank of a slice free to replace another? -/
def Ctl.spareUnused (c : Ctl) (n s : Nat) : Bool :=
  !c.integ.dead.contains (n, s) && (c.bankOf n s).isNone && !c.integ.copies.any (fun k => k.slice = n && k.spare = s) &&
    !c.integ.spareFills.contains (n, s)

/-- The lowest unused spare bank of a slice. -/
def Ctl.nextSpare (c : Ctl) (n : Nat) : Option Nat := [32, 33].find? (c.spareUnused n)

/-- The read of the next row of a bank copy: a MIG request at the bank (R298). -/
def Ctl.copyRead (c : Ctl) (k : BankCopy) : Ctl :=
  c.addJobs [{ req := 11, purpose := .copyRead k.bank k.spare, slice := k.slice, offset := 0, row := k.row, chunks := [0],
               words := [], skip := [], phys := some (c.physBank k.slice k.bank) }]

/-- Replace a bank by copying it (R298); with no spare bank the slice is fenced (R300). -/
def Ctl.spareBank (c : Ctl) (n b : Nat) : Ctl :=
  if c.integ.copies.any fun k => k.slice = n && k.bank = b then c
  else match c.nextSpare n with
    | some s =>
      let k : BankCopy := { slice := n, bank := b, spare := s }
      (c.modInteg fun i => { i with copies := i.copies ++ [k] }).copyRead k
    | none => c.autoFence n 2

/-- The spare-row entries that a physical bank still has: neither taken nor dead (R296). -/
def Ctl.sparesLeft (c : Ctl) (n pb : Nat) : Nat :=
  let used := (c.spareEntries n pb).length
  ((List.range 32).filter fun e => used ≤ e && !c.integ.deadEntries.contains (n, pb, e)).length

/-- Hard-failed rows of a bank that have still to take their entries (Table 10.3). -/
def Ctl.hardWaiting (c : Ctl) (n b : Nat) : Nat := (c.integ.hard.filter fun h => h.1 = n && h.2.1 = b && !h.2.2.2).length

/-- A clearing write reaches a hard-failed row (Table 10.3 step 3): it takes the next spare-row entry, dead ones passed over; the
latches of its slot are invalid (R86). -/
def Ctl.enterSpare (c : Ctl) (n b r : Nat) : Ctl :=
  if c.integ.hard.contains (n, b, r, false) then
    let pb := c.physBank n b
    let key := n * 34 + pb
    let es := c.spareEntries n pb
    match (List.range 32).find? fun e => es.length ≤ e && !c.integ.deadEntries.contains (n, pb, e) with
    | none => (c.modInteg fun i => { i with hard := i.hard.filter (· ≠ (n, b, r, false)) }).spareBank n b
    | some e => (c.dropLatches (rowSlot n b r)).modInteg fun i => { i with
      spareRows := i.spareRows.set key
        ((es.map fun e => if e.1 = r then (e.1, true) else e) ++ List.replicate (e - es.length) (2048, true) ++ [(r, false)]),
      hard := i.hard.map fun h => if h = (n, b, r, false) then (n, b, r, true) else h }
  else c

/-- A bank row of a slice is hard-failed (Table 10.3 steps 1 and 2). A bank whose entries are all taken, or promised to rows that
failed before, is spared whole (R298). -/
def Ctl.hardRow (c : Ctl) (n b r : Nat) : Ctl :=
  let k := rowSlot n b r
  let c := c.modSlot k fun s => { s with condemned := true }
  let known := c.integ.hard.any fun h => h.1 = n && h.2.1 = b && h.2.2.1 = r && !h.2.2.2
  if !known && c.sparesLeft n (c.physBank n b) ≤ c.hardWaiting n b then c.spareBank n b
  else
    let c := if known then c else c.modInteg fun i => { i with hard := i.hard ++ [(n, b, r, false)] }
    match (c.slot k).state, (c.slot k).owner with
    | .mapped, .name m => c.requireMig m
    | .free, .none => c.clearSlots [k]
    | .clearing, _ =>
      if c.jobs.any (fun j => decide (j.purpose = Purpose.clear k)) then
        { c with jobs := c.jobs.map fun (j : Job) => if j.purpose = .clear k then { j with chunks := List.range 8 } else j }
      else c.clearSlots [k]
    | _, _ => c

/-! ### Words that are uncorrectable in place (Table 10.2) -/

/-- What a lost word does by the state of its slot. The reader's own end stands with the reader. -/
def Ctl.lostEffect (c : Ctl) (n b r : Nat) : Ctl :=
  let pb := c.physBank n b
  let pr := c.physRow n pb r
  let s := c.slot (rowSlot n b r)
  match s.state with
  | .mapped => match s.owner with
    | .name m => (c.logRow 2 n pb pr (some m)).poisonName m n pb pr
    | _ => c.logRow 2 n pb pr none
  | .retired => c.logRow 3 n pb pr none
  | .fresh =>
    let c := c.logRow 4 n pb pr none
    match s.owner with
    | .desc k => c.finish k 0x31 0
    | .mig m =>
      let req := c.migs.any fun x => x.name = m && x.required
      let c := c.abandonMig m
      if req then c.requireMig m else c
    | .link l => c.resendIncoming l
    | _ => c
  | _ => c.logRow 5 n pb pr none

/-- A read found words uncorrectable in place in a row: Table 10.2, and the row is spared (R292); the rows of a dead bank lie
in its replacement (R299). -/
def Ctl.lostRow (c : Ctl) (n b r : Nat) : Ctl :=
  if c.integ.lost.contains (n, b, r) then c.lostEffect n b r else (c.lostEffect n b r).hardRow n b r

end Sys2Proof.Machine
end

