-- ==== Sys2Proof/Machine/Net.lean ====
section
/-!
DEFINITION. The exchange network: stages and elements (R186), the setting registers (R189), index maps of PERMUTE (R190 to
R196), route programs (R197), passes of a permutation and their staging (R199 to R202), network faults (R188, R303). The passes
themselves are commands and stand in Round.
-/
namespace Sys2Proof.Machine

/-! ### Stages, elements and settings -/

/-- m: base-2 logarithm of the lines (R186). -/
def lineBits (p : Part) : Nat := 7 + p.log2Slices

/-- d(t): the bit of the line number along which stage t exchanges (R186). -/
def stageBit (p : Part) (t : Nat) : Nat :=
  if t < lineBits p then lineBits p - 1 - t else t + 1 - lineBits p

/-- Line a of element e of a stage that exchanges bit d (R186): e with a 0 inserted at that bit. -/
def lineA (d e : Nat) : Nat := e / 2 ^ d * 2 ^ (d + 1) + e % 2 ^ d

/-- Line b of the element (R186). -/
def lineB (d e : Nat) : Nat := lineA d e + 2 ^ d

/-- The line on which a word leaves an element that it enters on `line`: with setting 0 the same, with setting 1 the other
line of the element (R186). -/
def leaves (d : Nat) (cross : Bool) (line : Nat) : Nat :=
  if !cross then line else if line.testBit d then line - 2 ^ d else line + 2 ^ d

/-- What the setting engine computes for pass n of a PERMUTE (R189): the setting of every element of every stage. -/
def Ctl.settingFor (c : Ctl) (k : Key) (n : Nat) : Setting :=
  { key := k, pass := n, cross := (List.range c.part.stages).map fun t =>
      (List.range (c.part.slices * 64)).map fun e => Config.elementSetting k.ring k.idx n t e }

/-- The setting engine fills a buffer for pass n of a PERMUTE, unless one holds it already; the other buffer keeps what the
network runs on (R189). -/
def Ctl.fillSetting (c : Ctl) (k : Key) (n : Nat) : Ctl :=
  if c.net.settings.any fun x => x.key = k && x.pass = n then c
  else c.modNet fun x => { x with settings := (x.settings.filter (·.key = k)).take 1 ++ [c.settingFor k n] }

/-! ### Index maps -/

/-- n = LOG2N of a PERMUTE. -/
def Desc.log2n (d : Desc) : Nat := fld (d.w 1) 16 5
/-- M: words of a segment. -/
def Desc.segment (d : Desc) : Nat := 2 ^ d.log2n
/-- ROUTE_KIND. -/
def Desc.routeKind (d : Desc) : Nat := fld (d.w 1) 8 2

/-- A bit-permute-complement map (R194). -/
def bpcMap (bm : Nat → Nat) (n comp u : Nat) : Nat :=
  ((List.range n).map fun e => if u.testBit (bm e) ≠ comp.testBit e then 2 ^ e else 0).sum

/-- t of an odd-multiplier map (R195). -/
def oddT (g b n u : Nat) : Nat := (g * u + b) % 2 ^ (n + 1)

/-- map(u) and neg(u) (R194 to R196). -/
def Desc.mapOf (d : Desc) (prog : List Word) (u : Nat) : Nat × Bool :=
  let n := d.log2n
  match d.routeKind with
  | 0 => (bpcMap d.bitMap n (d.w 12).toNat u, false)
  | 1 =>
    let t := oddT (d.w 8).toNat (d.w 9).toNat n u
    (t % 2 ^ n, bit (d.w 1) 10 && decide (2 ^ n ≤ t))
  | _ => (fld (prog.getD u 0) 0 16, bit (prog.getD u 0) 31)

/-- Modular negation (R191). -/
def negq (w q : Nat) : Nat := (q - w % q) % q

/-- Where source word y goes (word l of fragment i has flat index 128·i + l, R190): its flat destination index and whether it is negated (R191). -/
def Desc.target (d : Desc) (prog : List Word) (y : Nat) : Nat × Bool :=
  let m := d.mapOf prog (y % d.segment)
  (y / d.segment * d.segment + m.1, m.2)

/-- Words of a row of a span. -/
def rowWords (span : Nat) : Nat := 128 * span

/-- The value written at flat destination index x for a source word (R191, R192). -/
def Desc.permValue (d : Desc) (x : Nat) (neg : Bool) (w : Word) : Word :=
  if neg then word (negq w.toNat (modulusOf d.mods d.dModulus (x / rowWords (shSpan d.dShape)))) else w

/-! ### Passes (R199 to R202) -/

/-- T: destination pass vectors. -/
def Desc.vectors (d : Desc) (t : FragTable) : Nat := shRows d.dShape * t.fold

/-- V: destination pass vectors that hold words of the first segment (R200). -/
def Desc.firstVectors (d : Desc) (t : FragTable) : Nat :=
  let w := rowWords t.span
  let m := d.segment
  if w ≤ m then min ((m + w - 1) / w) t.rows * t.fold else min (max 1 (m / 128)) t.fold

/-- Smallest j with c^j not below v (R200). -/
def stagesFor (c v : Nat) : Nat := ((List.range 24).find? fun j => v ≤ c ^ j).getD 24

/-- k: passes per segment (R200). -/
def Desc.passes (d : Desc) (t : FragTable) : Nat :=
  let v := d.firstVectors t
  if v = 1 then 1 else 2 * stagesFor (8 * (t.span / t.fold)) v + 1

/-- Blocks of pass vector φ of a row (R199). -/
def vectorBlocks (t : FragTable) (phi : Nat) : List Nat := (List.range (t.span / t.fold)).map fun j => phi + j * t.fold

/-- Chunk ch of pass vector v (R200, R201): its fragment and its chunk of that. -/
def vectorChunk (t : FragTable) (v ch : Nat) : Nat × Nat :=
  (v / t.fold * t.span + v % t.fold + ch / 8 * t.fold, ch % 8)

/-- The chunks that vector v of pass p of the k passes uses in the destination's slots (R201): those of pass vector v in the
first and the last pass, those of a diagonal vector of its group in between. A group is the V pass vectors of a segment
(DESIGN CHOICE, log entry 24). -/
def Desc.passChunks (d : Desc) (t : FragTable) (p v : Nat) : List (Nat × Nat) :=
  let n := 8 * (t.span / t.fold)
  if p = 0 || p + 1 = d.passes t then (List.range n).map (vectorChunk t v)
  else
    let g := d.firstVectors t
    let base := v / g * g
    let size := min g (d.vectors t - base)
    (List.range n).map fun ch => vectorChunk t (base + (ch + v % g) % size) ch

/-- The flat indices of a chunk of a fragment (R190, R62). -/
def chunkWords (x : Nat × Nat) : List Nat := (List.range 16).map fun l => 128 * x.1 + 16 * x.2 + l

/-! ### Source reading -/

/-- Lanes of source fragment i that no destination word takes (R191): they are never decoded. -/
def Desc.untaken (d : Desc) (prog : List Word) (i : Nat) : List Nat :=
  (List.range 128).filter fun l => shLen d.dShape ≤ (d.target prog (128 * i + l)).1

/-- The reads of a PERMUTE's first pass (R201): source fragments of which some word is taken. -/
def Desc.passReads (d : Desc) (prog : List Word) : List Job :=
  match d.src? 0 with
  | none => []
  | some s => (List.range s.table.count).filterMap fun i =>
    let skip := d.untaken prog i
    if skip.length = 128 then none
    else some { req := 8, purpose := .read d.key 1 i, slice := (s.table.at i).1, offset := (s.table.at i).2.1,
                row := (s.table.at i).2.2, chunks := List.range 8, words := List.replicate 128 0, skip := skip }

/-- A source fragment of a PERMUTE has been read: each word taken goes to its place. -/
def Ctl.passFrag (c : Ctl) (k : Key) (i : Nat) (ws : List Word) : Ctl :=
  match c.desc? k with
  | none => c
  | some d =>
    let skip := d.untaken c.net.mapWords i
    c.modDesc k fun d => { d with buf := ws.zipIdx.foldl (fun (b : Tab Word) p =>
      if skip.contains p.2 then b
      else
        let t := d.target c.net.mapWords (128 * i + p.2)
        b.set t.1 (d.permValue t.1 t.2 p.1)) d.buf }

/-- Begin the passes of a PERMUTE: `phase` 1. -/
def Ctl.startPasses (c : Ctl) (k : Key) : Ctl :=
  match c.desc? k with
  | none => c
  | some d => (c.modDesc k fun d => { d with phase := 1 }).addJobs (d.passReads c.net.mapWords)

/-- Is a source read of the PERMUTE still under way? -/
def Ctl.reading (c : Ctl) (k : Key) : Bool :=
  c.jobs.any fun j => match j.purpose with
    | .read k' 1 _ => decide (k' = k)
    | _ => false

/-- Does a PERMUTE stand in the permutation queue (R205): past step 5, with passes to run? One that waits for the map store
still waits at step 5 (R197). -/
def Ctl.inPermQueue (c : Ctl) (d : Desc) : Bool :=
  d.kind = 8 && d.stage = .run && (d.phase = 1 || (d.phase = 0 && c.net.mapOwner = some d.key))

/-- The PERMUTE at the head of the permutation queue (R205): the one whose passes have begun, else the oldest in step-5 order.
One still held at step 5 does not bar the others (DESIGN CHOICE, log entry 24). -/
def Ctl.permHead (c : Ctl) : Option Desc :=
  let q := c.descs.filter c.inPermQueue
  match q.find? fun d => d.phase = 1 && d.prog ≠ 0 with
  | some d => some d
  | none => q.foldl (fun (b : Option Desc) d => match b with
    | some e => if d.order < e.order then some d else b
    | none => some d) none

/-- Is a bank access of the staging of a PERMUTE under way (R201)? -/
def Ctl.stagingBusy (c : Ctl) (k : Key) : Bool :=
  c.jobs.any fun j => match j.purpose with
    | .read k' 8 _ => decide (k' = k)
    | .put (.stage k' _) => decide (k' = k)
    | _ => false

/-- Is the source pass vector v of a PERMUTE still being read (R201)? -/
def Ctl.sourceBusy (c : Ctl) (k : Key) (t : FragTable) (v : Nat) : Bool :=
  c.jobs.any fun j => match j.purpose with
    | .read k' 1 i => k' = k && i / t.span = v / t.fold && i % t.fold = v % t.fold
    | _ => false

/-- May its next pass run? The first pass of a staged PERMUTE needs its source vector, a later one the words that the pass before
it left in the FRESH slots; one of a single pass needs the source, whose words it sends wherever the map says. -/
def Ctl.passReady (c : Ctl) (d : Desc) : Bool :=
  match d.dst with
  | some t =>
    d.phase = 1 && if d.passes t = 1 then !c.reading d.key
    else if d.prog < d.vectors t then !c.sourceBusy d.key t d.prog
    else !c.reading d.key && !c.stagingBusy d.key
  | none => false

/-- Is the setting engine computing (R189): does the PERMUTE at the head of the queue lack a buffer for one of its next two
passes? -/
def Ctl.settingBusy (c : Ctl) : Bool :=
  c.permHead.any fun d => d.phase = 1 && d.dst.any fun t =>
    (c.net.settings.filter (·.key = d.key)).length < min 2 (d.passes t * d.vectors t - d.prog)

/-! ### Network faults -/

/-- A word ejected uncorrectable twice (R188, R303, R304): counted at the slice that owns the line. -/
def Ctl.netFault (c : Ctl) (n : Nat) : Ctl :=
  let c := ((c.bump rXN_ERR 16 16 1).count rNET_FAULTS 1).bump (rSLICE_HEALTH n) 8 8 1
  let c := (c.raise rINT_EVT 6).logRow 10 n 0 0 none
  let lim := c.rf rINT_CTL_ACT 16 8
  if bit (c.reg rINT_CTL_ACT) 12 && lim ≠ 0 && lim ≤ c.rf (rSLICE_HEALTH n) 8 8 && c.isIn n then c.autoFence n 4 else c

/-- Ejected words: decoded with the errors the pass met (R188). -/
def ejected (ws noise : List Codeword) : List Decoded := (withNoise ws noise).map decodeCw

/-- Words corrected at ejection. -/
def correctedIn (ds : List Decoded) : Nat :=
  (ds.filter fun d => match d with
    | .corrected _ => true
    | _ => false).length

/-! ### A permutation pass -/

/-- A destination word of a PERMUTE, none where it takes FILL. -/
def Desc.permWord (d : Desc) (x : Nat) : Option Word := (d.buf.find? (·.1 = x)).map (·.2)

/-- The last pass writes pass vector v of the destination (R201, R193). -/
def Ctl.lastPass (c : Ctl) (d : Desc) (t : FragTable) (v : Nat) : Ctl :=
  let row := v / t.fold
  let bs := vectorBlocks t (v % t.fold)
  let words (b : Nat) : List (Option Word) := (List.range 128).map fun l =>
    d.permWord (128 * (row * t.span + b) + l)
  let fills := (bs.map fun b => ((words b).filter (·.isNone)).length).sum
  let js := bs.map fun b =>
    putJob 8 (.dest d.key (row * t.span + b)) t (row * t.span + b) ((words b).map fun w => encodeCw (w.getD (d.w 3)))
  (c.modDesc d.key fun d => { d with fills := min (d.fills + fills) (2 ^ 32 - 1) }).addJobs js

/-- The words that vector v of a pass leaves in the FRESH slots (R201): the words at hand, by their destination index, go to places
that the setting engine chooses among those of the vector; the pass's map of places to words, for the places that hold one. -/
def Desc.stageMap (d : Desc) (p : Nat) (xs ys : List Nat) : Tab Word :=
  let key := Config.stagePlace d.key.ring d.key.idx p
  ((sortBy (fun a b => decide (key a ≤ key b)) ys).zip xs).foldl (fun (m : Tab Word) q => m.set q.1 (word q.2)) []

/-- A pass before the last: the words of the vector are written into its chunks of the FRESH slots (R201). In the first pass they
are those of the source vector, later those that the chunks held. -/
def Ctl.stagePass (c : Ctl) (d : Desc) (t : FragTable) (p v : Nat) : Ctl :=
  let cs := d.passChunks t p v
  let ys := cs.flatMap chunkWords
  let src := (vectorBlocks t (v % t.fold)).flatMap fun b => (List.range 128).map fun l => 128 * (v / t.fold * t.span + b) + l
  let xs := if p = 0 then
      ((src.map fun y => (d.target c.net.mapWords y).1).filter fun x => d.buf.has x)
    else ys.filterMap fun y => (d.outw.find? (·.1 = y)).map (·.2.toNat)
  let m := d.stageMap p xs ys
  let frags := (cs.map (·.1)).eraseDups
  let js := frags.map fun i =>
    { putJob 8 (.stage d.key i) t i ((List.range 128).map fun l =>
        match m.find? (·.1 = 128 * i + l) with
        | some q => encodeCw (Tab.get 0 d.buf q.2.toNat)
        | none => 0) with chunks := (cs.filter (·.1 = i)).map (·.2) }
  let old (d : Desc) : Tab Word := d.outw.filter fun q => !ys.contains q.1
  (c.modDesc d.key fun d => { d with outw := m.foldl (fun (o : Tab Word) q => o.set q.1 q.2) (old d) }).addJobs js

/-- The staging reads of pass p of a PERMUTE, once the pass before it has been written (R201): they use no latch. -/
def Desc.stageReads (d : Desc) (t : FragTable) (p : Nat) : List Job :=
  (List.range (d.vectors t)).flatMap fun v =>
    let cs := d.passChunks t p v
    ((cs.map (·.1)).eraseDups).map fun i =>
      let mine := (cs.filter (·.1 = i)).map (·.2)
      { req := 8, purpose := .read d.key 8 i, slice := (t.at i).1, offset := (t.at i).2.1, row := (t.at i).2.2,
        chunks := mine, words := List.replicate 128 0, skip := (List.range 128).filter fun l => !mine.contains (l / 16) }

/-- A word of a pass that is not the last has been written: after the last vector's, the next pass reads (R201). -/
def Ctl.stageProgress (c : Ctl) (k : Key) : Ctl :=
  match c.desc? k with
  | some d => match d.dst with
    | some t =>
      if d.phase = 1 && d.prog ≠ 0 && d.prog % d.vectors t = 0 && !c.stagingBusy k then c.addJobs (d.stageReads t (d.prog / d.vectors t))
      else c
    | none => c
  | none => c

/-- Chunks of the FRESH slots have been read back: the words that they hold (R201). -/
def Ctl.stageFrag (c : Ctl) (k : Key) (i : Nat) (skip : List Nat) (ws : List Word) : Ctl :=
  let put (d : Desc) (b : Tab Word) (p : Word × Nat) : Tab Word :=
    if skip.contains p.2 then b
    else match d.outw.find? (·.1 = 128 * i + p.2) with
      | some q => b.set q.2.toNat p.1
      | none => b
  c.modDesc k fun d => { d with buf := ws.zipIdx.foldl (put d) d.buf }

/-- One pass of the PERMUTE at the head of the queue (R188, R202), under the settings of its buffer, while the engine fills the
other one for the pass after it (R189). -/
def Ctl.permPass (c : Ctl) (d : Desc) (t : FragTable) (noise : List Codeword) : Ctl :=
  let w := rowWords t.span / t.fold
  let k := d.passes t
  let tv := d.vectors t
  let c := ((c.beat .network (.desc d.key)).count rPERM_VECTORS 1).charge (.desc d.key) 6 w
  let c := (c.modNet fun x => { x with passesLeft := x.passesLeft - 1 }).fillSetting d.key d.prog
  let c := if d.prog + 1 < k * tv then c.fillSetting d.key (d.prog + 1) else c
  let ds := ejected (List.replicate w (encodeCw 0)) (noise.take w)
  let bad := ((ds.zipIdx).filter fun p => p.1 = .uncorrectable).map (·.2)
  let c := c.bump rXN_ERR 0 16 (correctedIn ds)
  let again : Bool := c.net.repeating = some (d.key, d.prog)
  if !bad.isEmpty && !again then c.modNet fun x => { x with repeating := some (d.key, d.prog) }
  else
    let used (s : Setting) : Bool := s.key = d.key && s.pass = d.prog
    let c := c.modNet fun x => { x with repeating := none, settings := x.settings.filter fun s => !used s }
    if !bad.isEmpty then
      let bs := vectorBlocks t (d.prog % tv % t.fold)
      let c := c.finish d.key 0x31 0
      c.each bad fun c j => c.netFault (t.sliceOf (bs.getD (j / 128) 0))
    else
      let p := d.prog / tv
      let c := if p + 1 < k then c.stagePass d t p (d.prog % tv) else c.lastPass d t (d.prog % tv)
      let c := c.modDesc d.key fun d => { d with prog := d.prog + 1, phase := if d.prog + 1 = k * tv then 2 else d.phase }
      if d.prog + 1 = k * tv then c.modNet fun x => { x with passesLeft := 0 } else c

/-! ### Route programs (R197) -/

/-- What a PERMUTE of ROUTE_KIND 2 samples at admission: base, offset, CRC (R198, R382). -/
def Ctl.sampleProgram (c : Ctl) (d : Desc) : Tab Word :=
  let lib := fld (d.w 9) 0 16
  match (Tab.get [] c.net.libs lib)[fld (d.w 8) 0 16]? with
  | some p => [(0, c.reg (rLIB_BASE_LO lib)), (1, c.reg (rLIB_BASE_HI lib)), (2, word p.offset), (3, word p.crc.toNat),
      (4, word (p.crc.toNat / 2 ^ 32))]
  | none => []

/-- The fabric address of a sampled program. -/
def Desc.programAddr (d : Desc) : Addr :=
  BitVec.ofNat 64 ((Tab.get 0 d.aux 0).toNat + 2 ^ 32 * (Tab.get 0 d.aux 1).toNat + (Tab.get 0 d.aux 2).toNat)

/-- Is it a PERMUTE that waits for the map store, or fetches into it? -/
def Desc.wantsMap (d : Desc) : Bool := d.kind = 8 && d.routeKind = 2 && d.stage = .run && d.phase = 0

/-- Let a PERMUTE have the map store where it is free, or holds its program already (R197). -/
def Ctl.takeMap (c : Ctl) (k : Key) : Ctl :=
  match c.desc? k with
  | none => c
  | some d =>
    if !d.wantsMap then c
    else match c.net.mapOwner with
      | some o => match c.desc? o with
        | some e => if o ≠ k && e.phase = 1 && e.aux = d.aux && e.log2n = d.log2n then c.startPasses k else c
        | none => c
      | none =>
        if !bit (c.reg (rLIB_INFO (fld (d.w 9) 0 16))) 31 then c.finish k 0x60 5
        else
          let n := max 1 (4 * d.segment / 64)
          (c.modNet fun x => { x with mapOwner := some k }).request ((List.range n).map fun i =>
            newBurst (.route k i) 5 5 d.domain (d.programAddr + BitVec.ofNat 64 (64 * i)) [])

/-- Every PERMUTE that waits for the map store, in step-5 order. -/
def Ctl.takeMaps (c : Ctl) : Ctl :=
  c.each (sortBy (fun a b => a.order ≤ b.order) (c.descs.filter (·.wantsMap))) fun c d => c.takeMap d.key

/-- A PERMUTE runs (step 6). -/
def Ctl.startPermute (c : Ctl) (k : Key) : Ctl :=
  match c.desc? k with
  | none => c
  | some d => if d.routeKind = 2 then c.takeMap k else c.startPasses k

/-- 64 bytes of a program arrive: entries go to the descriptor's buffer until the whole program is in. -/
def Ctl.routeLine (c : Ctl) (k : Key) (part : Nat) (bs : List Byte) : Ctl :=
  c.modDesc k fun d => { d with buf := (bytesWords bs).zipIdx.foldl (fun (b : Tab Word) p =>
    if 16 * part + p.2 < d.segment then b.set (16 * part + p.2) p.1 else b) d.buf }

/-- The whole program is in (R197): CRC, then bijectivity. -/
def Ctl.programFetched (c : Ctl) (d : Desc) (prog : List Word) : Ctl :=
  let crc := crc64 (prog.flatMap wordBytes)
  let want := (Tab.get 0 d.aux 3).toNat + 2 ^ 32 * (Tab.get 0 d.aux 4).toNat
  if crc.toNat ≠ want then c.finish d.key 0x61 0x20
  else if ((prog.map fun w => fld w 0 16).eraseDups).length < prog.length then c.finish d.key 0x60 8
  else
    let c := c.modNet fun x => { x with mapWords := prog }
    (c.modDesc d.key fun d => { d with buf := [] }).startPasses d.key

/-- ROUTE_PROGRAM_FETCH (R197): every read of the program has been answered. -/
def execRouteProgramFetch (s : State) : Res :=
  ctlStep .routeProgramFetch s fun c =>
    match c.net.mapOwner.bind c.desc? with
    | some d =>
      match (List.range d.segment).mapM fun i => (d.buf.find? (·.1 = i)).map (·.2) with
      | some prog => if d.wantsMap then c.programFetched d prog else c
      | none => c
    | none => c

/-- XN_CNT_CLEAR (Table 6.10). -/
def Ctl.clearNetCounters (c : Ctl) : Ctl :=
  c.zeroRegs [rPERM_VECTORS, rADDR_BEATS, rADDR_STALLS, rMODE_SWITCHES, rREFUSALS, rXN_ERR, rQUOIN_OUT_VECTORS,
    rQUOIN_IN_COMMITS]

/-- XN_CNT_CLEAR (R204). -/
def execXnCntClear (id : Byte) (s : State) : Res :=
  ctlStep (.xnCntClear id) s fun c =>
    c.access id rXN_CNT_CLEAR true fun c => { c.clearNetCounters with regRdata := 0 }

end Sys2Proof.Machine
end

