-- ==== Sys2Proof/Machine/Index.lean ====
section
/-!
DEFINITION. Indexed moves (R214 to R225) and row reduction (R228 to R233).
-/
namespace Sys2Proof.Machine

/-! ### Indices -/

/-- E: EXTENT, or the length of the addressed tile (R215). -/
def Desc.extent (d : Desc) : Nat := if d.w 11 = 0 then shLen (d.w (if d.kind = 5 then 4 else 8)) else (d.w 11).toNat

/-- The word that an index names, none when it is out of range (R215). -/
def Desc.indexOf (d : Desc) (t : Word) : Option Nat :=
  if 0 ≤ t.toInt && t.toInt < (d.extent : Int) then some t.toInt.toNat else none

/-- Key of an index or mask word in the descriptor's buffer, apart from the source's. -/
def sideKey (x : Nat) : Nat := 2 ^ 30 + x

/-- A read of a fragment of a source for the accumulator or merge buffer. -/
def Desc.accRead (d : Desc) (role part frag : Nat) (skip : List Nat) : List Job :=
  match d.src? role with
  | some s => [{ req := 10, purpose := .read d.key part frag, slice := (s.table.at frag).1, offset := (s.table.at frag).2.1,
                 row := (s.table.at frag).2.2, chunks := List.range 8, words := List.replicate 128 0, skip := skip }]
  | none => []

/-- The index or mask words of fragment i. -/
def Desc.sideWords (d : Desc) (i : Nat) : List Word :=
  (List.range 128).map fun l => Tab.get 0 d.buf (sideKey (128 * i + l))

/-- Keep the words of a fragment in the buffer, the lanes of `skip` left out. -/
def Desc.keep (d : Desc) (key : Nat → Nat) (i : Nat) (ws : List Word) (skip : List Nat) : Desc :=
  { d with buf := ws.zipIdx.foldl (fun (b : Tab Word) p =>
      if skip.contains p.2 then b else b.set (key (128 * i + p.2)) p.1) d.buf }

/-- The network line of word x of a table. -/
def FragTable.line (t : FragTable) (x : Nat) : Nat := t.sliceOf (x / 128) * 128 + x % 128

/-- A word sent for an indexed move. -/
def indexFlit (src dst : Nat) (w : Word) (what : FlitWhat) : Flit :=
  { user := 1, src := src, dst := dst, word := encodeCw w, what := what, injected := false }

/-! ### Gather (R217, R225) -/

/-- Does the descriptor read, request or update anything still? -/
def Ctl.indexBusy (c : Ctl) (k : Key) : Bool :=
  c.jobs.any (fun j => j.purpose.ofKey k) || c.net.flits.any (fun f => f.what.ofKey k)

/-- Every destination fragment is written and nothing is under way: the descriptor waits for its commit (R94). -/
def Ctl.indexProgress (c : Ctl) (k : Key) : Ctl :=
  match c.desc? k with
  | some d => match d.dst with
    | some t =>
      let merged : Bool := d.kind ∉ [6, 7] || match d.src? 0 with
        | some s => (List.range s.table.count).all fun i => Tab.get 0 d.aux i = 2
        | none => true
      if d.stage = .run && t.count ≤ d.done.length && merged && !c.indexBusy k && !c.net.waves.any (·.key = k) then
        c.modDesc k fun d => { d with stage := .written }
      else c
    | none => c
  | none => c

/-- Write a destination fragment of a GATHER once its 128 words are there. -/
def Ctl.gatherFull (c : Ctl) (k : Key) (i : Nat) : Ctl :=
  match c.desc? k with
  | some d => match d.dst with
    | some t =>
      match (List.range 128).mapM fun l => (d.outw.find? (·.1 = 128 * i + l)).map (·.2) with
      | some ws =>
        (c.modDesc k fun d => { d with outw := d.outw.filter fun p => p.1 / 128 ≠ i }).addJobs
          [putJob 10 (.dest k i) t i (ws.map encodeCw)]
      | none => c
    | none => c
  | none => c

/-- A word of the destination of a GATHER. -/
def Ctl.gatherWord (c : Ctl) (k : Key) (x : Nat) (w : Word) : Ctl :=
  (c.modDesc k fun d => { d with outw := d.outw.set x w }).gatherFull k (x / 128)

/-- The index fragment i of a GATHER is at the slice that holds its destination fragment: FILL is written locally, a request goes
out for every index in range (R225). -/
def Ctl.gatherIndex (c : Ctl) (k : Key) (i : Nat) (ws : List Word) : Ctl :=
  match c.desc? k with
  | none => c
  | some d => match d.src? 0, d.dst with
    | some s, some dt =>
      let c := c.each ws.zipIdx fun c p =>
        let at_ := 128 * i + p.2
        match d.indexOf p.1 with
        | some t => c.modNet fun n => { n with
            flits := n.flits ++ [indexFlit (dt.line at_) (s.table.line t) p.1 (.request k at_ t)] }
        | none => c.modDesc k fun d => { d with
            fills := min (d.fills + 1) (2 ^ 32 - 1), outw := d.outw.set at_ (d.w 10) }
      c.gatherFull k i
    | _, _ => c

/-- A request arrives at the slice that holds the word (R225). -/
def Ctl.gatherRequest (c : Ctl) (k : Key) (x t : Nat) : Ctl :=
  match c.desc? k with
  | none => c
  | some d => match d.src? 0 with
    | some s =>
      let i := t / 128
      c.addJobs [{ req := 10, purpose := .gatherWord k x t, slice := (s.table.at i).1, offset := (s.table.at i).2.1,
                   row := (s.table.at i).2.2, chunks := [t % 128 / 16], words := List.replicate 128 0,
                   skip := (List.range 128).filter fun l => l ≠ t % 128 }]
    | none => c

/-- The word has been read: it returns to the line of its destination (R225). -/
def Ctl.gatherServed (c : Ctl) (k : Key) (x t : Nat) (w : Codeword) : Ctl :=
  match c.desc? k with
  | none => c
  | some d => match d.src? 0, d.dst with
    | some s, some dt =>
      (c.count (rGATHER_REQS (s.table.sliceOf (t / 128))) 1).modNet fun n => { n with
        flits := n.flits ++ [indexFlit (s.table.line t) (dt.line x) (cwData w) (.ret k x)] }
    | _, _ => c

/-! ### Scatter (R219 to R224) -/

/-- add(a, b, t) of R221. -/
def Desc.accAdd (d : Desc) (t : Nat) (a b : Word) : Word :=
  match shFmt d.dShape with
  | 0 =>
    let q := modulusOf d.mods d.dModulus (t / rowWords (shSpan d.dShape))
    word ((a.toNat % q + b.toNat % q) % q)
  | 3 => f32Add a b
  | _ => a + b

/-- Combine a contribution with what a target holds (R220): the higher index replaces, or the two are added. -/
def Desc.combine (d : Desc) (t : Nat) (old new : Word) : Word := if d.kind = 6 then new else d.accAdd t old new

/-- Is the move ordered by waves (R223)? -/
def Desc.ordered (d : Desc) : Bool := d.kind = 6 || shFmt d.dShape = 3

/-- The partials of a window: target, value, lowest lane; the number of contributions merged into another; drops (R220,
R222). -/
def Desc.partials (d : Desc) (xs ss : List Word) : List (Nat × Word × Nat) × Nat × Nat :=
  ((xs.zip ss).zipIdx).foldl (fun (a : List (Nat × Word × Nat) × Nat × Nat) p =>
    match d.indexOf p.1.1 with
    | none => (a.1, a.2.1, a.2.2 + 1)
    | some t =>
      if a.1.any (·.1 = t) then
        (a.1.map fun q => if q.1 = t then (t, d.combine t q.2.1 p.1.2, q.2.2) else q, a.2.1 + 1, a.2.2)
      else (a.1 ++ [(t, p.1.2, p.2)], a.2.1, a.2.2)) ([], 0, 0)

/-- The oldest wave of an ordered move that has not retired (R223). -/
def Ctl.oldestWave (c : Ctl) (d : Desc) : Nat :=
  if c.jobs.any fun j => match j.purpose with
    | .update k _ _ => decide (k = d.key)
    | _ => false then d.prog - 1 else d.prog

/-- Windows of a move that are read and not merged on a slice, ascending. -/
def Desc.windowsOn (d : Desc) (n : Nat) : List Nat :=
  match d.src? 0 with
  | some s => (List.range s.table.count).filter fun i => Tab.get 0 d.aux i = 1 && s.table.sliceOf i = n
  | none => []

/-- May a window go through the merge buffer (R223)? -/
def Ctl.waveOpen (c : Ctl) (d : Desc) (i : Nat) : Bool := !d.ordered || i / 64 ≤ c.oldestWave d + 1

/-- The three oldest moves with windows on a slice that have still to go through its merge buffer: SLOT0 to SLOT2 (Table 9.1). -/
def Ctl.mergeSlots (c : Ctl) (n : Nat) : List Desc :=
  (sortBy (fun a b => a.order ≤ b.order) (c.descs.filter (·.mergesOn n))).take 3

/-- The window that a slot asks for. -/
def Ctl.slotWindow (c : Ctl) (n k : Nat) : Option (Desc × Nat) :=
  match (c.mergeSlots n)[k]? with
  | some d => ((d.windowsOn n).find? (c.waveOpen d)).map (d, ·)
  | none => none

/-- One window through the merge buffer of a slice (R222). -/
def Ctl.mergeWindow (c : Ctl) (n : Nat) (d : Desc) (i : Nat) : Ctl :=
  match d.dst with
  | none => c
  | some t =>
    let ss := (List.range 128).map fun l => Tab.get 0 d.buf (128 * i + l)
    let p := d.partials (d.sideWords i) ss
    let c := (c.charge (.desc d.key) 9 1).count (rACC_MERGED n) p.2.1
    let c := c.modDesc d.key fun d => { d with
      drops := min (d.drops + p.2.2) (2 ^ 32 - 1), aux := d.aux.set i 2,
      buf := d.buf.filter fun b => b.1 % 2 ^ 30 / 128 ≠ i }
    let c := c.modNet fun x => { x with
      flits := x.flits ++ p.1.map fun q => indexFlit (n * 128 + q.2.2) (t.line q.1) q.2.1 (.addend d.key q.1 i) }
    c.indexProgress d.key

/-- The word update of a partial (R223). -/
def updateJob (k : Key) (t : FragTable) (target : Nat) (v : Word) : Job :=
  let i := target / 128
  { req := 10, purpose := .update k target v, slice := (t.at i).1, offset := (t.at i).2.1, row := (t.at i).2.2,
    chunks := [target % 128 / 16], words := List.replicate 128 0, skip := [] }

/-- A partial arrives (R223): applied as it comes, or held for its wave. -/
def Ctl.addend (c : Ctl) (k : Key) (target window : Nat) (v : Word) : Ctl :=
  match c.desc? k with
  | none => c
  | some d => match d.dst with
    | some t =>
      if d.ordered then c.modNet fun n => { n with
        waves := n.waves ++ [{ key := k, target := target, window := window, value := v }] }
      else c.addJobs [updateJob k t target v]
    | none => c

/-- Is wave p of an ordered move closed: all of its windows merged, none of its partials under way (R223)? -/
def Ctl.waveClosed (c : Ctl) (d : Desc) (p : Nat) : Bool :=
  match d.src? 0 with
  | some s =>
    decide (64 * p < s.table.count) &&
    ((List.range s.table.count).all fun i => i / 64 ≠ p || Tab.get 0 d.aux i = 2) &&
    c.net.flits.all fun f => match f.what with
      | .addend k _ i => k ≠ d.key || i / 64 ≠ p
      | _ => true
  | none => false

/-- Apply a closed wave: each target's partials in ascending window (R223). -/
def Ctl.closeWave (c : Ctl) (d : Desc) (t : FragTable) : Ctl :=
  let mine (w : Partial) : Bool := w.key = d.key && w.window / 64 = d.prog
  let ws := sortBy (fun a b => a.window ≤ b.window) (c.net.waves.filter mine)
  let c := c.modNet fun n => { n with waves := n.waves.filter fun w => !mine w }
  let c := c.modDesc d.key fun d => { d with prog := d.prog + 1 }
  (c.addJobs (ws.map fun w => updateJob d.key t w.target w.value)).indexProgress d.key

/-- WAVE_CLOSE (R223): the wave before it has retired. -/
def execWaveClose (ring idx : Nat) (s : State) : Res :=
  ctlStep (.waveClose ring idx) s fun c =>
    match c.desc? { ring := ring, idx := idx, sub := 0 } with
    | some d => match d.dst with
      | some t =>
        if d.kind ∈ [6, 7] && d.stage = .run && d.ordered && c.waveClosed d d.prog && c.oldestWave d = d.prog then
          c.closeWave d t
        else c
      | none => c
    | none => c

/-- A fragment of the pre-instruction destination has been read: it is copied (R93, R224). -/
def Ctl.copyFrag (c : Ctl) (k : Key) (i : Nat) (ws : List Codeword) : Ctl :=
  match c.desc? k with
  | some d => match d.dst, d.src? 2 with
    | some t, some s =>
      if t.sliceOf i = s.table.sliceOf i then c.addJobs [putJob 10 (.dest k i) t i ws]
      else c.sendFrag 1 (s.table.sliceOf i) (t.sliceOf i) (.dest k i) ws
    | _, _ => c
  | none => c

/-- The index fragment of a window of a scatter is at the slice of the window: the window's source fragment is read there, of which
only the words take part that an index in range names (R218, R222). -/
def Ctl.scatterIndex (c : Ctl) (k : Key) (i : Nat) (ws : List Word) : Ctl :=
  match c.desc? k with
  | none => c
  | some d =>
    let skip := (ws.zipIdx.filter fun p => (d.indexOf p.1).isNone).map (·.2)
    (c.modDesc k fun d => d.keep sideKey i ws []).addJobs (d.accRead 0 3 i skip)

/-- The source fragment of a window has been read. -/
def Ctl.scatterSource (c : Ctl) (k : Key) (i : Nat) (ws : List Word) : Ctl :=
  c.modDesc k fun d => { d.keep id i ws [] with aux := d.aux.set i 1 }

/-- The slice that works on index fragment i: the one that holds the destination fragment of a GATHER (R225), or the source
fragment of a scatter's window (R222). -/
def Desc.sideHome (d : Desc) (i : Nat) : Option Nat :=
  if d.kind = 5 then d.dst.map (·.sliceOf i) else (d.src? 0).map (·.table.sliceOf i)

/-- An index fragment has come to the slice that works on it. -/
def Ctl.sideHere (c : Ctl) (k : Key) (i : Nat) (ws : List Word) : Ctl :=
  if (c.desc? k).any (·.kind = 5) then c.gatherIndex k i ws else c.scatterIndex k i ws

/-- An index fragment has been read from slice `from_`: one that lies apart from the slice that works on it crosses the network
(log entry 67). -/
def Ctl.sideRead (c : Ctl) (k : Key) (i from_ : Nat) (ws : List Codeword) : Ctl :=
  match (c.desc? k).bind (·.sideHome i) with
  | some n => if n = from_ then c.sideHere k i (ws.map cwData) else c.sendFrag 1 from_ n (.side k i) ws
  | none => c

/-- Get index fragment i of an indexed move: a scatter takes it from a reuse latch of the window's slice where one holds it
(R222 step 1), else it is read from its banks. -/
def Ctl.sideFetch (c : Ctl) (k : Key) (i : Nat) : Ctl :=
  match c.desc? k with
  | none => c
  | some d =>
    let tag := (d.src? 1).map (·.table.at i)
    let n := (d.sideHome i).getD 0
    match (c.port n).latches.find? fun l => tag = some l.tag with
    | some l =>
      if d.kind = 5 then c.addJobs (d.accRead 1 4 i [])
      else
        let c := c.modPort n fun p => { p with latches := (p.latches.filter (· ≠ l)) ++ [l] }
        ((c.count (rLATCH_HITS n) 1).charge (.desc k) 3 1).scatterIndex k i (l.words.map cwData)
    | none => c.addJobs (d.accRead 1 4 i [])

/-- A GATHER or scatter runs (step 6). -/
def Ctl.startIndexed (c : Ctl) (k : Key) : Ctl :=
  match c.desc? k with
  | none => c
  | some d =>
    let n (role : Nat) : Nat := match d.src? role with
      | some s => s.table.count
      | none => 0
    let copy := if d.kind = 5 then [] else (List.range (n 2)).flatMap fun i => d.accRead 2 2 i []
    (c.addJobs copy).each (List.range (n 1)) fun c i => c.sideFetch k i

/-! ### Row reduction (R228 to R233) -/

/-- OP of a REDUCE. -/
def Desc.op (d : Desc) : Nat := fld (d.w 1) 8 2

/-- Is position l of a fragment selected by its mask words (R229)? -/
def selectedBy (mask : List Word) (l : Nat) : Bool := decide (mask.getD l 0 &&& 0x7FFFFFFF ≠ 0)

/-- The mask fragment for fragment i of S. -/
def Desc.maskFrag (d : Desc) (span i : Nat) : Nat := if shRows (d.w 6) = 1 then i % span else i

/-- The lanes of fragment i of S that are not selected. -/
def Desc.unselected (d : Desc) (span i : Nat) : List Nat :=
  if bit (d.w 1) 10 then
    let m := d.sideWords (d.maskFrag span i)
    (List.range 128).filter fun l => !selectedBy m l
  else []

/-- Pairwise sums of a list of even length (R232). -/
def pairSums : List Word → List Word
  | a :: b :: t => f32Add a b :: pairSums t
  | l => l

/-- The balanced tree sum (R232): at most `fuel` halvings. -/
def treeSum : Nat → List Word → Word
  | 0, l => l.getD 0 0
  | n + 1, l => if l.length ≤ 1 then l.getD 0 0 else treeSum n (pairSums l)

/-- Row flags of a row of selected words (R230): bit 0 VALID, 1 EMPTY, 2 POS_INF, 3 NAN. -/
def rowFlags (ws : List (Option Word)) : BitVec 4 :=
  let sel := ws.filterMap id
  let nan := sel.any f32IsNaN
  BitVec.ofNat 4 (1 + (if sel.isEmpty then 2 else 0) + (if !nan && sel.contains f32PosInf then 4 else 0) +
    if nan then 8 else 0)

/-- The largest selected value (R231). -/
def rowMax (ws : List (Option Word)) : Word := (ws.filterMap id).foldl f32Max f32NegInf

/-- The result of OP 0 or OP 1 for a row (Table 7.3). -/
def reduceRow (op : Nat) (ws : List (Option Word)) : Word :=
  let sel := ws.filterMap id
  if sel.any f32IsNaN then f32NaN
  else if op = 0 then rowMax ws
  else if sel.isEmpty then 0
  else treeSum 14 (ws.map (·.getD 0))

/-- The result of OP 2 for a position of a row (Table 7.3). -/
def shiftWord (flags : BitVec 4) (m : Word) (w : Option Word) : Word :=
  if flags.getLsbD 3 then f32NaN
  else match w with
    | none => f32NegInf
    | some v =>
      if flags.getLsbD 2 then (if v = f32PosInf then 0 else f32NegInf)
      else if m = f32NegInf then f32NegInf
      else f32Sub v m

/-- The result of OP 0 or OP 1 for a row, from those of its column blocks on each slice in block order (R231, R232): a fold is a
power of two, so each slice holds a subtree of the tree. -/
def combineParts (op : Nat) (vs : List Word) : Word :=
  if vs.any f32IsNaN then f32NaN else if op = 1 then treeSum 14 vs else vs.foldl f32Max f32NegInf

/-- Row flags from those of the row's parts (R230). -/
def combineFlags (fs : List (BitVec 4)) : BitVec 4 :=
  let nan := fs.any (·.getLsbD 3)
  BitVec.ofNat 4 (1 + (if fs.all (·.getLsbD 1) then 2 else 0) + (if !nan && fs.any (·.getLsbD 2) then 4 else 0) +
    if nan then 8 else 0)

/-- Keys of `aux` in a REDUCE: fragment read. -/
def readMark (i : Nat) : Nat := 2 ^ 20 + i
/-- Words of row r on their way. -/
def wayMark (r : Nat) : Nat := 2 ^ 21 + r
/-- Row r has been combined and returns. -/
def backMark (r : Nat) : Nat := 2 ^ 22 + r
/-- Flags of row r. -/
def flagMark (r : Nat) : Nat := 2 ^ 23 + r
/-- Result of row r. -/
def valueMark (r : Nat) : Nat := 2 ^ 24 + r
/-- Result (w 0) and flags (w 1) of the part of row r on slice n. -/
def partMark (r n w : Nat) : Nat := 2 ^ 25 + (r * 64 + n) * 2 + w

/-- The slice that combines row r: the one that holds column block 0 (R233). -/
def FragTable.rowHome (t : FragTable) (r : Nat) : Nat := t.sliceOf (r * t.span)

/-- The fragments of row r on slice n. -/
def FragTable.rowFrags (t : FragTable) (r n : Nat) : List Nat :=
  ((List.range t.span).map (r * t.span + ·)).filter fun i => t.sliceOf i = n

/-- Keep the result and the flags of row r. -/
def Desc.putRow (d : Desc) (r : Nat) (v : Word) (fl : BitVec 4) : Desc :=
  { d with aux := (d.aux.set (valueMark r) v).set (flagMark r) (word fl.toNat) }

/-- The flags of row r. -/
def Desc.rowFl (d : Desc) (r : Nat) : BitVec 4 := BitVec.ofNat 4 (Tab.get 0 d.aux (flagMark r)).toNat

/-- What slice n finds for its part of row r: the partial result and flags. -/
def Desc.partOf (d : Desc) (t : FragTable) (r n : Nat) : Word × BitVec 4 :=
  let ws := (t.rowFrags r n).flatMap fun i =>
    let skip := d.unselected t.span i
    (List.range 128).map fun l => if skip.contains l then none else some (Tab.get 0 d.buf (128 * i + l))
  (reduceRow (if d.op = 1 then 1 else 0) ws, rowFlags ws)

/-- Write the result of row r, or for OP 2 read S again (R233). -/
def Ctl.rowReady (c : Ctl) (k : Key) (r : Nat) : Ctl :=
  match c.desc? k with
  | none => c
  | some d => match d.dst with
    | none => c
    | some t =>
      let frags := (List.range t.span).map (r * t.span + ·)
      if d.op = 2 then c.addJobs (frags.flatMap fun i => d.accRead 0 7 i (d.unselected t.span i))
      else c.addJobs (frags.map fun i =>
        putJob 10 (.dest k i) t i (List.replicate 128 (encodeCw (Tab.get 0 d.aux (valueMark r)))))

/-- The words that carry a result and its flags from slice to slice. -/
def reduceFlits (k : Key) (r src dst : Nat) (v : Word) (fl : BitVec 4) : List Flit :=
  [indexFlit (src * 128) (dst * 128) v (.reduce k r), indexFlit (src * 128 + 1) (dst * 128 + 1) (word fl.toNat) (.reduce k r)]

/-- When every fragment of row r has been read, the partial results cross to the slice that combines them: result and flags, a
word each (R233; log entry 67). -/
def Ctl.rowRead (c : Ctl) (k : Key) (r : Nat) : Ctl :=
  match c.desc? k with
  | none => c
  | some d => match d.src? 0 with
    | none => c
    | some s =>
      let t := s.table
      let frags := (List.range t.span).map (r * t.span + ·)
      if !(frags.all fun i => d.aux.has (readMark i)) then c
      else
        let h := t.rowHome r
        let far := t.list.filter (· ≠ h)
        let p := d.partOf t r h
        if far.isEmpty then (c.modDesc k fun d => d.putRow r p.1 p.2).rowReady k r
        else
          let c := c.modDesc k fun d => { d with aux := d.aux.set (wayMark r) (word (2 * far.length)) }
          let fs := far.flatMap fun m => reduceFlits k r m h (d.partOf t r m).1 (d.partOf t r m).2
          c.modNet fun n => { n with flits := n.flits ++ fs }

/-- The result of row r from the parts that have arrived and that of the combining slice, and its flags. -/
def Desc.combineRow (d : Desc) (t : FragTable) (r : Nat) : Word × BitVec 4 :=
  let parts := t.list.map fun m =>
    if m = t.rowHome r then d.partOf t r m
    else (Tab.get 0 d.aux (partMark r m 0), BitVec.ofNat 4 (Tab.get 0 d.aux (partMark r m 1)).toNat)
  (combineParts d.op (parts.map (·.1)), combineFlags (parts.map (·.2)))

/-- A word of a partial result of row r, or of the combined one, arrives from line `src` (R233). -/
def Ctl.rowWord (c : Ctl) (k : Key) (r src : Nat) (w : Word) : Ctl :=
  match c.desc? k with
  | none => c
  | some d => match d.src? 0 with
    | none => c
    | some s =>
      let t := s.table
      let back := d.aux.has (backMark r)
      let at_ := if back then (if src % 128 = 0 then valueMark r else flagMark r) else partMark r (src / 128) (src % 128)
      let left := (Tab.get 0 d.aux (wayMark r)).toNat - 1
      let c := c.modDesc k fun d => { d with aux := (d.aux.set at_ w).set (wayMark r) (word left) }
      if left ≠ 0 then c
      else if back then c.rowReady k r
      else
        let far := t.list.filter (· ≠ t.rowHome r)
        let v := ((c.desc? k).map (·.combineRow t r)).getD (0, 0)
        let c := c.modDesc k fun d => { d with
          aux := (d.aux.set (backMark r) 1).set (wayMark r) (word (2 * far.length)) }
        let fs := far.flatMap fun m => reduceFlits k r (t.rowHome r) m v.1 v.2
        c.modNet fun n => { n with flits := n.flits ++ fs }

/-- A fragment of S counts as read. -/
def Ctl.reduceRead (c : Ctl) (k : Key) (i : Nat) : Ctl :=
  match c.desc? k with
  | none => c
  | some d => match d.src? 0 with
    | none => c
    | some s =>
      ((c.modDesc k fun d => { d with aux := d.aux.set (readMark i) 1 }).count (rREDUCE_ROWS (s.table.sliceOf i)) 1).rowRead k
        (i / s.table.span)

/-- Read fragment i of S, of which only the selected positions take part (R229). -/
def Ctl.readSelected (c : Ctl) (k : Key) (i : Nat) : Ctl :=
  match c.desc? k with
  | none => c
  | some d => match d.src? 0 with
    | none => c
    | some s => c.addJobs (d.accRead 0 5 i (d.unselected s.table.span i))

/-- A mask fragment has been read: the fragments of S that it masks follow. -/
def Ctl.maskRead (c : Ctl) (k : Key) (m : Nat) (ws : List Word) : Ctl :=
  match c.desc? k with
  | none => c
  | some d => match d.src? 0 with
    | none => c
    | some s =>
      let c := c.modDesc k fun d => d.keep sideKey m ws []
      c.each ((List.range s.table.count).filter fun i => d.maskFrag s.table.span i = m) fun c i => c.readSelected k i

/-- A fragment of S has been read for the first time. -/
def Ctl.reduceFrag (c : Ctl) (k : Key) (i : Nat) (ws : List Word) : Ctl :=
  (c.modDesc k fun d => d.keep id i ws []).reduceRead k i

/-- A fragment of S has been read again for OP 2. -/
def Ctl.shiftFrag (c : Ctl) (k : Key) (i : Nat) (ws : List Word) : Ctl :=
  match c.desc? k with
  | none => c
  | some d => match d.dst with
    | none => c
    | some t =>
      let r := i / t.span
      let m := Tab.get 0 d.aux (valueMark r)
      let fl := d.rowFl r
      let skip := d.unselected t.span i
      c.addJobs [putJob 10 (.dest k i) t i (ws.zipIdx.map fun p =>
        encodeCw (shiftWord fl m (if skip.contains p.2 then none else some p.1)))]

/-- A REDUCE runs (step 6). -/
def Ctl.startReduce (c : Ctl) (k : Key) : Ctl :=
  match c.desc? k with
  | none => c
  | some d =>
    let n (role : Nat) : Nat := match d.src? role with
      | some s => s.table.count
      | none => 0
    if bit (d.w 1) 10 then c.addJobs ((List.range (n 1)).flatMap fun i => d.accRead 1 6 i [])
    else c.each (List.range (n 0)) fun c i => c.readSelected k i

/-- ACC_CTL.CNT_CLEAR (Table 7.9). -/
def Ctl.clearAccCounters (c : Ctl) (n : Nat) : Ctl :=
  c.zeroRegs [rACC_APPLIED n, rACC_MERGED n, rGATHER_REQS n, rWAVE_WAIT n, rREDUCE_ROWS n]

/-- ACC_CNT_CLEAR (R223). -/
def execAccCntClear (slice : Nat) (id : Byte) (s : State) : Res :=
  ctlStep (.accCntClear slice id) s fun c =>
    c.access id (rACC_CTL slice) true fun c => { c.clearAccCounters slice with regRdata := 0 }

end Sys2Proof.Machine
end

