-- ==== Sys2Proof/Machine/Commit.lean ====
section
/-!
DEFINITION. Commits: the incarnation check (R53), rename (R94 to R97), pins (R116, R384), signatures of a pair (R316,
R317), and the end of clearing (R90, R297).
-/
namespace Sys2Proof.Machine

/-- Status of a descriptor that did all of its work (Table 4.16). -/
def Desc.goodStatus (d : Desc) : Nat := if d.drops ≠ 0 then 2 else if d.fills ≠ 0 then 1 else 0

/-- The incarnation that a descriptor captured for a name (R53). -/
def Desc.captured (d : Desc) (n : Nat) : Option (BitVec 16) := (d.caps.find? (·.1 = n)).map (·.2)

/-- The incarnation check of one written name (R53). -/
def Ctl.incarnationOk (c : Ctl) (d : Desc) (n : Nat) : Bool :=
  (c.name n).live = !(d.kind = 12) && d.captured n = some (c.name n).inc

/-- Row flags that a commit leaves: those of the result of a REDUCE (R230), kept by a scatter, else zero (R170). -/
def Desc.commitFlags (d : Desc) : List (BitVec 4) :=
  let rows := shRows d.dShape
  match d.kind with
  | 10 => (List.range rows).map fun r => BitVec.ofNat 4 (Tab.get 0 d.aux (flagMark r)).toNat
  | 6 | 7 => match d.src? 2 with
    | some s => s.flags
    | none => List.replicate rows 0
  | _ => List.replicate rows 0

/-! ### Pins -/

/-- Record a pin and apply it by required migration (R116); one with too few slices is kept and not honoured (R117). -/
def Ctl.applyPin (c : Ctl) (n : Nat) (mask : BitVec 64) (offset : Option Nat) : Ctl :=
  let r := c.name n
  let p : Pin := { mask := mask, offset := offset, broken := false }
  if (c.pinList p (r.table.span / c.foldFor r.table.span)).isNone then
    (c.modName n fun r => { r with pin := some { p with broken := true } }).raise rKS_STATUS 4
  else
    let c := c.modName n fun r => { r with pin := some p }
    if c.pinMet r p then c else c.requireMig n

/-- The entry of the policy table for a name: mask and offset (R384). -/
def policyEntry (policy : List Byte) (n : Nat) : Option (BitVec 64 × Option Nat) :=
  let ws := bytesWords policy
  ((List.range (ws.getD 1 0).toNat).find? fun i =>
      let a := ws.getD (4 + 4 * i) 0
      decide (4 + 4 * i < ws.length ∧ fld a 0 14 ≤ n ∧ n ≤ fld a 16 14)).map fun i =>
    let b := ws.getD (5 + 4 * i) 0
    (BitVec.ofNat 64 ((ws.getD (6 + 4 * i) 0).toNat + 2 ^ 32 * (ws.getD (7 + 4 * i) 0).toNat),
      if bit b 8 then some (fld b 0 5) else none)

/-- The pin of the policy at the commit of an ALLOC (R384). -/
def Ctl.policyPin (c : Ctl) (n : Nat) : Ctl :=
  if !bit (c.reg rKS_CTL_ACT) 0 || (c.name n).pin.isSome then c
  else match policyEntry c.msq.policy n with
    | some (m, o) => c.applyPin n m o
    | none => c

/-! ### Publishing -/

/-- A name's map entry is replaced in one update: the new slots are MAPPED, those they replace RETIRED (R91, R94), and its
poison clears (R301). A condemned slot among them is left again by required migration (R297). -/
def Ctl.publish (c : Ctl) (n : Nat) (t : FragTable) (flags : List (BitVec 4)) : Ctl :=
  let old := if (c.name n).live then (c.name n).table.slots else []
  let c := (c.setSlots old .retired .none).setSlots t.slots .mapped (.name n)
  let c := c.modName n fun r => { r with
    table := t, displaced := t.displaced, flags := flags, commits := r.commits + 1, poison := none }
  if t.slots.any fun k => (c.slot k).condemned then c.requireMig n else c

/-- The commit of an ALLOC (R50, R51, R97): the record, partners cleared (R105), a pin of the policy (R384). -/
def Ctl.publishAlloc (c : Ctl) (d : Desc) (n : Nat) (t : FragTable) : Ctl :=
  let c := c.publish n t (List.replicate (shRows (d.w 4)) 0)
  let c := c.modName n fun r => { r with
    live := true, shape := d.w 4, modulus := d.w 5, domain := d.domain, inc := r.inc + 1, partners := [], score := 0 }
  c.policyPin n

/-- The commit of a FREE (R54, R97, R105, R116). -/
def Ctl.publishFree (c : Ctl) (n : Nat) : Ctl :=
  let c := c.setSlots (c.name n).table.slots .retired .none
  c.modName n fun r => { NameRec.reset with inc := r.inc, commits := r.commits + 1 }

/-- Replace the map entry of what the descriptor writes. -/
def Ctl.publishDesc (c : Ctl) (d : Desc) : Ctl :=
  match d.kind, d.writes.head?, d.dst with
  | 13, some n, _ => c.publishFree n
  | 12, some n, some t => c.publishAlloc d n t
  | _, some n, some t => c.publish n t d.commitFlags
  | _, _, _ => c

/-- Commit a descriptor, or complete it with TILE_NAME where the incarnation check fails (R53, R94), which a pair then compares
in its turn. -/
def Ctl.commitNow (c : Ctl) (d : Desc) : Ctl :=
  if d.writes.all (c.incarnationOk d) then
    ((c.publishDesc d).modDesc d.key fun d => { d with committed := true }).finish d.key d.goodStatus 0
  else (c.modDesc d.key fun d => { d with stage := .written, sigWait := false }).finish d.key 0x13 0

/-! ### Signatures (R316, R317) -/

/-- The data words that a fragment's banks hold, single-bit errors corrected. -/
def Ctl.fragData (c : Ctl) (cells : Cells) (p : Nat × Nat × Nat) : List Word :=
  (List.range 8).flatMap fun k =>
    let pb := c.physBank p.1 (chunkBank p.2.1 k)
    (cells.readRow p.1 pb (c.physRow p.1 pb p.2.2)).map fun w => (decodeCw w).data

/-- The bytes of a committed tile in a signature. -/
def Ctl.tileBytes (c : Ctl) (cells : Cells) (d : Desc) (n : Nat) (t : FragTable) : List Byte :=
  natBytes 2 n ++
    ((List.range t.count).flatMap fun i =>
      (if d.kind = 12 then List.replicate 128 (0 : Word) else c.fragData cells (t.at i)).flatMap wordBytes) ++
    d.commitFlags.map fun f => BitVec.ofNat 8 f.toNat

/-- The signature of a descriptor that is about to commit (R316). -/
def Ctl.signature (c : Ctl) (cells : Cells) (d : Desc) : BitVec 64 :=
  let tile := match d.writes.head?, d.dst with
    | some n, some t => c.tileBytes cells d n t
    | _, _ => []
  crc64 (d.sigHead d.goodStatus ++ tile)

/-- Both signatures are there: equal ones let the descriptor commit, or complete with the status that it proposed; differing ones
halt the pair (R317, R319). The images of a bulk service commit one after the other under its index. -/
def Ctl.compareCommit (c : Ctl) (ring idx : Nat) : Ctl :=
  let g := c.sigFor ring idx none
  match g.local_, g.peer with
  | some a, some b =>
    let c : Ctl := { c with sigs := c.sigs.filter fun (s : Sig) => s ≠ g }
    if a ≠ b then c.mismatch g a b
    else
      let c := c.count rPAIR_COMPARED 1
      match c.descs.find? fun d => d.key.ring = ring && d.key.idx = idx && d.stage = .peer && d.sigWait with
      | some d => if d.proposed then (c.fixNow d.key d.status d.detail).fences else c.commitNow d
      | none => c
  | _, _ => c

/-- A paired instance sends its signature and waits for the peer's (R317). -/
def Ctl.signCommit (c : Ctl) (cells : Cells) (d : Desc) : Ctl :=
  let s := c.signature cells d
  ((c.modDesc d.key fun d => { d with stage := .peer, sigWait := true }).sendSig d.key none s).compareCommit d.key.ring d.key.idx

/-! ### COMMIT -/

/-- Has a descriptor still to resolve the rows that it reads (R91, R95)? -/
def Desc.unresolved (d : Desc) : Bool := d.stage ∈ [.hold, .check, .wait, .fenced] && d.srcs.isEmpty

/-- Does an older descriptor of the ring still stand before its commit to one of the names (R94), or before it resolves what it
reads of them (R95)? -/
def Ctl.olderUses (c : Ctl) (d : Desc) : Bool :=
  (c.ringDescs d.key.ring).any fun e => e.key.idx < d.key.idx && !e.completed &&
    (e.writes.any d.writes.contains || (e.unresolved && e.reads.any d.writes.contains))

/-- May a descriptor commit (R94, R95, R212, R319)? -/
def Ctl.mayCommit (c : Ctl) (d : Desc) : Bool :=
  d.stage = .written && d.viaLink.isNone && !c.olderUses d && !c.halted

/-- The descriptor at an index of a ring, or one of the images of its bulk service, that may commit. -/
def Ctl.commitDesc (c : Ctl) (ring idx : Nat) : Option Desc :=
  c.descs.find? fun d => d.key.ring = ring && d.key.idx = idx && c.mayCommit d

/-- COMMIT (R94): in a pair the signature goes out first (R317). -/
def execCommit (ring idx : Nat) (s : State) : Res :=
  fullStep (.commit ring idx) s fun c cells =>
    match c.commitDesc ring idx with
    | some d =>
      (if c.paired && d.writes.all (c.incarnationOk d) then c.signCommit cells d else c.commitNow d, cells)
    | none => (c, cells)

/-! ### Clearing (R90, R297) -/

/-- The bank row of a slot whose spare row has been taken in (Table 10.3 step 4): ROW_SPARED is logged. -/
def Ctl.rowSpared (c : Ctl) (h : Nat × Nat × Nat × Bool) : Ctl :=
  let pb := c.physBank h.1 h.2.1
  ((c.raise rINT_EVT 1).logRow 7 h.1 pb h.2.2.1 none).modInteg fun i => { i with
    hard := i.hard.filter (· ≠ h) }

/-- The last row write of a slot has been made: it is FREE, and a condemned one whose rows are spared may be allocated
again (R297), unless a bank copy or the fill of a spare bank holds it (R298, R299). -/
def Ctl.slotCleared (c : Ctl) (k : Nat) : Ctl :=
  let mine (h : Nat × Nat × Nat × Bool) : Bool := h.1 = slotSlice k && rowSlot h.1 h.2.1 h.2.2.1 = k
  let c := c.each (c.integ.hard.filter fun h => mine h && h.2.2.2) fun c h => c.rowSpared h
  let copying := c.integ.copies.any fun x => x.slice = slotSlice k && x.bank / 8 = slotQ k
  let filling := c.integ.spareFills.any fun x => x.1 = slotSlice k && (c.bankOf x.1 x.2).any fun b => b / 8 = slotQ k
  if c.integ.hard.any mine || (c.slot k).condemned && (copying || filling) then c.setSlots [k] .free .none
  else { c with slots := c.slots.del k }

/-- CLEARING_DONE (R90). -/
def execClearingDone (slice row quarter : Nat) (s : State) : Res :=
  ctlStep (.clearingDone slice row quarter) s fun c =>
    let k := slotKey slice row quarter
    if (c.slot k).state = .clearing && !(c.jobs.any fun j => decide (j.purpose = Purpose.clear k)) then
      (c.slotCleared k).tryWanted.fences
    else c

end Sys2Proof.Machine
end

