-- ==== Sys2Proof/Machine/Mailbox.lean ====
section
/-!
DEFINITION. Mailbox channels and doorbells (R362 to R368).
-/
namespace Sys2Proof.Machine

/-- The MSQ's identity (R360). -/
def msqId : Nat := 0xFF

/-- Sender of a channel's binding, none while it is not VALID (R362). -/
def Ctl.mbSender (c : Ctl) (ch : Nat) : Option Nat :=
  if bit (c.reg (rMB_BIND ch)) 31 then some (c.rf (rMB_BIND ch) 0 8) else none
/-- Receiver of a channel's binding, none while it is not VALID (R362). -/
def Ctl.mbReceiver (c : Ctl) (ch : Nat) : Option Nat :=
  if bit (c.reg (rMB_BIND ch)) 31 then some (c.rf (rMB_BIND ch) 8 8) else none

/-- Doorbell bit of a channel when the party told is not the MSQ (R367). -/
def Ctl.mbBell (c : Ctl) (ch : Nat) (who : Option Nat) : Ctl := if who = some msqId then c else c.ringBell ch

/-- A word is withdrawn: FULL clears, TIMEOUT sets (R365). -/
def Ctl.mbWithdraw (c : Ctl) (ch : Nat) : Ctl :=
  let c := (c.lower (rMB_STATUS ch) 0).raise (rMB_STATUS ch) 2
  { c with mbDeadline := c.mbDeadline.del ch }.mbBell ch (c.mbSender ch)

/-- Can the receiver take no word now: the MSQ not RUNNING, or the block in Night (R365)? -/
def Ctl.mbDeaf (c : Ctl) (ch : Nat) : Bool :=
  c.mbReceiver ch = some msqId && (c.msq.state ≠ 2 || c.pstate = 4)

/-- Every word addressed to the MSQ is withdrawn where it takes none (R365). -/
def Ctl.mbSettle (c : Ctl) : Ctl :=
  c.each (List.range 16) fun c ch => if c.mbDeaf ch && bit (c.reg (rMB_STATUS ch)) 0 then c.mbWithdraw ch else c

/-- A write of MB_DATA by the sender (R363, R365, R367). -/
def Ctl.mbSend (c : Ctl) (ch : Nat) (d : Word) : Ctl :=
  if bit (c.reg (rMB_STATUS ch)) 0 then c.raise (rMB_STATUS ch) 3
  else
    let c := c.setReg (rMB_DATA ch) d
    let c := ((c.lower (rMB_STATUS ch) 1).lower (rMB_STATUS ch) 2).raise (rMB_STATUS ch) 0
    let c := { c with mbDeadline := c.mbDeadline.set ch (c.after (c.ticksOf rMB_CFG 0 16)) }
    let c := c.mbBell ch (c.mbReceiver ch)
    if c.mbDeaf ch then c.mbWithdraw ch else c

/-- A write of MB_ACK by the receiver (R364, R367). -/
def Ctl.mbAck (c : Ctl) (ch : Nat) (d : Word) : Ctl :=
  if bit (c.reg (rMB_STATUS ch)) 0 then
    let c := c.setReg (rMB_ACK ch) (d &&& 0xFFFF)
    let c := (c.lower (rMB_STATUS ch) 0).raise (rMB_STATUS ch) 1
    { c with mbDeadline := c.mbDeadline.del ch }.mbBell ch (c.mbSender ch)
  else c.raise (rMB_STATUS ch) 4

/-- A write of MB_BIND (R366): read-only under LOCK; otherwise flags clear and the word is discarded. -/
def Ctl.mbBind (c : Ctl) (ch : Nat) (d : Word) : Ctl :=
  if bit (c.reg rMB_LOCK) 0 then c
  else
    let c := (c.setReg (rMB_BIND ch) (d &&& 0x8000FFFF)).setReg (rMB_STATUS ch) 0
    { c with mbDeadline := c.mbDeadline.del ch }

/-- A write of MB_LOCK (R366). -/
def Ctl.mbSetLock (c : Ctl) (d : Word) : Ctl := if bit d 0 then c.raise rMB_LOCK 0 else c

/-- May the identity write MB_BIND and MB_LOCK (R366)? -/
def Ctl.mbPriv (c : Ctl) (id : Byte) : Bool := c.privMaster = some id.toNat

/-- May the identity access a channel register: DATA 0, STATUS 1, ACK 2, BIND 3 (R362, R366)? -/
def Ctl.mbAllowed (c : Ctl) (ch which : Nat) (write : Bool) (id : Byte) : Bool :=
  let snd := c.mbSender ch = some id.toNat
  let rcv := c.mbReceiver ch = some id.toNat
  match which with
  | 0 => if write then snd else rcv
  | 1 => snd || rcv
  | 2 => if write then rcv else snd
  | _ => write && c.mbPriv id

/-- Is an access the MSQ's own: its firmware's, while that runs (R360, R364, R368; log entry 39)? It does not go through the register
port, on which the identity is denied. -/
def Ctl.firmwareOwn (c : Ctl) (id : Byte) : Bool := id.toNat = msqId && c.msq.state = 2 && c.pstate ≠ 4

/-- An access to a channel or to DB_RING, by a master on the register port or by the MSQ. -/
def Ctl.channelAccess (c : Ctl) (id : Byte) (off : Nat) (allowed : Bool) (f : Ctl → Ctl) : Ctl :=
  if c.firmwareOwn id && allowed then f c else c.access id off allowed f

/-- MB_DATA_WRITE (R363). -/
def execMbDataWrite (ch : Nat) (id : Byte) (data : Word) (s : State) : Res :=
  ctlStep (.mbDataWrite ch id data) s fun c =>
    c.channelAccess id (rMB_DATA ch) (c.mbAllowed ch 0 true id) fun c => { c.mbSend ch data with regRdata := 0 }

/-- MB_ACK_WRITE (R364). -/
def execMbAckWrite (ch : Nat) (id : Byte) (data : Word) (s : State) : Res :=
  ctlStep (.mbAckWrite ch id data) s fun c =>
    c.channelAccess id (rMB_ACK ch) (c.mbAllowed ch 2 true id) fun c => { c.mbAck ch data with regRdata := 0 }

/-- MB_BIND_WRITE (R366). -/
def execMbBindWrite (ch : Nat) (id : Byte) (data : Word) (s : State) : Res :=
  ctlStep (.mbBindWrite ch id data) s fun c =>
    c.access id (rMB_BIND ch) (c.mbAllowed ch 3 true id) fun c => { c.mbBind ch data with regRdata := 0 }

/-- MB_LOCK (R366). -/
def execMbLock (id : Byte) (s : State) : Res :=
  ctlStep (.mbLock id) s fun c =>
    c.access id rMB_LOCK (c.mbPriv id) fun c => { c.mbSetLock 1 with regRdata := 0 }

/-- MB_TIMEOUT (R365): the deadline holds in Night. -/
def execMbTimeout (ch : Nat) (s : State) : Res :=
  ctlStep (.mbTimeout ch) s fun c =>
    match c.mbDeadline.find? (·.1 = ch) with
    | some p => if c.due p.2 && c.pstate ≠ 4 then c.mbWithdraw ch else c
    | none => c

/-! ### Doorbells -/

/-- May the identity write DB_RING (R368)? -/
def Ctl.dbAllowed (c : Ctl) (id : Byte) : Bool :=
  c.mbPriv id || c.firmwareOwn id || (List.range 16).any fun ch => c.mbSender ch = some id.toNat || c.mbReceiver ch = some id.toNat

/-- A write of DB_RING (R368). -/
def Ctl.dbRing (c : Ctl) (d : Word) : Ctl :=
  let b := fld d 0 5
  let inst := fld d 8 2
  if b < 16 then c.raise rDB_FROM 31
  else if !bit d 12 then c.ringBell b
  else if c.joined && c.linkUp inst then c.sendLink (c.linkTo inst) 9 0 [word b]
  else c.raise rDB_FROM 31

/-- DB_RING (R368): a write with REMOTE clear. -/
def execDbRing (id : Byte) (data : Word) (s : State) : Res :=
  ctlStep (.dbRing id data) s fun c =>
    if bit data 12 then c
    else c.channelAccess id rDB_RING (c.dbAllowed id) fun c => { c.dbRing data with regRdata := 0 }

/-- DB_RING_REMOTE (R368): a write with REMOTE set. -/
def execDbRingRemote (id : Byte) (data : Word) (s : State) : Res :=
  ctlStep (.dbRingRemote id data) s fun c =>
    if bit data 12 then c.channelAccess id rDB_RING (c.dbAllowed id) fun c => { c.dbRing data with regRdata := 0 } else c

/-- RING_WORD (R368, Table 14.4): a peer rings. -/
def execRingWord (l : Nat) (w0 : Word) (s : State) : Res :=
  ctlStep (.ringWord l w0) s fun c =>
    let b := fld w0 0 5
    if c.joined && 16 ≤ b then (c.ringBell b).setRf rDB_FROM 0 2 (c.linkPeer l) else c

end Sys2Proof.Machine
end

