-- ==== Sys2Proof/Machine/Quoin.lean ====
section
/-!
DEFINITION. Joined instances: the join (R208, R209), aliases (R210, R211), alias transfers (R212, R213), links that go
down (R424). The answer to an alias query, which goes on with an admission, stands in Admit.
-/
namespace Sys2Proof.Machine

/-! ### Joining (Table 6.7) -/

/-- The JOIN words received, by link. -/
def Ctl.joinWords (c : Ctl) : List (Nat × Word) := (List.range 3).filterMap fun l => (c.link l).peer.map fun v => (l, word v)

/-- Does a JOIN word clash: the own INSTANCE, or one that PEERS does not name (Table 6.7 step 3)? -/
def Ctl.wordClashes (c : Ctl) (w : Word) : Bool :=
  fld w 0 2 = c.rf rQUOIN_CTL 8 2 || !bit (c.reg rQUOIN_CTL) (16 + fld w 0 2)

/-- The JOIN words received are checked once the join has been asked for here (Table 6.7 steps 3 and 4): a clash of any leaves
JOINED and LINK_UP as they are. -/
def Ctl.checkJoin (c : Ctl) : Ctl :=
  if c.joinWords.any fun p => c.wordClashes p.2 then (c.setRf rQUOIN_STATUS 8 3 2).raise rQUOIN_STATUS 1
  else if c.joinWords.isEmpty then c
  else (c.each c.joinWords fun c p => c.raise rQUOIN_STATUS (16 + fld p.2 0 2)).raise rQUOIN_STATUS 0

/-- JOIN written (Table 6.7 steps 2 to 4): refused in pair mode; else the own word goes to each named peer, and words that
have come already are checked. With no peer named, nobody is waited for. -/
def Ctl.startJoin (c : Ctl) : Ctl :=
  if bit (c.reg rPAIR_STATUS) 31 then (c.setRf rQUOIN_STATUS 8 3 1).raise rQUOIN_STATUS 1
  else
    let w := word (c.rf rQUOIN_CTL 8 2 + c.rf rQUOIN_CTL 16 4 * 2 ^ 4)
    let ls := (List.range 3).filter fun l => bit (c.reg rQUOIN_CTL) (16 + c.linkPeer l)
    let c := c.each ls fun c l => c.sendLink l 1 0 [w]
    if c.rf rQUOIN_CTL 16 4 = 0 then c.raise rQUOIN_STATUS 0 else if c.linksGated then c else c.checkJoin

/-- A write of QUOIN_CTL (Table 6.18): its fields lock once JOINED. -/
def Ctl.writeQuoinCtl (c : Ctl) (d : Word) : Ctl :=
  if c.joined then c
  else
    let c := c.setReg rQUOIN_CTL (d &&& 0xFF0F0301)
    if bit d 0 then c.startJoin else c

/-- JOIN (R209): a write of QUOIN_CTL that sets JOIN. -/
def execJoin (id : Byte) (data : Word) (s : State) : Res :=
  ctlStep (.join id data) s fun c =>
    if bit data 0 then c.access id rQUOIN_CTL (c.mbPriv id) fun c => { c.writeQuoinCtl data with regRdata := 0 } else c

/-- Is a join asked for here, and not barred by pair mode? -/
def Ctl.joining (c : Ctl) : Bool := bit (c.reg rQUOIN_CTL) 0 && !bit (c.reg rPAIR_STATUS) 31

/-- JOIN_WORD (R209): kept until the join is asked for here. A gated link takes no word (Table 13.5). -/
def execJoinWord (l : Nat) (w0 : Word) (s : State) : Res :=
  ctlStep (.joinWord l w0) s fun c =>
    if c.linksGated then c
    else
      let c := c.modLink l fun k => { k with peer := some w0.toNat, alive := true }
      if c.joining then c.checkJoin else c

/-! ### Aliases (R210) -/

/-- May the identity write QUOIN_ALIAS: PRIV_ID while JOINED (Table 6.22)? -/
def Ctl.aliasAllowed (c : Ctl) (id : Byte) : Bool := c.joined && c.rf rQUOIN_CTL 24 8 = id.toNat

/-- A write of QUOIN_ALIAS_A or _B: one that would make an entry VALID while LOCAL_NAME is LIVE is ignored (R210). -/
def Ctl.writeAlias (c : Ctl) (a : Nat) (second : Bool) (d : Word) : Ctl :=
  if second then c.setReg (rQUOIN_ALIAS_B a) (d &&& 0x003F3FFF)
  else if bit d 31 && (c.name (fld d 0 14)).live then c
  else c.setReg (rQUOIN_ALIAS_A a) (d &&& 0xBF033FFF)

/-- QUOIN_ALIAS_WRITE (R210). -/
def execQuoinAliasWrite (a : Nat) (second : Bool) (id : Byte) (data : Word) (s : State) : Res :=
  ctlStep (.quoinAliasWrite a second id data) s fun c =>
    c.access id (if second then rQUOIN_ALIAS_B a else rQUOIN_ALIAS_A a) (c.aliasAllowed id) fun c =>
      { c.writeAlias a second data with regRdata := 0 }

/-! ### Outgoing transfers (R212) -/

/-- Words of a link beat: 32 per slice of the part (Table 14.3). -/
def Ctl.beatWords (c : Ctl) : Nat := 32 * c.slicesN

/-- The destination words of an alias PERMUTE, in ascending flat index. -/
def Desc.aliasWords (d : Desc) : List Word := (List.range (shLen d.dShape)).map fun x => (d.permWord x).getD (d.w 3)

/-- Send the destination of an alias PERMUTE (R212): one DATA word group per link beat, numbered modulo 4096. -/
def Ctl.sendAlias (c : Ctl) (d : Desc) (l : Nat) : Ctl :=
  let beats := chunksOf c.beatWords (shLen d.dShape) d.aliasWords
  let c := c.each beats.zipIdx fun c b => c.sendLinkFor (.desc d.key) l 5 (b.2 % 4096) b.1
  (c.count rQUOIN_OUT_VECTORS ((shLen d.dShape + 8191) / 8192)).modDesc d.key fun d => { d with stage := .peer, phase := 2 }

/-- An alias PERMUTE whose staging slots are all written sends them to the peer. -/
def Ctl.aliasProgress (c : Ctl) (k : Key) : Ctl :=
  match c.desc? k with
  | some d => match d.viaLink with
    | some l => if d.stage = .written then c.sendAlias d l else c
    | none => c
  | none => c

/-- The alias PERMUTE that has sent its words on a link. -/
def Ctl.aliasSent (c : Ctl) (l : Nat) : Option Desc :=
  c.descs.find? fun d => d.kind = 8 && d.viaLink = some l && d.stage = .peer && d.phase = 2

/-- READY (R212): one COMMIT beat goes out. -/
def execReady (l : Nat) (s : State) : Res :=
  ctlStep (.ready l) s fun c =>
    match c.aliasSent l with
    | some d => (c.sendLink l 7 0 []).modDesc d.key fun d => { d with sigWait := true }
    | none => c

/-- QUOIN_COMMIT_ACK (R212): the descriptor completes, and its staging slots enter CLEARING. -/
def execQuoinCommitAck (l : Nat) (s : State) : Res :=
  ctlStep (.quoinCommitAck l) s fun c =>
    match c.aliasSent l with
    | some d =>
      if d.sigWait then (c.modLink l fun k => { k with deadline := none }).finish d.key d.goodStatus 0 else c
    | none => c

/-- RESEND (R213, R311): the whole destination goes out again. -/
def execResend (l : Nat) (s : State) : Res :=
  ctlStep (.resend l) s fun c =>
    match c.aliasSent l with
    | some d =>
      if d.sigWait then c
      else ((c.sendAlias d l).modDesc d.key fun d => { d with restarted := true }).count rRESTARTS 1
    | none => c

/-! ### Incoming transfers (R212) -/

/-- ALIAS_QUERY (R211, Table 14.4): the record is answered, and the incarnation captured for the transfer. -/
def execAliasQuery (l : Nat) (w0 : Word) (s : State) : Res :=
  ctlStep (.aliasQuery l w0) s fun c =>
    if !c.joined then c
    else
      let n := fld w0 0 14
      let r := c.name n
      let x : Incoming :=
        { name := n, inc := r.inc, units := 0, doneFrags := [],
          table := some { FragTable.empty with rows := shRows r.shape, span := shSpan r.shape } }
      let c := (c.dropIncoming l).modNet fun y => { y with
        incoming := if r.live then y.incoming.set l x else y.incoming.del l }
      c.sendLink l 4 0 [word ((if r.live then 2 ^ 31 + r.domain * 2 ^ 24 else 0) + r.inc.toNat), r.shape, r.modulus]

/-- Place an incoming transfer: FRESH slots of this instance (R212). -/
def Ctl.placeIncoming (c : Ctl) (l : Nat) (x : Incoming) (t : FragTable) : Ctl :=
  if !t.frags.isEmpty then c
  else match c.place x.name t.rows t.span [] with
    | some t => (c.setSlots t.slots .fresh (.link l)).modNet fun y => { y with
        incoming := y.incoming.set l { x with table := some t } }
    | none => c

/-- A DATA beat in its order goes into the network in addressed mode; one that finds no slots is not taken. -/
def Ctl.dataIn (c : Ctl) (l unit : Nat) (ws : List Codeword) : Ctl :=
  match c.net.incoming.find? (·.1 = l) with
  | none => c
  | some (_, x) => match x.table with
    | none => c
    | some t0 =>
      let c := c.placeIncoming l x t0
      match (c.net.incoming.find? (·.1 = l)).bind fun p => p.2.table with
      | none => c
      | some t =>
        if t.frags.isEmpty || unit % 4096 ≠ x.units % 4096 then c
        else
          let lines := 128 * c.slicesN
          let fs : List Flit := (ws.zipIdx.filter fun p => x.units * c.beatWords + p.2 < 128 * t.count).map fun p =>
            let at_ := x.units * c.beatWords + p.2
            { user := 3, src := at_ % lines, dst := t.line at_, word := p.1,
              what := .frag (.incoming l (at_ / 128)) (at_ % 128), injected := false }
          c.modNet fun y => { y with
            flits := y.flits ++ fs, incoming := y.incoming.set l { x with table := some t, units := x.units + 1 } }

/-- DATA (R212). -/
def execQuoinData (l unit : Nat) (words : List Codeword) (s : State) : Res :=
  ctlStep (.quoinData l unit words) s fun c => c.dataIn l unit words

/-- A fragment of an incoming transfer has been written: READY once all have (R212). -/
def Ctl.incomingDone (c : Ctl) (l i : Nat) : Ctl :=
  match c.net.incoming.find? (·.1 = l) with
  | none => c
  | some (_, x) =>
    let x := { x with doneFrags := (i :: x.doneFrags).eraseDups }
    let c := c.modNet fun y => { y with incoming := y.incoming.set l x }
    match x.table with
    | some t => if t.count ≤ x.doneFrags.length then c.sendLink l 6 0 [] else c
    | none => c

/-- COMMIT_WORD (R212): the transfer commits under the incarnation captured with the query (R53). -/
def execCommitWord (l : Nat) (s : State) : Res :=
  ctlStep (.commitWord l) s fun c =>
    match c.net.incoming.find? (·.1 = l) with
    | none => c
    | some (_, x) => match x.table with
      | none => c
      | some t =>
        if t.frags.isEmpty || x.doneFrags.length < t.count then c
        else
          let gone := c.modNet fun y => { y with incoming := y.incoming.del l }
          if (c.name x.name).live && (c.name x.name).inc = x.inc then
            let c := (gone.publish x.name t (List.replicate t.rows 0)).reapRetired
            (c.count rQUOIN_IN_COMMITS 1).setReg rQUOIN_LAST_IN (word (c.linkPeer l * 2 ^ 24 + x.name))
          else gone.dropIncoming l

/-! ### Links that go down (R424); QALIVE follows what the links show (log entry 25) -/

/-- A link is down (R213, R321). -/
def Ctl.linkFalls (c : Ctl) (l : Nat) : Ctl :=
  let c := c.lower rQUOIN_STATUS (16 + c.linkPeer l)
  let c := c.modLink l fun k => { Link.reset with alive := k.alive }
  let c := c.each (c.descs.filter fun d => d.kind = 8 && d.viaLink = some l && !d.completed) fun c d => c.finish d.key 0x22 2
  let c := (c.dropIncoming l).modNet fun x => { x with incoming := x.incoming.del l }
  if c.paired && l = c.pairLink then c.haltPair 3 else c

/-- LINK_DOWN (R424): QI_ALIVE low at a tick boundary. -/
def execLinkDown (l : Nat) (s : State) : Res :=
  ctlStep (.linkDown l) s fun c => (c.linkFalls l).modLink l fun k => { k with alive := false }

/-- LINK_HANDSHAKE_TIMEOUT (R424). -/
def execLinkHandshakeTimeout (l : Nat) (s : State) : Res :=
  ctlStep (.linkHandshakeTimeout l) s fun c =>
    match (c.link l).deadline with
    | some d => if c.due d then c.linkFalls l else c
    | none => c

end Sys2Proof.Machine
end

