-- ==== Sys2Proof/Machine/Rows.lean ====
section
/-!
DEFINITION. Work on the rows of physical banks: scrub visits (R293 to R295), bank copies (R298), the zero-fill of a spare bank
(R299). Each access is a request of its own at the bank; rounds stand in Round.
-/
namespace Sys2Proof.Machine

/-- Replace the first occurrence of a bank access, or take it out. -/
def Ctl.swapJob (c : Ctl) (j : Job) (j' : Option Job) : Ctl :=
  { c with jobs := match j' with
    | some x => c.jobs.replace j x
    | none => c.jobs.erase j }

/-! ### The scrubber's visits -/

/-- Is a physical bank dead (R299)? -/
def Ctl.isDead (c : Ctl) (n pb : Nat) : Bool := c.integ.dead.contains (n, pb)

/-- The banks that a slice's scrubber visits. -/
def Ctl.scrubBanks (c : Ctl) (n : Nat) : List Nat := (List.range 34).filter fun b => !c.isDead n b

/-- The visit that is due: the stored position, moved past dead banks. -/
def Ctl.scrubDue (c : Ctl) (n : Nat) : Nat × Nat :=
  let s := c.slice n
  match (c.scrubBanks n).find? fun b => s.scrubBank ≤ b with
  | some b => (s.scrubRow % 2080, b)
  | none => ((s.scrubRow + 1) % 2080, (c.scrubBanks n).headD 0)

/-- Is a visit the last of a pass? -/
def Ctl.scrubLast (c : Ctl) (n : Nat) (v : Nat × Nat) : Bool := v.1 = 2079 && (c.scrubBanks n).getLast? = some v.2

/-- A visit has been made or skipped: the last of a pass adds one to SCRUB_PASSES (R293). -/
def Ctl.scrubDone (c : Ctl) (n : Nat) (v : Nat × Nat) : Ctl := if c.scrubLast n v then c.count (rSCRUB_PASSES n) 1 else c

/-- A visit becomes due (R293, R295): it waits for its grant, a request of the SCRUB requester, or is skipped when 64 wait. -/
def Ctl.scrubStart (c : Ctl) (n : Nat) : Ctl :=
  let v := c.scrubDue n
  let full := 64 ≤ (c.slice n).scrubWait.length
  let c := c.modSlice n fun s => { s with
    scrubRow := v.1, scrubBank := v.2 + 1, scrubWait := if full then s.scrubWait else s.scrubWait ++ [v] }
  if full then (c.count (rSCRUB_LAG n) 1).scrubDone n v
  else
    let j : Job :=
      { req := 12, purpose := .scrubRead, slice := n, offset := 0, row := v.1, chunks := [0], words := [], skip := [],
        phys := some v.2 }
    c.addJobs [j]

/-- The logical bank and row that a physical row holds. -/
def Ctl.logical (c : Ctl) (n pb pr : Nat) : Option (Nat × Nat) :=
  (c.bankOf n pb).bind fun b => (c.rowOf n pb pr).map fun r => (b, r)

/-! ### Bank copies, spare banks, scrub visits: rows of a physical bank -/

/-- The words of a row that a bank copy has read (R298): corrected, lost ones zero. -/
def Ctl.copyRowRead (c : Ctl) (cells : Cells) (j : Job) (bank spare : Nat) (noise reread : List Codeword) : Ctl :=
  let r := c.readBank cells j.slice bank j.row [] noise reread
  let c := (r.1.charge .background 0 r.2.reads).swapJob j none
  let c := if r.2.lost.isEmpty then c else c.lostEffect j.slice bank j.row
  match c.integ.copies.find? fun k => k.slice = j.slice && k.bank = bank && k.spare = spare with
  | none => c
  | some k =>
    (c.modInteg fun i => { i with copies := i.copies.replace k { k with row := j.row + 1 } }).addJobs
      [{ j with purpose := .copyWrite bank spare, words := r.2.words, phys := some spare, chunks := [0], raised := false }]

/-- A row of a bank copy is written in the spare bank; the next row is read (R298). -/
def Ctl.copyRowWrite (c : Ctl) (cells : Cells) (j : Job) (bank spare : Nat) : Ctl × Cells :=
  let c := (c.charge .background 1 1).swapJob j none
  let c := match c.integ.copies.find? fun k => k.slice = j.slice && k.bank = bank && k.spare = spare with
    | some k => if k.row < 2048 then c.copyRead k else c
    | none => c
  (c, cells.writeRow j.slice spare j.row j.words)

/-- The zero-fill of a spare bank that replaces a dead one writes row r: a SCRUB request (R299). -/
def zeroJob (n spare r : Nat) : Job :=
  { req := 12, purpose := .zeroRow, slice := n, offset := 0, row := r, chunks := [0], words := [], skip := [], phys := some spare }

/-- A row of a spare bank is zeroed; the next row follows, to row 2047 (R299). -/
def Ctl.zeroRow (c : Ctl) (cells : Cells) (j : Job) (pb : Nat) : Ctl × Cells :=
  let c := (c.charge .background 1 1).swapJob j none
  (if j.row < 2047 then c.addJobs [zeroJob j.slice pb (j.row + 1)] else c,
    cells.writeRow j.slice pb j.row (List.replicate 16 0))

/-- A row that a verify of the scrubber finds in error again is hard-failed: it is spared; a spare row not in use is never taken
(R294, R296). -/
def Ctl.verifyFails (c : Ctl) (n pb pr : Nat) : Ctl :=
  let c := c.logRow 6 n pb pr none
  match c.logical n pb pr with
  | some (b, r) => c.hardRow n b r
  | none =>
    if 2048 ≤ pr && (c.spareEntries n pb).length ≤ pr - 2048 && !c.integ.deadEntries.contains (n, pb, pr - 2048) then
      c.modInteg fun i => { i with deadEntries := i.deadEntries ++ [(n, pb, pr - 2048)] }
    else c

/-- What a scrub read of a physical row does (R294): Table 10.2 for words that are lost; the codewords to be written back where some
were corrected. -/
def Ctl.scrubFinds (c : Ctl) (cells : Cells) (n pb pr : Nat) (noise reread : List Codeword) : Ctl × Option (List Codeword) :=
  let here := c.logical n pb pr
  let gone := here.any fun x => c.integ.lost.contains (n, x.1, x.2)
  let r := c.readPhys cells n pb pr gone [] noise reread
  let c := r.1.charge .background 0 r.2.reads
  if !r.2.lost.isEmpty then
    match here with
    | some x => (c.lostRow n x.1 x.2, none)
    | none => (c.verifyFails n pb pr, none)
  else (c, if r.2.fixed = 0 then none else some r.2.words)

/-- A scrub write-back (R294): the latches of the row's slot are invalid (R86). -/
def Ctl.scrubPuts (c : Ctl) (cells : Cells) (n pb pr : Nat) (ws : List Codeword) : Ctl × Cells :=
  let c := c.charge .background 1 1
  (match c.logical n pb pr with
    | some x => c.dropLatches (rowSlot n x.1 x.2)
    | none => c,
    cells.writeRow n pb pr ws)

/-- A scrub verify (R294): errors again make the row hard-failed. -/
def Ctl.scrubChecks (c : Ctl) (cells : Cells) (n pb pr : Nat) (noise : List Codeword) : Ctl :=
  let x := decodeRow (withNoise (cells.readRow n pb pr) noise) []
  let c := (c.charge .background 0 1).count (rCE_COUNT n) x.2.2
  if x.2.1.isEmpty && x.2.2 = 0 then c else c.verifyFails n pb pr

/-- A scrub visit has read its row (R294): a corrected row is to be written back. -/
def Ctl.scrubRead (c : Ctl) (cells : Cells) (j : Job) (pb : Nat) (noise reread : List Codeword) : Ctl :=
  let n := j.slice
  let pr := j.row
  let c := c.swapJob j none
  let c := (c.modSlice n fun s => { s with scrubWait := s.scrubWait.erase (pr, pb) }).scrubDone n (pr, pb)
  let r := c.scrubFinds cells n pb pr noise reread
  match r.2 with
  | some ws => r.1.addJobs [{ j with purpose := .scrubBack, words := ws, raised := false }]
  | none => r.1

/-- A scrub visit writes its row back; the row is then read again (R294). -/
def Ctl.scrubBack (c : Ctl) (cells : Cells) (j : Job) (pb : Nat) : Ctl × Cells :=
  let r := (c.swapJob j none).scrubPuts cells j.slice pb j.row j.words
  (r.1.addJobs [{ j with purpose := .scrubVerify, raised := false }], r.2)

/-- A scrub visit verifies what it has written back (R294). -/
def Ctl.scrubVerify (c : Ctl) (cells : Cells) (j : Job) (pb : Nat) (noise : List Codeword) : Ctl :=
  (c.swapJob j none).scrubChecks cells j.slice pb j.row noise

/-- A whole scrub visit, with nobody else at the bank: read, write-back, verify (R294, R404). -/
def Ctl.scrubWhole (c : Ctl) (cells : Cells) (n pb pr : Nat) (noise reread verify : List Codeword) : Ctl × Cells :=
  let r := c.scrubFinds cells n pb pr noise reread
  match r.2 with
  | some ws =>
    let p := r.1.scrubPuts cells n pb pr ws
    (p.1.scrubChecks p.2 n pb pr verify, p.2)
  | none => (r.1, cells)

end Sys2Proof.Machine
end

