-- ==== Sys2Proof/Machine/Round.lean ====
section
/-!
DEFINITION. What a grant does: bank accesses (R276, R290), windows of the merge buffers (R222), bursts (R236), words at
injection points (R204), the network's mode (R206), and the passes of the network (R188, R202 to R205).
-/
namespace Sys2Proof.Machine

/-! ### Which bank accesses are raised -/

/-- Is a bank access raised? A raised request stays raised until it is granted or withdrawn (R276); a stop holds it (Table 11.3). -/
def Ctl.jobRaised (c : Ctl) (j : Job) : Bool :=
  c.jobReady j || (j.raised && c.issuing)

/-- The physical bank of a chunk of a bank access. -/
def Ctl.jobBank (c : Ctl) (j : Job) (q : Nat) : Nat := j.phys.getD (c.physBank j.slice (chunkBank j.offset q))

/-- The chunk of a bank access that lies in a physical bank. -/
def Ctl.chunkIn (c : Ctl) (pb : Nat) (j : Job) : Option Nat := j.chunks.find? fun q => c.jobBank j q = pb

/-- The oldest bank access that a requester raises at a bank. -/
def Ctl.bankJob (c : Ctl) (n pb k : Nat) : Option Job :=
  c.jobs.find? fun j => j.req = k && j.slice = n && c.jobRaised j && (c.chunkIn pb j).isSome

/-- Who pays for a bank access (R332). -/
def Ctl.jobAccount (c : Ctl) (j : Job) : Account :=
  match j.purpose with
  | .operand n _ => match c.head n with
    | some (a, _) => .desc a.key
    | none => .background
  | .read k _ _ => .desc k
  | .gatherWord k _ _ => .desc k
  | .update k _ _ => .desc k
  | .put (.dest k _) => .desc k
  | .put (.stage k _) => .desc k
  | _ => .background

/-- The tile name of the fragment that an operand or result access moves (R107). -/
def Ctl.jobName (c : Ctl) (j : Job) : Option Nat :=
  match j.purpose with
  | .operand n s => match c.head n with
    | some (_, d) => (d.src? s).map (·.name)
    | none => none
  | .put (.dest k _) => (c.desc? k).bind fun d => d.dRef.map (·.name)
  | _ => none

/-- Raise the collision score of a name (R107). -/
def Ctl.score (c : Ctl) (n : Option Nat) : Ctl :=
  match n with
  | some m => c.modName m fun r => { r with score := min 255 (r.score + 1) }
  | none => c

/-- Stream collisions of a round at a bank (R107): operand and result requesters 0 to 7 that lose to one of them. -/
def Ctl.collide (c : Ctl) (n pb w : Nat) (takers : List Nat) : Ctl :=
  if 8 ≤ w then c
  else c.each (takers.filter fun k => k ≠ w && k < 8) fun c k =>
    let name (x : Nat) := (c.bankJob n pb x).bind c.jobName
    ((c.count (rCOLLIDE n) 1).score (name k)).score (name w)

/-! ### Reading -/

/-- A fragment of a migration has been read: it is written on its slice, or crosses the network (Table 3.3). -/
def Ctl.migFrag (c : Ctl) (n i src : Nat) (ws : List Codeword) : Ctl :=
  match c.migs.find? (·.name = n) with
  | some m =>
    if m.dest.sliceOf i = src then c.addJobs [putJob 11 (.mig n i) m.dest i ws]
    else c.sendFrag 2 src (m.dest.sliceOf i) (.mig n i) ws
  | none => c

/-- A read access is complete. -/
def Ctl.readDone (c : Ctl) (j : Job) : Ctl :=
  let ws := j.words.map cwData
  match j.purpose with
  | .operand n s =>
    if j.slice = n then c.operandArrived n s j.words else c.sendFrag 0 j.slice n (.operand n s) j.words
  | .read k 0 i => c.memFrag k i ws
  | .read k 1 i => c.passFrag k i ws
  | .read k 2 i => c.copyFrag k i j.words
  | .read k 3 i => c.scatterSource k i ws
  | .read k 4 i => c.sideRead k i j.slice j.words
  | .read k 5 i => c.reduceFrag k i ws
  | .read k 6 i => c.maskRead k i ws
  | .read k 8 i => c.stageFrag k i j.skip ws
  | .read k _ i => c.shiftFrag k i ws
  | .gatherWord k x t => c.gatherServed k x t (j.words.getD (t % 128) 0)
  | .migRead n i => c.migFrag n i j.slice j.words
  | _ => c

/-- The end of a reader whose word is lost (Table 10.2). -/
def Ctl.readerLost (c : Ctl) (j : Job) : Ctl :=
  match j.purpose with
  | .operand n _ => match c.head n with
    | some (a, _) => c.finish a.key 0x31 0
    | none => c
  | .read k 0 i => c.memLost k i
  | .read k _ _ => c.finish k 0x31 0
  | .gatherWord k _ _ => c.finish k 0x31 0
  | .update k _ _ => c.finish k 0x31 0
  | _ => c

/-- Put the 16 words of a chunk into a bank access. -/
def Job.fill (j : Job) (q : Nat) (ws : List Codeword) : Job :=
  { j with chunks := j.chunks.erase q, words := j.words.take (16 * q) ++ ws ++ j.words.drop (16 * q + 16) }

/-- A fragment of a migration that cannot be read (R306): it takes all-zero codewords whole, and its name is poisoned. -/
def Ctl.evacLost (c : Ctl) (n i pb pr : Nat) (slice : Nat) : Ctl :=
  let c := (c.poisonName n slice pb pr).logRow 12 slice pb pr (some n)
  c.migFrag n i slice (List.replicate 128 0)

/-- A read of one chunk finds words uncorrectable in place. A migration takes them as zero (Table 10.1), an evacuation its whole
fragment (R306); every other reader ends. -/
def Ctl.readLost (c : Ctl) (j j' : Job) (b : Nat) : Ctl :=
  match j.purpose with
  | .migRead n i =>
    let pb := c.physBank j.slice b
    let pr := c.physRow j.slice pb j.row
    if c.isIn j.slice then
      let c := (c.swapJob j (some j')).lostRow j.slice b j.row
      if j'.chunks.isEmpty && c.jobs.contains j' then (c.swapJob j' none).readDone j' else c
    else
      let c := (c.swapJob j none).lostRow j.slice b j.row
      if c.migrating n then c.evacLost n i pb pr j.slice else c
  | _ => ((c.swapJob j none).lostRow j.slice b j.row).readerLost j

/-- A read of one chunk; each time that the row is read is an event of class 0 (R291, R330). -/
def Ctl.readChunk (c : Ctl) (cells : Cells) (j : Job) (q : Nat) (noise reread : List Codeword) : Ctl :=
  let b := chunkBank j.offset q
  let skip := (j.skip.filter (· / 16 = q)).map (· % 16)
  let r := c.readBank cells j.slice b j.row skip noise reread
  let c := r.1.charge (c.jobAccount j) 0 r.2.reads
  let j' := j.fill q r.2.words
  if !r.2.lost.isEmpty then c.readLost j j' b
  else if j'.chunks.isEmpty then (c.swapJob j none).readDone j'
  else c.swapJob j (some j')

/-! ### Writing -/

/-- A fragment has been written. -/
def Ctl.putDone (c : Ctl) (cy : Carry) : Ctl :=
  match cy with
  | .dest k i =>
    let c := c.modDesc k fun d => { d with done := if d.done.contains i then d.done else d.done ++ [i] }
    match (c.desc? k).map (·.kind) with
    | some 1 => c.tileProgress k
    | some 8 => (c.indexProgress k).aliasProgress k
    | some 5 => c.indexProgress k
    | some 6 => c.indexProgress k
    | some 7 => c.indexProgress k
    | some 10 => c.indexProgress k
    | _ => c.tensorProgress k
  | .mig n i => { c with migs := c.migs.map fun (m : Mig) =>
      if m.name = n && !m.copied.contains i then { m with copied := m.copied ++ [i] } else m }
  | .incoming l i => c.incomingDone l i
  | .stage k _ => c.stageProgress k
  | .side _ _ => c
  | .operand _ _ => c

/-- A write of one chunk of a fragment, or of a slot that is cleared. -/
def Ctl.writeChunk (c : Ctl) (cells : Cells) (j : Job) (q : Nat) : Ctl × Cells :=
  let b := chunkBank j.offset q
  let clear : Bool := match j.purpose with
    | .clear _ => true
    | _ => false
  let c := if clear then c.enterSpare j.slice b j.row else c
  let w := c.writeBank cells j.slice b j.row ((j.words.drop (16 * q)).take 16)
  let c := w.1.charge (c.jobAccount j) 1 1
  let j' := { j with chunks := j.chunks.erase q }
  let c := if j'.chunks.isEmpty then
      match j.purpose with
      | .put cy => (c.swapJob j none).putDone cy
      | _ => c.swapJob j none
    else c.swapJob j (some j')
  (c, w.2)

/-- A word update (R223): read, combine and write one word of a destination. -/
def Ctl.updateWord (c : Ctl) (cells : Cells) (j : Job) (k : Key) (t : Nat) (v : Word) (q : Nat)
    (noise reread : List Codeword) : Ctl × Cells :=
  let b := chunkBank j.offset q
  let l := t % 16
  let r := c.readBank cells j.slice b j.row ((List.range 16).filter (· ≠ l)) noise reread
  let c := r.1.charge (.desc k) 0 (r.2.reads - 1)
  match c.desc? k with
  | none => (c.swapJob j none, cells)
  | some d =>
    if !r.2.lost.isEmpty then (((c.swapJob j none).lostRow j.slice b j.row).readerLost j, cells)
    else
      let pb := c.physBank j.slice b
      let pr := c.physRow j.slice pb j.row
      let new := encodeCw (d.combine t (cwData (r.2.words.getD l 0)) v)
      let raw := cells.readRow j.slice pb pr
      let w := c.writeBank cells j.slice b j.row (raw.set l new)
      let c := (w.1.charge (.desc k) 2 1).count (rACC_APPLIED j.slice) 1
      ((c.swapJob j none).indexProgress k, w.2)

/-- The word of S that a gather request names (R225). -/
def Job.gatherLane (j : Job) : Nat :=
  match j.purpose with
  | .gatherWord _ _ t => t % 128
  | _ => 0

/-- Is it a request of a gather? -/
def Job.isGather (j : Job) : Bool :=
  match j.purpose with
  | .gatherWord _ _ _ => true
  | _ => false

/-- Gather requests for words of one bank row share one access (R225). -/
def Ctl.serveGathers (c : Ctl) (cells : Cells) (j : Job) (js : List Job) (q : Nat) (noise reread : List Codeword) : Ctl :=
  let b := chunkBank j.offset q
  let want := js.map fun x => x.gatherLane % 16
  let r := c.readBank cells j.slice b j.row ((List.range 16).filter fun l => !want.contains l) noise reread
  let c := r.1.charge (c.jobAccount j) 0 r.2.reads
  let c := { c with jobs := c.jobs.filter fun x => !js.contains x }
  let c := if r.2.lost.isEmpty then c else c.lostRow j.slice b j.row
  c.each js fun c x =>
    match x.purpose with
    | .gatherWord k at_ t =>
      if !(c.desc? k).any (·.stage = .run) then c
      else if r.2.lost.contains (t % 16) then c.readerLost x
      else c.gatherServed k at_ t (r.2.words.getD (t % 16) 0)
    | _ => c

/-- The bank access that won a round. -/
def Ctl.bankAccess (c : Ctl) (cells : Cells) (pb : Nat) (j : Job) (noise reread : List Codeword) : Ctl × Cells :=
  match c.chunkIn pb j with
  | none => (c, cells)
  | some q =>
    match j.purpose with
    | .put _ => c.writeChunk cells j q
    | .clear _ => c.writeChunk cells j q
    | .update k t v => c.updateWord cells j k t v q noise reread
    | .gatherWord _ _ _ =>
      let js := c.jobs.filter fun x =>
        x.isGather && x.slice = j.slice && x.row = j.row && c.jobRaised x && (c.chunkIn pb x).isSome
      (c.serveGathers cells j js q noise reread, cells)
    | .copyRead b s => (c.copyRowRead cells j b s noise reread, cells)
    | .copyWrite b s => c.copyRowWrite cells j b s
    | .zeroRow => c.zeroRow cells j pb
    | .scrubRead => (c.scrubRead cells j pb noise reread, cells)
    | .scrubBack => c.scrubBack cells j pb
    | .scrubVerify => (c.scrubVerify cells j pb noise, cells)
    | _ => (c.readChunk cells j q noise reread, cells)

/-! ### The network's other requests -/

/-- The oldest word of a user that waits at an injection point. -/
def Ctl.injectWait (c : Ctl) (line user : Nat) : Option Flit :=
  c.net.flits.find? fun f => !f.injected && f.src = line && f.user = user

/-- Does a word that the injection point has taken still wait to enter: it takes one word per beat (R204)? -/
def Ctl.injected (c : Ctl) (line : Nat) : Bool := c.net.flits.any fun f => f.injected && f.pos.isNone && f.src = line

/-- The word that won an injection point goes into the next addressed pass: an addressed injection beat (R204). -/
def Ctl.inject (c : Ctl) (line user : Nat) : Ctl :=
  match c.injectWait line user with
  | some f => (c.modNet fun x => { x with flits := x.flits.replace f { f with injected := true } }).count rADDR_BEATS 1
  | none => c

/-- Does an addressed user wait, or is a pass of theirs under way? -/
def Ctl.addrWaits (c : Ctl) : Bool := !c.net.flits.isEmpty

/-- Is a pass of the PERMUTE at the head of the queue ready? -/
def Ctl.permWaits (c : Ctl) : Bool := c.permHead.any c.passReady

/-- PASS_GROUP (R206). -/
def Ctl.passGroup (c : Ctl) : Nat := max 1 (min 64 (c.rf rXN_CTL 8 8))

/-- Has the PERMUTE at the head of the queue passes to run, be it that they wait for reads? -/
def Ctl.permRuns (c : Ctl) : Bool := c.permHead.any (·.phase = 1)

/-- May the mode arbiter decide: the hold is over, or its holder has nothing to run (R206)? A PERMUTE that only waits for reads
keeps its hold. -/
def Ctl.modeFree (c : Ctl) : Bool :=
  c.net.passesLeft = 0 || (c.net.mode = 1 && !c.permRuns) || (c.net.mode = 2 && !c.addrWaits)

/-- The mode that won (R206): a change of mode is counted; permutation mode fills the first setting buffer (R202). The first mode
after idle counts as no change (DESIGN CHOICE, log entry 90). -/
def Ctl.grantMode (c : Ctl) (m : Nat) : Ctl :=
  let c := if c.net.mode ≠ 0 && c.net.mode ≠ m then c.count rMODE_SWITCHES 1 else c
  let c := (c.modNet fun x => { x with mode := m, passesLeft := c.passGroup }).startDawn
  match if m = 1 then c.permHead else none with
  | some d => if d.phase = 1 then c.fillSetting d.key d.prog else c
  | none => c

/-! ### ROUND -/

/-- Does a requester of an arbiter raise a request? -/
def Ctl.requests (c : Ctl) (a : ArbId) (k : Nat) : Bool :=
  match a with
  | .bank n pb => (c.bankJob n pb k).isSome
  | .merge n => c.issuing && (c.slotWindow n k).isSome
  | .channel m => !(c.channelWaits m k).isEmpty
  | .inject l => c.issuing && !c.injected l && (c.injectWait l k).isSome
  | .mode => c.modeFree && (if k = 0 then c.permWaits else k = 1 && c.addrWaits)

/-- A burst goes out (R235). A write of the shadow goes nowhere and counts as acknowledged at once (R315). -/
def Ctl.send (c : Ctl) (b : Burst) : Ctl :=
  match b.purpose.key? with
  | some k => if c.shadow && b.isWrite then ((c.issue b).tensorProgress k).fences else c.issue b
  | none => c.issue b

/-- Do what a grant allows. -/
def Ctl.grant (c : Ctl) (cells : Cells) (a : ArbId) (w : Nat) (takers : List Nat) (noise reread : List Codeword) :
    Ctl × Cells :=
  match a with
  | .bank n pb => match c.bankJob n pb w with
    | some j => (c.collide n pb w takers).bankAccess cells pb j noise reread
    | none => (c, cells)
  | .merge n => match c.slotWindow n w with
    | some (d, i) => (c.mergeWindow n d i, cells)
    | none => (c, cells)
  | .channel m => match c.channelWaits m w with
    | b :: _ => (c.send b, cells)
    | [] => (c, cells)
  | .inject l => (c.inject l w, cells)
  | .mode => (c.grantMode (w + 1), cells)

/-- One decision of an arbiter, and what it grants (R276). -/
def Ctl.runRound (c : Ctl) (cells : Cells) (a : ArbId) (takers : List Nat) (noise reread : List Codeword) : Ctl × Cells :=
  let bank : Bool := match a with
    | .bank _ _ => true
    | _ => false
  let d := (c.arb a).decide bank (arbSpan a).1 takers c.arbActive c.arbGen c.det
  (((c.setArb (arbKey a) d.2).converge).raiseJobs).grant cells a d.1 takers noise reread

/-- ROUND (R276): `takers` are the requesters whose requests the round sees. In sequenced mode a round is made only where a
test step has let a grant through (R430). -/
def execRound (arb : ArbId) (takers : List Nat) (noise reread : List Codeword) (s : State) : Res :=
  fullStep (.round arb takers noise reread) s fun c cells =>
    if takers.isEmpty || !takers.all (c.requests arb) || !c.mayGrant then (c, cells)
    else c.useGrant.runRound cells arb takers noise reread

/-! ### PASS -/

/-- The line on which a word stands. -/
def Flit.line (f : Flit) : Nat := (f.pos.map (·.2)).getD f.src

/-- The first word of every output buffer of a stage, of the words that go in the order in which they entered (R203). -/
def bufferHeads (fs : List Flit) (t : Nat) : List Flit :=
  (fs.foldl (fun (a : List Flit × List Nat) f => match f.pos with
    | some (u, l) => if u = t && !a.2.contains l then (a.1 ++ [f], l :: a.2) else a
    | none => a) ([], [])).1

/-- The words that are to enter stage t, lower lines first (R203): at stage m − 1 those of the injection points, which pass the
stages before it straight (R189). -/
def entering (p : Part) (fs : List Flit) (t : Nat) : List Flit :=
  sortBy (fun a b => decide (a.line ≤ b.line))
    (if t + 1 = lineBits p then fs.filter fun f => f.injected && f.pos.isNone else bufferHeads fs (t - 1))

/-- A word leaves an element of stage t on the line that has its destination's bit, unless the buffer of two words there is full
(R203). -/
def enterStage (p : Part) (t : Nat) (fs : List Flit) (f : Flit) : List Flit :=
  let d := stageBit p t
  let l := leaves d (f.line.testBit d != f.dst.testBit d) f.line
  if (fs.filter fun x => x.pos = some (t, l)).length < 2 then fs.erase f ++ [{ f with pos := some (t, l) }] else fs

/-- One beat of the network in addressed mode: every word goes on as far as the buffers let it (R203). -/
def crossStages (p : Part) (fs : List Flit) : List Flit :=
  ((List.range (lineBits p)).map (· + (lineBits p - 1))).foldl (fun fs t => (entering p fs t).foldl (enterStage p t) fs) fs

/-- The words that an addressed pass ejects, one of each line (R204); a vector that is repeated comes again alone (R188). -/
def ejecting (p : Part) (fs : List Flit) : List Flit :=
  let heads := bufferHeads fs (2 * lineBits p - 2)
  if heads.any (·.tried) then heads.filter (·.tried) else heads

/-- Who pays for a word that crosses (R332). -/
def Ctl.flitAccount (c : Ctl) (f : Flit) : Account :=
  match f.what with
  | .frag (.dest k _) _ => .desc k
  | .frag (.side k _) _ => .desc k
  | .frag (.operand n _) _ => match c.head n with
    | some (a, _) => .desc a.key
    | none => .background
  | .frag _ _ => .background
  | .request k _ _ => .desc k
  | .ret k _ => .desc k
  | .addend k _ _ => .desc k
  | .reduce k _ => .desc k

/-- A fragment has come across whole. -/
def Ctl.fragArrived (c : Ctl) (cy : Carry) (ws : List Codeword) : Ctl :=
  match cy with
  | .operand n s => c.operandArrived n s ws
  | .dest k i => match (c.desc? k).bind fun d => d.dst.map fun t => (d.kind, t) with
    | some (kind, t) => c.addJobs [putJob (if kind = 1 then 7 else 10) cy t i ws]
    | none => c
  | .mig n i => match c.migs.find? (·.name = n) with
    | some m => c.addJobs [putJob 11 cy m.dest i ws]
    | none => c
  | .incoming l i => match (c.net.incoming.find? (·.1 = l)).bind fun p => p.2.table with
    | some t => c.addJobs [putJob 9 cy t i ws]
    | none => c
  | .side k i => c.sideHere k i (ws.map cwData)
  | .stage _ _ => c

/-- One word of a fragment arrives at its lane. -/
def Ctl.fragWord (c : Ctl) (cy : Carry) (lane : Nat) (w : Codeword) : Ctl :=
  let old : Tab Codeword := ((c.net.asm.find? fun x => x.what = cy).map (·.words)).getD []
  let a : Tab Codeword := Tab.set old lane w
  let rest := c.net.asm.filter fun x => x.what ≠ cy
  if a.length < 128 then c.modNet fun x => { x with asm := rest ++ [{ what := cy, words := a }] }
  else (c.modNet fun x => { x with asm := rest }).fragArrived cy (a.map (·.2))

/-- Is it a W word of a lent destination? It is stored as the unit drove it (R3, R163). -/
def Ctl.isW (c : Ctl) (f : Flit) : Bool :=
  match f.what with
  | .frag (.dest k _) _ => (c.desc? k).any (·.kind = 1)
  | _ => false

/-- A word arrives at its line. -/
def Ctl.arrive (c : Ctl) (f : Flit) (w : Codeword) : Ctl :=
  match f.what with
  | .frag cy lane => c.fragWord cy lane (if c.isW f then f.word else w)
  | .request k x t => c.gatherRequest k x t
  | .ret k x => c.gatherWord k x (cwData w)
  | .addend k t i => c.addend k t i (cwData w)
  | .reduce k r => c.rowWord k r f.src (cwData w)

/-- A fragment of a migration has a word that is uncorrectable twice at ejection: one that leaves a slice out of service counts as
unreadable (R306); another fails, and its migration is abandoned, and poisons nothing (R303). -/
def Ctl.migLost (c : Ctl) (n i lane : Nat) : Ctl :=
  let x := (c.name n).table.at i
  if c.isIn x.1 then
    { c with migs := c.migs.map fun (m : Mig) => if m.name = n then { m with failed := true } else m }
  else
    let mine (cy : Carry) : Bool := decide (cy = Carry.mig n i)
    let c := c.modNet fun y => { y with
      asm := y.asm.filter (fun a => !mine a.what), flits := y.flits.filter fun f => match f.what with
        | .frag cy _ => !mine cy
        | _ => true }
    let pb := c.physBank x.1 (chunkBank x.2.1 (lane / 16))
    let pr := c.physRow x.1 pb x.2.2
    ((c.poisonName n x.1 pb pr).logRow 12 x.1 pb pr (some n)).fragArrived (.mig n i) (List.replicate 128 0)

/-- A word is uncorrectable twice at ejection: its user ends (R188, R303, R306, R213). -/
def Ctl.flitLost (c : Ctl) (f : Flit) : Ctl :=
  let c := c.netFault (f.dst / 128)
  match f.what with
  | .frag (.mig n i) lane => c.migLost n i lane
  | .frag (.incoming l _) _ => c.resendIncoming l
  | _ => match c.flitAccount f with
    | .desc k => c.finish k 0x31 0
    | .background => c

/-- Slices whose merge buffer holds windows that wait for a wave (R223): one wait is counted per addressed pass. -/
def Ctl.countWaves (c : Ctl) : Ctl :=
  c.each c.services fun c n =>
    if (c.mergeSlots n).any fun d => !(d.windowsOn n).isEmpty && (d.windowsOn n).all fun i => !c.waveOpen d i then c.count (rWAVE_WAIT n) 1 else c

/-- A word comes out of the network. -/
def Ctl.eject (c : Ctl) (f : Flit) (d : Decoded) : Ctl :=
  match d with
  | .uncorrectable => c.flitLost f
  | d => c.arrive f d.codeword

/-- One addressed pass (R188, R203, R204): a beat lost to a full buffer is counted; a vector with an uncorrectable word is
repeated once. -/
def Ctl.addrPass (c : Ctl) (noise : List Codeword) : Ctl :=
  let who := match c.net.flits.find? (·.injected) with
    | some f => c.flitAccount f
    | none => .background
  let c := (c.beat .network who).countWaves
  let c := c.modNet fun x => { x with flits := crossStages c.part x.flits, passesLeft := x.passesLeft - 1 }
  let c := c.count rADDR_STALLS (c.net.flits.filter fun f => f.injected && f.pos.isNone).length
  let vec := ejecting c.part c.net.flits
  let c := c.each vec fun c f => c.charge (c.flitAccount f) 6 1
  let ds := ejected (vec.map (·.word)) noise
  let c := c.bump rXN_ERR 0 16 (correctedIn ds)
  if (vec.zip ds).any fun x => x.2 = .uncorrectable && !x.1.tried then
    c.modNet fun x => { x with flits := x.flits.map fun f => if vec.contains f then { f with tried := true } else f }
  else
    c.each (vec.zip ds) fun c x =>
      if c.net.flits.contains x.1 then
        (c.modNet fun y => { y with flits := y.flits.erase x.1 }).eject x.1 x.2
      else c

/-- PASS (R188): the mode that holds the network runs one pass. -/
def execPass (noise : List Codeword) (s : State) : Res :=
  ctlStep (.pass noise) s fun c =>
    if c.net.passesLeft = 0 || !c.mayBeat .network then c
    else if c.net.mode = 1 then
      match c.permHead with
      | some d => match d.dst with
        | some t => if c.passReady d then c.permPass d t noise else c
        | none => c
      | none => c
    else if c.net.flits.any (·.injected) then c.addrPass noise else c

end Sys2Proof.Machine
end

