-- ==== Sys2Proof/Machine/Admit.lean ====
section
/-!
DEFINITION. Admission: steps 3 to 5 of Table 1.1 for every kind of descriptor (R134 to R141, R177, R178), slot grants
(R98 to R102), restarts (R45), parked descriptors (R145, R247). Services stand in Msq.
-/
namespace Sys2Proof.Machine

/-! ### Step 3 -/

/-- Must a descriptor wait at step 3 for an older one (R139, R140, R147)? -/
def Ctl.waitsFor (c : Ctl) (d e : Desc) : Bool :=
  !c.hasCompleted e &&
    (e.kind = 11 || e.kind = 15 || d.kind = 15 || e.stage = .hold || e.writes.any d.reads.contains)

/-- DEPENDENCY_RELEASE (R139): the oldest descriptor that a ring holds at step 3. -/
def execDependencyRelease (ring : Nat) (s : State) : Res :=
  ctlStep (.dependencyRelease ring) s fun c =>
    match (c.ringDescs ring).find? (·.stage = .hold) with
    | some d =>
      if c.admitting && !((c.ringDescs ring).any fun e => e.key.idx < d.key.idx && c.waitsFor d e) then
        c.modDesc d.key fun d => { d with stage := .check }
      else c
    | none => c

/-! ### Step 4 -/

/-- The tiles that the descriptor resolves as sources; a scatter's own destination is role 2 (R93). -/
def Desc.sources (d : Desc) : List TileRef :=
  (d.tiles.filter (·.role ≠ 9)) ++
    (if d.kind = 6 || d.kind = 7 then (d.tiles.filter (·.role = 9)).map fun t => { t with role := 2 } else [])

/-- Capture what an admitted descriptor samples (R53, R66, R75, R178, R198). The key stream that it takes is given the same
moduli (R266). -/
def Ctl.sampleAt4 (c : Ctl) (k : Key) : Ctl :=
  match c.desc? k with
  | none => c
  | some d =>
    let table := (List.range 64).map fun i => c.reg (rMODQ_ACTIVE i)
    let c := match c.streamOf d with
      | some s => c.modDesc s.key fun s => { s with mods := table }
      | none => c
    c.modDesc k fun d0 => { d0 with
      caps := ((d.reads ++ d.writes).eraseDups).map fun n => (n, (c.name n).inc), mods := table,
      classRec := if d.kind = 1 then (c.classes.find? (·.1 = fld (d.w 1) 8 8)).map (·.2) else none,
      aux := if d.kind = 8 && d.routeKind = 2 then c.sampleProgram d else [] }

/-- A descriptor reaches step 5. -/
def Ctl.reach5 (c : Ctl) (k : Key) : Ctl :=
  { c.modDesc k (fun d => { d with stage := .wait, order := c.nextOrder, started := c.refTicks }) with
    nextOrder := c.nextOrder + 1 }

/-- The end of step 4: the first failure completes the descriptor, otherwise it reaches step 5. -/
def Ctl.admitted (c : Ctl) (d : Desc) (chk : Chk) (f : Ctl → Ctl) : Ctl :=
  match chk with
  | some (st, de) => c.finish d.key st de
  | none => f ((c.sampleAt4 d.key).reach5 d.key)

/-- The descriptor of a ring that stands at step 4. -/
def Ctl.atCheck (c : Ctl) (ring : Nat) : Option Desc := (c.ringDescs ring).find? (·.stage = .check)

/-- A kind command: it acts on the descriptor at step 4 when that is of its kind and admission goes on. -/
def Ctl.admitKind (c : Ctl) (ring kind : Nat) (f : Ctl → Desc → Ctl) : Ctl :=
  match c.atCheck ring with
  | some d => if d.kind = kind && c.admitting && d.viaLink.isNone then f c d else c
  | none => c

/-! ### Step 5 -/

/-- Record a co-read partner, most recent first, three at most (R105). -/
def Ctl.partner (c : Ctl) (n m : Nat) : Ctl :=
  c.modName n fun r => { r with partners := (m :: r.partners.filter (· ≠ m)).take 3 }

/-- Partners of the sources of a TILE_OP (R105). -/
def Ctl.recordPartners (c : Ctl) (d : Desc) : Ctl :=
  let src := (d.sources.map (·.name)).eraseDups
  let all := (src ++ d.writes).eraseDups
  c.each src fun c n => c.each (all.filter (· ≠ n)) fun c m => c.partner n m

/-- Does every source name still stand as captured (R54)? -/
def Ctl.sourcesStand (c : Ctl) (d : Desc) : Bool :=
  d.sources.all fun t => (c.name t.name).live && d.captured t.name = some (c.name t.name).inc

/-- The lowest fold among the descriptor's tiles of a span, its destination's included (R44). -/
def Ctl.lowestFold (c : Ctl) (d : Desc) (span : Nat) : Nat :=
  let fs := ((d.sources.map fun t => (c.name t.name).table).filter (·.span = span)).map (·.fold)
  let fs := if d.tileDst && shSpan d.dShape = span then c.foldFor span :: fs else fs
  fs.foldl min (fs.headD 1)

/-- Sources that must be refolded before the descriptor can go on (R44, R45). -/
def Ctl.mustRefold (c : Ctl) (d : Desc) : List Nat :=
  ((d.sources.map (·.name)).eraseDups).filter fun n =>
    let t := (c.name n).table
    (t.list.any fun s => !c.isIn s) || c.lowestFold d t.span < t.fold

/-- The sources as they resolve now (R91). -/
def Ctl.resolved (c : Ctl) (d : Desc) : List Src :=
  d.sources.map fun t => { role := t.role, name := t.name, table := (c.name t.name).table, flags := (c.name t.name).flags }

/-- Steps 6 and 7 begin. -/
def Ctl.startKind (c : Ctl) (d : Desc) : Ctl :=
  match d.kind with
  | 2 => c.startTensor d.key
  | 3 => c.startTensor d.key
  | 4 => c.startTensor d.key
  | 5 => c.startIndexed d.key
  | 6 => c.startIndexed d.key
  | 7 => c.startIndexed d.key
  | 8 => c.startPermute d.key
  | 9 => if d.isStream then c.startStream d.key else c.startKeyTile d.key
  | 10 => c.startReduce d.key
  | 12 => c.modDesc d.key fun d => { d with stage := .written }
  | _ => c

/-- A descriptor passes step 5 with its sources and its destination resolved; a TILE_OP passes when its port group is
fixed. The slots of an ALLOC stay FREE, promised to it, until its commit maps them (R97). -/
def Ctl.pass5 (c : Ctl) (d : Desc) (t : Option FragTable) : Ctl :=
  let c := match t with
    | some t => c.setSlots t.slots (if d.kind = 12 then .free else .fresh) (.desc d.key)
    | none => c
  let c := c.modDesc d.key fun d => { d with srcs := c.resolved d, dst := t }
  if d.kind = 1 then (c.recordPartners d).startTileOp d.key
  else
    let c := c.phaseRaise d.phaseOf
    (c.modDesc d.key fun d => { d with stage := .run, admitted := true }).startKind d

/-- Can some slot still come back to FREE (R102)? -/
def Ctl.slotsReturn (c : Ctl) : Bool := c.slots.any fun p => p.2.state ∈ [SlotState.fresh, .retired, .clearing]

/-- The prefetches that hold slots (R269), on one of the slices named. -/
def Ctl.slotPrefetches (c : Ctl) (ns : List Nat) : List Desc :=
  c.descs.filter fun d => d.prefetchOpen && d.dst.any fun t => t.list.any ns.contains

/-- Too few FREE slots: prefetches give theirs up (R269); when nothing can return slots, STARVED (R102), but not while slices fill
(R395). -/
def Ctl.noRoom (c : Ctl) (k : Key) : Ctl :=
  let pf := c.slotPrefetches (List.range c.slicesN)
  if !pf.isEmpty then c.each pf fun c d => c.dropPrefetch d.key
  else if !c.fillsOn && !c.slotsReturn then ((c.raise rKS_STATUS 2).count rSTARVED_COUNT 1).finish k 0x40 3
  else c

/-- Enough FREE slots, and no slice list has room: prefetches on the slices that lack it give theirs up (R269), else required
migrations make room (R98). -/
def Ctl.noList (c : Ctl) (name rows span : Nat) : Ctl :=
  let need := c.foldFor span * rows
  let short := (c.roomList name span).filter fun n => c.lacks n need (c.pinOffset name span (c.foldFor span))
  let pf := c.slotPrefetches short
  if !pf.isEmpty then c.each pf fun c d => c.dropPrefetch d.key else c.makeRoom name rows span

/-- The sources in the order in which they give a destination its list (R104 rule 4). A scatter's own destination comes first: each
fragment of it is copied on its slice (R224; log entry 67). -/
def Desc.placeOrder (d : Desc) (ss : List Src) : List Src :=
  if d.kind ∈ [6, 7] then ss.filter (·.role = 2) ++ ss.filter (·.role ≠ 2) else ss

/-- A descriptor at step 5 goes on where it can: names still stand (R54), nothing poisoned (R302), folds equal (R44), slots
and placement there (R98 to R102). A required migration that waits for room takes slots before it, as long as slots can come back
(R101; log entry 84). -/
def Ctl.tryPass5 (c : Ctl) (k : Key) : Ctl :=
  match c.desc? k with
  | none => c
  | some d =>
    if d.need ≠ 0 && c.shortage then c.finish k 0x40 2
    else if !c.sourcesStand d then c.finish k 0x13 0
    else match c.poisonCheck d with
      | some (st, de) => c.finish k st de
      | none =>
        let stale := c.mustRefold d
        if !stale.isEmpty then c.each stale fun c n => c.requireMig n
        else match d.dRef with
          | none => c.pass5 d none
          | some r =>
            if !c.wanted.isEmpty && c.slotsReturn then c
            else if c.freeSlots < d.need then c.noRoom k
            else match c.place r.name (shRows d.dShape) (shSpan d.dShape) (d.placeOrder (c.resolved d)) with
              | some t => c.pass5 d (some t)
              | none => c.noList r.name (shRows d.dShape) (shSpan d.dShape)

/-- Does a descriptor wait at step 5 for slots or for its sources? -/
def Desc.waits5 (d : Desc) : Bool := d.stage = .wait && d.dst.isNone && d.kind ∉ [11, 13, 15]

/-- Is it a TILE_OP held for want of a port of its class (R23)? -/
def Ctl.classHeld (c : Ctl) (d : Desc) : Bool := d.kind = 1 && (c.readyPorts (fld (d.w 1) 8 8)).isEmpty

/-- Does a descriptor wait at step 5 for FRESH slots, or to start again there (R100, R45)? -/
def Desc.wantsSlots (d : Desc) : Bool := d.need ≠ 0 && d.dst.isNone && d.stage ∈ [.wait, .fenced]

/-- The shortage of R100: every descriptor that waits for FRESH slots, and every ALLOC, completes. -/
def Ctl.endShort (c : Ctl) : Ctl :=
  if c.shortage then c.each (c.descs.filter (·.wantsSlots)) fun c d => c.finish d.key 0x40 2 else c

/-- The test of an ALLOC (R98, R100). While slices fill, one that the shortage would end waits untested (R395). -/
def Ctl.allocTest (c : Ctl) (d : Desc) : Ctl :=
  if c.shortage then c.finish d.key 0x40 2
  else if c.fillsOn && c.scarce then c
  else if c.claimed + shapeClaim (d.w 4) + 2048 * c.rf rKS_RESERVE 8 6 ≤ c.capacity then
    c.modDesc d.key fun d => { d with granted := true }
  else (c.raise rKS_STATUS 0).finish d.key 0x40 1

/-- ALLOCs that wait at step 5 untested are tested, in step-5 order (R98, R395). -/
def Ctl.testAllocs (c : Ctl) : Ctl :=
  c.each (sortBy (fun a b => a.order ≤ b.order) (c.descs.filter fun d => d.kind = 12 && d.stage = .wait && !d.granted))
    fun c d => c.allocTest d

/-- FRESH_SLOT_GRANT (R101): required migrations come first, then the oldest descriptor that waits for slots; those that need none
pass it. -/
def execFreshSlotGrant (s : State) : Res :=
  ctlStep .freshSlotGrant s fun c =>
    if !c.issuing then c
    else
      let c := c.tryWanted.endShort.testAllocs
      let ws := sortBy (fun a b => a.order ≤ b.order) (c.descs.filter (·.waits5))
      let c := c.each (ws.filter (·.dRef.isNone)) fun c d => c.tryPass5 d.key
      match ws.find? fun d => d.dRef.isSome && !c.classHeld d && (d.kind ≠ 12 || d.granted) with
      | some d => c.tryPass5 d.key
      | none => c

/-! ### The kinds -/

/-- NOP (R134): completes with OK. -/
def execNop (ring : Nat) (s : State) : Res :=
  ctlStep (.nop ring) s fun c => c.admitKind ring 0 fun c d =>
    c.admitted d (c.formCheck d) fun c => c.finish d.key 0 0

/-- A descriptor that needs slots waits for them; one that needs none goes on at once. -/
def Ctl.enter5 (c : Ctl) (d : Desc) : Ctl := if d.dRef.isNone then c.tryPass5 d.key else c

/-- The streamed KEYSTREAM that a TILE_OP with C_KEY takes (R138). -/
def Ctl.oldestStream (c : Ctl) (d : Desc) : Option Desc :=
  (c.ringDescs d.key.ring).find? fun e => e.isStream && e.key.idx < d.key.idx && e.partner.isNone && !e.completed

/-- A TILE_OP takes its stream at step 4 (R138). -/
def Ctl.takeStream (c : Ctl) (d : Desc) : Ctl :=
  if d.takesKey && d.partner.isNone then
    match c.oldestStream d with
    | some e =>
      (c.modDesc d.key fun d => { d with partner := some e.key.idx }).modDesc e.key fun e => { e with partner := some d.key.idx }
    | none => c
  else c

/-- The stream has the shape and modulus words of its consumer (R261). -/
def Ctl.streamChecks (c : Ctl) (d : Desc) : Chk :=
  match c.streamOf d with
  | some e => firstFail [(e.w 4 = d.w 8, 0x10, 3), (e.w 5 = d.w 9, 0x12, 0)]
  | none => firstFail [(!d.takesKey, 0x10, 1)]

/-- The unit checks that can be made at step 4 (R177, R178). -/
def Ctl.unitCheck (c : Ctl) (d : Desc) : Chk :=
  match c.classes.find? (·.1 = fld (d.w 1) 8 8) with
  | some p => unitChecks p.2 d
  | none => none

/-- Admission of a TILE_OP (R138, R177): the stream is taken before any check. -/
def Ctl.admitTileOp (c : Ctl) (d0 : Desc) : Ctl :=
  let c := c.takeStream d0
  match c.desc? d0.key with
  | none => c
  | some d =>
    let noStream : Bool := d.takesKey && d.partner.isNone
    let chk : Chk := firstFail [(!noStream, 0x10, 1)] <|> c.formCheck d <|> c.streamChecks d <|> c.tileChecks d <|>
      c.unitCheck d <|> c.poisonCheck d
    c.admitted d chk id

/-- TILE_OP (R21): it waits at step 5 for slots and for its port group. -/
def execTileOp (ring : Nat) (s : State) : Res :=
  ctlStep (.tileOp ring) s fun c => c.admitKind ring 1 fun c d => c.admitTileOp d

/-- Admission of a memory kind. -/
def Ctl.admitTensor (c : Ctl) (d : Desc) (more : Chk) : Ctl :=
  c.admitted d (c.formCheck d <|> c.tileChecks d <|> more <|> c.poisonCheck d) fun c => c.enter5 d

/-- LOAD (R249). -/
def execLoad (ring : Nat) (s : State) : Res :=
  ctlStep (.load ring) s fun c => c.admitKind ring 2 fun c d => c.admitTensor d none

/-- STORE (R251). -/
def execStore (ring : Nat) (s : State) : Res :=
  ctlStep (.store ring) s fun c => c.admitKind ring 3 fun c d => c.admitTensor d none

/-- RELAYOUT (R255): with the overlap check (R259). -/
def execRelayout (ring : Nat) (s : State) : Res :=
  ctlStep (.relayout ring) s fun c => c.admitKind ring 4 fun c d => c.admitTensor d (c.overlapCheck d)

/-- KEYSTREAM (R261). -/
def execKeystream (ring : Nat) (s : State) : Res :=
  ctlStep (.keystream ring) s fun c => c.admitKind ring 9 fun c d => c.admitTensor d none

/-- Admission of an indexed move or a reduction (Table 7.1). -/
def Ctl.admitIndexed (c : Ctl) (d : Desc) : Ctl :=
  c.admitted d (c.formCheck d <|> c.tileChecks d <|> d.indexChecks <|> c.poisonCheck d) id

/-- GATHER (R217). -/
def execGather (ring : Nat) (s : State) : Res :=
  ctlStep (.gather ring) s fun c => c.admitKind ring 5 fun c d => c.admitIndexed d

/-- SCATTER (R220). -/
def execScatter (ring : Nat) (s : State) : Res :=
  ctlStep (.scatter ring) s fun c => c.admitKind ring 6 fun c d => c.admitIndexed d

/-- SCATTER_ADD (R221). -/
def execScatterAdd (ring : Nat) (s : State) : Res :=
  ctlStep (.scatterAdd ring) s fun c => c.admitKind ring 7 fun c d => c.admitIndexed d

/-- REDUCE (R231). -/
def execReduce (ring : Nat) (s : State) : Res :=
  ctlStep (.reduce ring) s fun c => c.admitKind ring 10 fun c d => c.admitIndexed d

/-- Does another alias PERMUTE use the link (R424)? -/
def Ctl.linkBusy (c : Ctl) (l : Nat) : Bool :=
  (c.link l).asked || c.descs.any fun d => d.viaLink = some l && !d.completed

/-- Admission of a PERMUTE to an alias (R211): its own checks, then the query to the peer. -/
def Ctl.askAlias (c : Ctl) (d : Desc) (a : Nat) : Ctl :=
  let inst := c.rf (rQUOIN_ALIAS_A a) 16 2
  let l := c.linkTo inst
  let chk : Chk := c.formCheck d <|> c.check12 d (d.tiles.filter (·.role ≠ 9)) <|>
    firstFail [(c.rf (rQUOIN_ALIAS_A a) 24 6 = d.domain, 0x14, 1), (c.linkUp inst && l < 3, 0x22, 2)]
  match chk with
  | some (st, de) => c.finish d.key st de
  | none =>
    if c.linkBusy l then c
    else
      let c := (c.sendLink l 3 0 [word (c.rf (rQUOIN_ALIAS_B a) 0 14)]).modLink l fun k => { k with asked := true }
      (c.sampleAt4 d.key).modDesc d.key fun d => { d with viaLink := some l }

/-- PERMUTE (R191). -/
def execPermute (ring : Nat) (s : State) : Res :=
  ctlStep (.permute ring) s fun c => c.admitKind ring 8 fun c d =>
    match d.dRef.bind fun t => c.quoinEntry t.name with
    | some a => c.askAlias d a
    | none => c.admitted d (c.formCheck d <|> c.tileChecks d <|> c.routeChecks d <|> c.poisonCheck d) id

/-- The peer's record has come (R211): the rest of the checks, against the peer's shape and modulus words. -/
def Ctl.aliasAnswered (c : Ctl) (d : Desc) (w0 w1 w2 : Word) : Ctl :=
  let dom : Nat := match d.dRef.bind fun t => c.quoinEntry t.name with
    | some a => c.rf (rQUOIN_ALIAS_B a) 16 6
    | none => 64
  let recd (t : TileRef) : Option (Word × Word) := if t.role = 9 then some (w1, w2) else c.recorded t
  let chk : Chk := firstFail [(bit w0 31, 0x13, 0), (fld w0 24 6 = dom, 0x14, 1)] <|>
    c.check3 d (fun t => (recd t).map (·.1)) <|> c.check4 d recd <|> c.routeChecks d <|> c.poisonCheck d
  match chk with
  | some (st, de) => c.finish d.key st de
  | none => c.reach5 d.key

/-- ALIAS_ANSWER (R211). -/
def execAliasAnswer (l : Nat) (w0 w1 w2 : Word) (s : State) : Res :=
  ctlStep (.aliasAnswer l w0 w1 w2) s fun c =>
    if !(c.link l).asked then c
    else
      let c := c.modLink l fun k => { k with asked := false }
      match c.descs.find? fun d => d.stage = .check && d.viaLink = some l with
      | some d => c.aliasAnswered d w0 w1 w2
      | none => c

/-- FENCE (R147, R149): it completes at once where it may, else it waits, with its timeout. -/
def execFence (ring : Nat) (s : State) : Res :=
  ctlStep (.fence ring) s fun c => c.admitKind ring 11 fun c d =>
    c.admitted d (c.formCheck d) fun c =>
      let t := (d.w 4).toNat
      ((c.phaseRaise d.phaseOf).modDesc d.key fun d => { d with
        admitted := true, deadline := if t = 0 then none else some (c.after t) }).fences

/-- ALLOC (R98): a granted one waits for its placement. -/
def execAlloc (ring : Nat) (s : State) : Res :=
  ctlStep (.alloc ring) s fun c => c.admitKind ring 12 fun c d =>
    c.admitted d (c.formCheck d <|> c.tileChecks d) fun c => c.testAllocs

/-- FREE (R54): it takes effect at its commit. -/
def execFreeName (ring : Nat) (s : State) : Res :=
  ctlStep (.freeName ring) s fun c => c.admitKind ring 13 fun c d =>
    c.admitted d (c.formCheck d <|> c.tileChecks d) fun c =>
      (c.phaseRaise d.phaseOf).modDesc d.key fun d => { d with stage := .written, admitted := true }

/-- What a PIN does (R115, R116). -/
def Ctl.doPin (c : Ctl) (d : Desc) : Ctl :=
  let n := fld (d.w 2) 0 14
  let mask := d.addr 4
  let r := c.name n
  let p : Pin := { mask := mask, offset := none, broken := false }
  if !bit (c.reg rKS_CTL_ACT) 0 then (c.raise rKS_STATUS 3).finish d.key 0x40 4
  else if bit (d.w 1) 8 then (c.modName n fun r => { r with pin := none }).finish d.key 0 0
  else if (c.pinList p (r.table.span / c.foldFor r.table.span)).isNone then c.finish d.key 0x10 4
  else (c.applyPin n mask (if bit (d.w 1) 9 then some (fld (d.w 1) 10 5) else none)).finish d.key 0 0

/-- PIN (R116). -/
def execPin (ring : Nat) (s : State) : Res :=
  ctlStep (.pin ring) s fun c => c.admitKind ring 14 fun c d =>
    c.admitted d (c.formCheck d <|> c.check12 d d.tiles) fun c => c.doPin d

/-! ### Restarts (R45) -/

/-- RESTART (R45): every tile it reads or writes lies wholly on in-service slices again; it waits at step 5. Once service is lost
none does: one that reads completes with POISON (R307, R302). -/
def execRestart (ring idx : Nat) (s : State) : Res :=
  ctlStep (.restart ring idx) s fun c =>
    match c.descs.find? fun d => d.key.ring = ring && d.key.idx = idx && d.stage = .fenced with
    | some d =>
      let back : Bool := (d.reads ++ d.writes).all fun n =>
        !(c.name n).live || (c.name n).table.list.all fun s => c.isIn s
      if back && !c.inService.isEmpty then
        (c.modDesc d.key fun d => { d with stage := .wait }).count rRESTARTS 1
      else if c.serviceLost then
        match c.poisonCheck d with
        | some (st, de) => c.finish d.key st de
        | none => c
      else c
    | none => c

/-! ### Parked descriptors (R145, R247) -/

/-- The parked descriptor of an entry. -/
def Ctl.parkedAt (c : Ctl) (ring entry : Nat) : Option Desc :=
  (c.ringDescs ring).find? fun d => d.stage = .parked && d.key.idx % c.ringSize ring = entry

/-- RESUME_ERR (Table 4.26). -/
def Ctl.resumeErr (c : Ctl) (ring : Nat) : Ctl := c.raise (rRING_STATUS ring) 17

/-- Has a fence taken what a parked descriptor had resolved? -/
def Desc.mustRestart (d : Desc) : Bool := (d.tileDst && d.dst.isNone) || (d.tileSrc && d.srcs.isEmpty)

/-- RESUME of a parked descriptor (R145, R247). -/
def Ctl.resume (c : Ctl) (ring entry : Nat) : Ctl :=
  match c.parkedAt ring entry with
  | some d =>
    if d.mustRestart then c.modDesc d.key fun d => { d with stage := .fenced, status := 0, detail := 0 }
    else
      let c := c.modDesc d.key fun d => { d with stage := .run, status := 0, detail := 0 }
      if d.isStream then c.pumpPorts else c.startTensor d.key
  | none => c.resumeErr ring

/-- ABANDON of a parked descriptor (R145). -/
def Ctl.abandon (c : Ctl) (ring entry : Nat) : Ctl :=
  match c.parkedAt ring entry with
  | some d => c.finish d.key 0x40 6
  | none => c.resumeErr ring

/-- One action of RING_RESUME. -/
def Ctl.resumeNow (c : Ctl) (ring entry : Nat) (abandon : Bool) : Ctl :=
  if abandon then c.abandon ring entry else c.resume ring entry

/-- A write of RING_RESUME (R145): with WAKE_ON_WORK it wakes the block from Evening; otherwise its action waits there until
the wake (R401). -/
def Ctl.resumeAction (c : Ctl) (ring entry : Nat) (abandon : Bool) : Ctl :=
  let c := c.wakeOnWork
  if c.pstate ∈ [2, 5] && (c.parkedAt ring entry).isSome then { c with resumes := c.resumes ++ [(ring, entry, abandon)] }
  else c.resumeNow ring entry abandon

/-- The actions that waited, once the block is ACTIVE again. -/
def Ctl.replayResumes (c : Ctl) : Ctl :=
  let rs := c.resumes
  ({ c with resumes := [] } : Ctl).each rs fun c r => c.resumeNow r.1 r.2.1 r.2.2

/-- A write of RING_RESUME (Table 4.26): ACTION 1 RESUME, 2 ABANDON; 0 and 3 change nothing. -/
def Ctl.writeResume (c : Ctl) (ring : Nat) (d : Word) : Ctl :=
  if fld d 16 2 ∈ [1, 2] then c.resumeAction ring (fld d 0 16) (fld d 16 2 = 2) else c

/-- RING_RESUME with RESUME (R145). -/
def execRingResume (ring entry : Nat) (id : Byte) (s : State) : Res :=
  ctlStep (.ringResume ring entry id) s fun c =>
    c.access id (rRING_RESUME ring) true fun c => { c.resumeAction ring entry false with regRdata := 0 }

/-- RING_RESUME with ABANDON (R145). -/
def execRingAbandon (ring entry : Nat) (id : Byte) (s : State) : Res :=
  ctlStep (.ringAbandon ring entry id) s fun c =>
    c.access id (rRING_RESUME ring) true fun c => { c.resumeAction ring entry true with regRdata := 0 }

end Sys2Proof.Machine
end

