-- ==== Sys2Proof/Machine/Pair.lean ====
section
/-!
DEFINITION. The redundant pair (R314 to R321): forming it, comparing, halting, retrying, going on alone.
-/
namespace Sys2Proof.Machine

/-! ### Forming a pair (Table 10.5) -/

/-- PAIR_ERR with a cause. -/
def Ctl.pairErr (c : Ctl) (cause : Nat) : Ctl := (c.raise rPAIR_STATUS 0).setRf rPAIR_STATUS 8 3 cause

/-- The selected contract (Table 1.20). -/
def Ctl.contract (c : Ctl) : Nat := c.rf rCONTRACT_SEL 0 16

/-- Step 2 of Table 10.5, once the peer's words are there. -/
def Ctl.checkPair (c : Ctl) : Ctl :=
  match (c.link c.pairLink).pair with
  | none => c
  | some (w0, w1) =>
    if !bit (c.reg rPAIR_CTL) 0 || bit (c.reg rPAIR_STATUS) 31 || c.linksGated then c
    else if bit w0 0 = bit (c.reg rPAIR_CTL) 1 then c.pairErr 3
    else if c.slicesN ≠ 0x40 || fld w0 8 7 ≠ 0x40 then c.pairErr 4
    else if fld w1 0 16 ≠ c.contract then c.pairErr 5
    else c.raise rPAIR_STATUS 31

/-- A write of PAIR_CTL (R314). -/
def Ctl.writePairCtl (c : Ctl) (d : Word) : Ctl :=
  if bit (c.reg rPAIR_STATUS) 31 then c
  else if bit (c.reg rCONTRACT_SEL) 16 then c.pairErr 1
  else if c.joined then c.pairErr 2
  else
    let c := c.setReg rPAIR_CTL (d &&& 0x333)
    if bit d 0 && c.pairLink < 3 then
      (c.sendLink c.pairLink 2 0 [word ((bit d 1).toNat + c.slicesN * 2 ^ 8), word c.contract]).checkPair
    else c

/-- PAIR_CTL_WRITE (R314). -/
def execPairCtlWrite (id : Byte) (data : Word) (s : State) : Res :=
  ctlStep (.pairCtlWrite id data) s fun c =>
    c.access id rPAIR_CTL true fun c => { c.writePairCtl data with regRdata := 0 }

/-- PAIR_WORD (R314, Table 14.4). A gated link takes no word (Table 13.5). -/
def execPairWord (link : Nat) (w0 w1 : Word) (s : State) : Res :=
  ctlStep (.pairWord link w0 w1) s fun c =>
    if c.linksGated then c
    else
      let c := c.modLink link fun k => { k with alive := true, pair := some (w0, w1) }
      if link = c.pairLink then c.checkPair else c

/-- The links are no longer gated: the words that wait go out, and a join or a pair asked for meanwhile goes on (Table 13.5, R402). -/
def Ctl.ungateLinks (c : Ctl) : Ctl :=
  let ls := (List.range 3).filter fun l => !(c.link l).owed.isEmpty
  if ls.isEmpty then c
  else
    let c := c.each ls fun c l =>
      let ws := (c.link l).owed
      (c.modLink l fun k => { k with owed := [] }).each ws fun c w => c.sendLink l w.1 w.2.1 w.2.2
    (if c.joining then c.checkJoin else c).checkPair

/-! ### Comparing (R317, R318) -/

/-- Is a descriptor of the ring behind: fetched here before, and gone? -/
def Ctl.gone (c : Ctl) (ring idx : Nat) : Bool := (c.desc? { ring := ring, idx := idx, sub := 0 }).isNone && idx < (c.ring ring).nextIdx

/-- SIGNATURE (R317): a row signature or that of a commit. A halted instance compares nothing (R319); of a descriptor that has
completed here by a reconciled outcome nothing is compared (R318). -/
def execSignature (link : Nat) (w0 w1 w2 w3 w4 : Word) (s : State) : Res :=
  ctlStep (.signature link w0 w1 w2 w3 w4) s fun c =>
    let ring := fld w0 0 6
    let idx := w1.toNat + 2 ^ 32 * w2.toNat
    if !c.paired || link ≠ c.pairLink || c.halted || c.gone ring idx then c
    else
      let row : Option Nat := if bit w0 31 then some (fld w0 16 10) else none
      let g := { c.sigFor ring idx row with peer := some (BitVec.ofNat 64 (w3.toNat + 2 ^ 32 * w4.toNat)) }
      let c := c.putSig g
      if row.isSome then
        let c := c.compareRow g
        match c.rowOwner ring idx with
        | some k => c.tensorProgress k
        | none => c
      else c.compareCommit ring idx

/-- The peer's outcome of a descriptor (R318). Which of two was met first the instances cannot tell: a final status goes before a park,
the lead's final status before the shadow's, and of two parks the lower cursor holds (log entry 46). -/
def Ctl.takeOutcome (c : Ctl) (d : Desc) (status detail cursor : Nat) : Ctl :=
  if d.completed then
    if status ≠ 0x20 && c.shadow && c.outcomeWaits d.key.ring d.key.idx then
      c.modDesc d.key fun d => { d with status := status, detail := detail }
    else c
  else if status = 0x20 && d.stage = .parked then
    if cursor < d.cursor then (c.discardFrom d.key cursor).modDesc d.key fun d => { d with cursor := cursor } else c
  else c.meetOutcome d.key status detail cursor

/-- OUTCOME (R318): one of a descriptor that has not been fetched here yet is kept for it. -/
def execOutcome (link : Nat) (w0 w1 w2 w3 : Word) (s : State) : Res :=
  ctlStep (.outcome link w0 w1 w2 w3) s fun c =>
    if !c.paired || link ≠ c.pairLink then c
    else
      let ring := fld w3 0 6
      let idx := w1.toNat + 2 ^ 32 * w2.toNat
      let o : Outcome := { ring := ring, idx := idx, status := fld w0 0 8, detail := fld w0 8 8, cursor := fld w0 16 11 }
      match c.desc? { ring := ring, idx := idx, sub := 0 } with
      | some d => (c.takeOutcome d o.status o.detail o.cursor).dropSig ring idx
      | none => if c.gone ring idx then c.dropSig ring idx else { c with outcomes := c.outcomes ++ [o] }

/-! ### Halting (R319, R321) -/

/-- HALT (R319): the peer has halted. -/
def execHalt (link : Nat) (w0 : Word) (s : State) : Res :=
  ctlStep (.halt link w0) s fun c => if c.paired && link = c.pairLink then c.haltPair (fld w0 0 3) else c

/-- PEER_SILENT (R321): an own signature or outcome has waited PAIR_TICKS for the peer's. -/
def execPeerSilent (s : State) : Res :=
  ctlStep .peerSilent s fun c =>
    if c.paired && !c.halted && c.pstate ≠ 4 && c.sigs.any (fun g => g.peer.isNone && c.due g.deadline) then
      (c.haltPair 2).sendLink c.pairLink 12 0 [2]
    else c

/-! ### PAIR_CMD (R320) -/

/-- Is a descriptor held at its comparison: of a commit, of a final status, or of a row? -/
def Desc.atComparison (d : Desc) : Bool :=
  d.stage = .written || (d.stage = .peer && d.sigWait) || (d.stage = .run && d.memDst && d.rowsReleased < d.prog)

/-- Where a held descriptor runs again from: one that ended in its checks, or that has nothing past them, from there; a FREE from its
commit; every other from step 5. -/
def Desc.rerunFrom (d : Desc) : Stage :=
  if d.kind = 13 && !d.proposed then .written
  else if d.mods.isEmpty || d.kind ∈ [0, 13, 14, 15] then .check
  else .wait

/-- Send a held descriptor back (R320): its FRESH slots enter CLEARING and it runs again; a FENCE has its timeout again. -/
def Ctl.rerun (c : Ctl) (d : Desc) : Ctl :=
  let c := if d.kind = 13 then c else c.abandonFenced d.key
  let t := (d.w 4).toNat
  c.modDesc d.key fun e => { e with
    stage := d.rerunFrom, restarted := d.restarted, sigWait := false, proposed := false, status := 0, detail := 0, prog := 0,
    rowsReleased := 0, deadline := if d.kind = 11 && t ≠ 0 then some (c.after t) else none }

/-- Discard the held work and clear HALTED (R320). -/
def Ctl.unhalt (c : Ctl) : Ctl :=
  let held := sortBy (fun a b => a.order ≤ b.order) (c.descs.filter fun d => d.key.sub = 0 && d.atComparison)
  let c := c.each held fun c d => c.rerun d
  ({ (c.lower rPAIR_STATUS 30).setRf rPAIR_STATUS 16 3 0 with sigs := [] } : Ctl).fences

/-- A write of PAIR_CMD (R320). -/
def Ctl.writePairCmd (c : Ctl) (d : Word) : Ctl :=
  if !c.paired || !c.halted then c
  else match fld d 0 2 with
    | 1 => c.unhalt.count rPAIR_RETRIES 1
    | 2 => (c.raise rPAIR_STATUS 1).unhalt
    | _ => c

/-- PAIR_RETRY (R320). -/
def execPairRetry (id : Byte) (s : State) : Res :=
  ctlStep (.pairRetry id) s fun c => c.access id rPAIR_CMD true fun c => { c.writePairCmd 1 with regRdata := 0 }

/-- PAIR_SOLO (R320). -/
def execPairSolo (id : Byte) (s : State) : Res :=
  ctlStep (.pairSolo id) s fun c => c.access id rPAIR_CMD true fun c => { c.writePairCmd 2 with regRdata := 0 }

end Sys2Proof.Machine
end

