-- ==== Sys2Proof/Machine/Cool.lean ====
section
/-!
DEFINITION. The coolant stop (R356, Table 11.3) and its end.
-/
namespace Sys2Proof.Machine

/-- Is the boundary register in control of the boundary: WS_EXTEST or WS_INTEST_RING (Table 14.5)? -/
def Ctl.inTest (c : Ctl) : Bool := c.wir ∈ [1, 2]

/-- The coolant input's level (Table 14.8). -/
def Ctl.coolant (c : Ctl) : Bool := bit (c.reg rBND_STATUS) 0

/-- The hold of COOL_HOLD_TICKS begins while the coolant input is high (Table 11.3 step 5). -/
def Ctl.startHold (c : Ctl) : Ctl :=
  if c.coolant && !c.inTest then
    c.modPower fun p => { p with coolDeadline := some (c.after (c.ticksOf rCOOL_CTL 16 16)) }
  else c

/-- Every admitted descriptor that has not committed completes with COOLANT_STOP, the service that runs among them unless its last
effect has taken place (R372), and every key prefetch is dropped (Table 11.3 step 3). -/
def Ctl.stopWork (c : Ctl) : Ctl :=
  let c := c.svcStop 0x41 0
  let c := c.each (c.descs.filter (·.prefetched)) fun c d => c.dropPrefetch d.key
  let go := c.descs.filter fun d => d.stage ∉ [.hold, .check] && !d.completed && !d.committed
  (c.each go fun c d => c.fix d.key 0x41 0).fences

/-- Steps 1 to 4 of Table 11.3: a ramp is abandoned, the window spoiled (Table 11.4). -/
def Ctl.coolStop (c : Ctl) : Ctl :=
  let c : Ctl := { c with buckets := [] }
  let c := c.becomeQuiet
  let c := c.modPower fun p => { p with
    quiet := false, gate := 0, stopped := true, coolDeadline := none, vwait := none, margin := false, marginEnd := none, win := { p.win with spoiled := true } }
  let c := ((c.lower rPWR_EVT 4).raise rPWR_EVT 3).count rCOOL_STOPS 1
  let c := c.stopWork
  (c.putVreq c.voltageNow).startHold

/-- The coolant input falls (R356): during the hold it only restarts the hold; after COOL_OK the sequence starts again. -/
def Ctl.coolFall (c : Ctl) : Ctl :=
  if !c.coolant then c
  else
    let c := c.lower rBND_STATUS 0
    if c.resetting then c
    else if c.power.stopped && !bit (c.reg rPWR_EVT) 4 then c.modPower fun p => { p with coolDeadline := none }
    else c.coolStop

/-- COOLANT_FALL (R356). -/
def execCoolantFall (s : State) : Res := resetStep .coolantFall s (·.coolFall)

/-- The coolant input rises (Table 11.3 step 5). -/
def Ctl.coolRise (c : Ctl) : Ctl :=
  if c.coolant then c
  else
    let c := c.raise rBND_STATUS 0
    if c.power.stopped && !c.resetting then c.startHold else c

/-- COOLANT_RISE (R356). -/
def execCoolantRise (s : State) : Res := resetStep .coolantRise s (·.coolRise)

/-- COOL_OK (Table 11.3 step 5): the hold's timeout stands still in Night (R30). -/
def execCoolOk (s : State) : Res :=
  ctlStep .coolOk s fun c =>
    match c.power.coolDeadline with
    | some d => if c.power.stopped && c.coolant && c.due d && c.pstate ≠ 4 then c.raise rPWR_EVT 4 else c
    | none => c

/-- RESUME (Table 11.3 step 6). -/
def Ctl.coolResume (c : Ctl) : Ctl :=
  if c.power.stopped && bit (c.reg rPWR_EVT) 4 && !c.inTest then
    ((c.modPower fun p => { p with stopped := false, coolDeadline := none }).lower rPWR_EVT 4).becomeQuiet
  else c.raise rPWR_EVT 5

/-- A write of COOL_CTL (Table 11.8). -/
def Ctl.writeCoolCtl (c : Ctl) (d : Word) : Ctl :=
  let c := c.setReg rCOOL_CTL (d &&& 0xFFFF0000)
  if bit d 0 then c.coolResume else c

/-- COOL_RESUME (R356). -/
def execCoolResume (id : Byte) (s : State) : Res :=
  ctlStep (.coolResume id) s fun c => c.access id rCOOL_CTL true fun c => { c.coolResume with regRdata := 0 }

end Sys2Proof.Machine
end

