-- ==== Sys2Proof/Machine/Generation.lean ====
section
/-!
DEFINITION. Staged settings and generation commits (R99, R120, R269, R285, R312, R339, R407 to R411).
-/
namespace Sys2Proof.Machine

/-! ### Deterministic placement (R312) -/

/-- While deterministic mode is in force and DET_SETTLED is clear: names away from their seeded placement move there by
required migration, and with none left DET_SETTLED sets (R312). -/
def Ctl.settle (c : Ctl) : Ctl :=
  if !c.det || bit (c.reg rINT_STATUS) 16 then c
  else
    let away := ((c.names.filter fun p => p.2.live).map (·.1)).filter c.astray
    if away.isEmpty then c.raise rINT_STATUS 16 else c.each away fun c n => c.requireMig n

/-! ### The parts of a commit -/

/-- Registers copied from a pending to an active copy. -/
def Ctl.activate (c : Ctl) (ps : List (Nat × Nat)) : Ctl := c.each ps fun c p => c.setReg p.2 (c.reg p.1)

/-- The modulus table: prefetches of streams that name a changed entry are dropped (R269). -/
def Ctl.activateModuli (c : Ctl) : Ctl :=
  let changed := (List.range 64).filter fun i => c.reg (rMODQ_TABLE i) ≠ c.reg (rMODQ_ACTIVE i)
  let c := c.activate ((List.range 64).map fun i => (rMODQ_TABLE i, rMODQ_ACTIVE i))
  let hit := c.descs.filter fun d => d.prefetched && (List.range (shRows (d.w 4))).any fun i => changed.contains (modEntry (d.w 5) i)
  c.each hit fun c d => c.dropPrefetch d.key

/-- Does the pending reserve V pass: K ≤ C − 2048·V (R99)? -/
def Ctl.reserveOk (c : Ctl) : Bool := c.claimed + 2048 * c.rf rKS_RESERVE 0 6 ≤ c.capacity

/-- The rename reserve (R99). -/
def Ctl.activateReserve (c : Ctl) : Ctl :=
  if c.reserveOk then c.setRf rKS_RESERVE 8 6 (c.rf rKS_RESERVE 0 6)
  else (c.raise rKS_STATUS 1).raise rGEN_STATUS 0

/-- Arbitration (R285): ARB_CONVERGED clears where an active setting changes. -/
def Ctl.activateArb (c : Ctl) : Ctl :=
  match boundFails c.arbPending with
  | some i => ((c.raise rARB_STATUS 0).setRf rARB_STATUS 8 5 i).raise rGEN_STATUS 1
  | none =>
    let old := c.arbActive
    let c := c.activate ((rARB_CTL, rARB_CTL_ACT) :: (List.range 7).map fun i => (rARB_WEIGHT i, rARB_WEIGHT_ACT i))
    if c.arbActive = old then c else c.lower rARB_STATUS 16

/-- The energy model (R339): DIV_RUN 0, RECAL_REQ clear, MODE model, every k_p not learned; the open window is not
compared (Table 11.4). -/
def Ctl.activateEnergy (c : Ctl) : Ctl :=
  let c := c.activate (((List.range 10).map fun k => (rEC k, rEC_ACT k)) ++
    [(rSTATIC_NJ, rSTATIC_NJ_ACT), (rTICK_CAL, rTICK_CAL_ACT), (rKINIT, rKINIT_ACT)])
  let c := ((c.setRf rCTRL_STATUS 24 4 0).lower rCTRL_STATUS 30).lower rCTRL_STATUS 31
  let c := c.zeroRegs ((List.range 16).map rPHASE_K)
  c.modPower fun p => { p with win := { p.win with recoef := true } }

/-- Deterministic mode is entered: every arbiter's pointer becomes 0 at its next round (R287). -/
def Ctl.enterDet (c : Ctl) : Ctl :=
  { c with arbs := c.arbs.map fun (p : Nat × Arb) => (p.1, { p.2 with det := false }) }

/-- Integrity control and the seed (R312): DET_SETTLED clears when DET becomes 0 or 1, or the seed changes under DET. -/
def Ctl.activateInt (c : Ctl) : Ctl :=
  let det := c.det
  let seed := c.rf rKS_SEED 16 16
  let c := (c.activate [(rINT_CTL, rINT_CTL_ACT)]).setRf rKS_SEED 16 16 (c.rf rKS_SEED 0 16)
  let c := if !det && c.det then c.enterDet else c
  if det ≠ c.det || (c.det && seed ≠ c.rf rKS_SEED 16 16) then (c.lower rINT_STATUS 16).settle else c

/-- The block-wide arbiters stand in the table from the commit on, so that CONVERGED waits for them (R410). -/
def Ctl.keepBlockArbs (c : Ctl) : Ctl :=
  c.each (((List.range c.part.channels).map ArbId.channel) ++ [.mode]) fun c a => c.setArb (arbKey a) (c.arb a)

/-- A generation commit (R408). -/
def Ctl.commitGen (c : Ctl) : Ctl :=
  let c := c.keepBlockArbs
  let c := c.setReg rGEN_STATUS (setFld (c.reg rGEN_STATUS &&& 0x200) 16 16 ((c.rf rGEN_STATUS 16 16 + 1) % 2 ^ 16))
  let c := { c.zeroRegs [rGEN_CONV_LO, rGEN_CONV_HI] with arbGen := c.arbGen + 1 }
  let c := (c.activateModuli.activate [(rKS_CTL, rKS_CTL_ACT)]).activateReserve
  c.activateArb.activateEnergy.activateInt

/-- CONVERGED (R410). -/
def Ctl.converged (c : Ctl) : Bool := bit (c.reg rGEN_STATUS) 8

/-- GO of GEN_COMMIT (R408, R411). -/
def Ctl.go (c : Ctl) : Ctl := if c.converged then c.commitGen else c.raise rGEN_STATUS 9

/-- A commit that the MSQ requests (R411). -/
def Ctl.requestCommit (c : Ctl) : Ctl := if c.converged then c.commitGen else { c with deferredCommit := true }

/-- GEN_COMMIT (R408). -/
def execGenCommit (id : Byte) (s : State) : Res :=
  ctlStep (.genCommit id) s fun c => c.access id rGEN_COMMIT true fun c => { c.go with regRdata := 0 }

/-- DEFERRED_GENERATION_COMMIT (R411). -/
def execDeferredGenerationCommit (s : State) : Res :=
  ctlStep .deferredGenerationCommit s fun c => if c.deferredCommit && c.converged then { c with deferredCommit := false }.commitGen else c

end Sys2Proof.Machine
end

