-- ==== Sys2Proof/Machine/Msq.lean ====
section
/-!
DEFINITION. The management sequencer: service order (R369), its watchdog (R370), and the services of Table 12.3 with the
loading of signed images (R379 to R385). Each service command takes the running service as far as it can go.
-/
namespace Sys2Proof.Machine

/-- Change the running service. -/
def Ctl.modSvc (c : Ctl) (f : Svc → Svc) : Ctl := c.modMsq fun q => { q with svc := q.svc.map f }

/-! ### States (Table 12.2) -/

/-- The firmware starts from its entry point: RUNNING, with its watchdog armed (R370, R382). -/
def Ctl.firmwareRuns (c : Ctl) : Ctl :=
  (c.raise rREADY 6).modMsq fun q => { q with state := 2, watchdog := some (c.after (c.ticksOf rMSQ_CTL 16 16)) }

/-- The MSQ leaves RUNNING: a firmware service ends with FW_HALT, words to it are withdrawn (R365, R370). -/
def Ctl.firmwareStops (c : Ctl) (state : Nat) : Ctl :=
  let c := if c.svcFirmware then c.svcStop 0x61 0x21 else c
  (c.modMsq fun q => { q with state := state, watchdog := none }).mbSettle

/-- WATCHDOG (R370). -/
def execWatchdog (s : State) : Res :=
  ctlStep .watchdog s fun c =>
    match c.msq.watchdog with
    | some d => if c.msq.state = 2 && c.due d && c.pstate ≠ 4 then c.firmwareStops 3 else c
    | none => c

/-- RESTART of MSQ_CTL (R370). -/
def Ctl.restartMsq (c : Ctl) : Ctl := if c.msq.state = 3 then c.firmwareRuns else c

/-- A touch of the watchdog from now on gives it WD_TICKS (R370): the earliest expiry, which a smaller WD_TICKS brings nearer. When
the firmware touches is its own; an expiry any time after is the command WATCHDOG (log entry 39). -/
def Ctl.touch (c : Ctl) : Ctl :=
  c.modMsq fun q => { q with watchdog := q.watchdog.map fun d => min d (c.after (c.ticksOf rMSQ_CTL 16 16)) }

/-- A write of MSQ_CTL (Table 12.12). -/
def Ctl.writeMsqCtl (c : Ctl) (d : Word) : Ctl :=
  let c := (c.setReg rMSQ_CTL (d &&& 0xFFFF0100)).touch
  if bit d 0 then c.restartMsq else c

/-- MSQ_RESTART (R370): RESTART, the fields as they stand. -/
def execMsqRestart (id : Byte) (s : State) : Res :=
  ctlStep (.msqRestart id) s fun c =>
    c.access id rMSQ_CTL true fun c => { c.writeMsqCtl (c.reg rMSQ_CTL ||| 1) with regRdata := 0 }

/-- SVC_CNT_CLEAR (Table 12.19). -/
def Ctl.clearSvcCounters (c : Ctl) : Ctl := c.zeroRegs [rSVC_DONE, rSVC_FAIL]

/-- SVC_CNT_CLEAR (R369). -/
def execSvcCntClear (id : Byte) (s : State) : Res :=
  ctlStep (.svcCntClear id) s fun c =>
    c.access id rSVC_CNT_CLEAR true fun c => { c.clearSvcCounters with regRdata := 0 }

/-! ### Starting services (R369) -/

/-- Does AUTO_RECAL ask for the next run (R378)? -/
def Ctl.autoDue (c : Ctl) : Bool := c.msq.recalPending && bit (c.reg rMSQ_CTL) 8 && c.msq.state = 2 && c.msq.svc.isNone

/-- A service that begins. -/
def Svc.start (key : Option Key) (number count : Nat) : Svc :=
  { key := key, number := number, phase := 0, bytes := [], count := count, tries := [], failed := none, samples := [],
    periods := 0, base := none, broken := false, rows := 0, sum := 0 }

/-- The items or windows of a service (Table 12.3). -/
def Desc.svcCount (d : Desc) : Nat :=
  match fld (d.w 1) 8 8 with
  | 4 => fld (d.w 4) 0 11
  | 6 => if fld (d.w 5) 0 5 = 0 then 16 else fld (d.w 5) 0 5
  | _ => 0

/-- The service that is next: the SERVICE longest at step 5. -/
def Ctl.nextService (c : Ctl) : Option Desc :=
  (c.descs.filter fun d => d.kind = 15 && d.stage = .wait).foldl (fun (b : Option Desc) d => match b with
    | some e => if d.order < e.order then some d else b
    | none => some d) none

/-- Start a service: it passes step 5; a firmware service with no firmware running completes at once (R371). -/
def Ctl.startService (c : Ctl) (d : Desc) : Ctl :=
  let n := fld (d.w 1) 8 8
  let c := (c.phaseRaise d.phaseOf).modDesc d.key fun d => { d with stage := .run, admitted := true }
  let c := c.modMsq fun q => { q with svc := some (Svc.start (some d.key) n d.svcCount) }
  if 3 ≤ n && c.msq.state ≠ 2 then c.svcEnd 0x61 0x01 else c

/-- The next service starts when none runs; a due run of AUTO_RECAL comes first (R369, R378). -/
def Ctl.startNext (c : Ctl) : Ctl :=
  if c.msq.svc.isSome || c.autoDue || c.msq.state = 0 || !c.issuing then c
  else match c.nextService with
    | some d => c.startService d
    | none => c

/-- SERVICE_START (R369): the ring's SERVICE at step 4 is admitted, and the next in order starts when none runs. -/
def execServiceStart (ring : Nat) (s : State) : Res :=
  ctlStep (.serviceStart ring) s fun c =>
    (c.admitKind ring 15 fun c d => c.admitted d (c.formCheck d) id).startNext

/-- The descriptor of the running service when it has the number asked for and goes on. A failed read of IMAGE_LOAD has detail READ
(R380). -/
def Ctl.service (c : Ctl) (n : Nat) (f : Ctl → Svc → Desc → Ctl) : Ctl :=
  match c.msq.svc with
  | some s =>
    if s.number ≠ n then c
    else match s.key.bind c.desc? with
      | some d => match s.failed with
        | some (st, de) => c.svcEnd st (if n = 1 && st = 0x31 then accessDetail 0 else de)
        | none => if c.svcBusy then c else f c s d
      | none => c
  | none => c

/-! ### Reading memory -/

/-- The bursts that read a region; a part is 2^20 regions and a line. -/
def svcReads (domain region : Nat) (va : Addr) (len : Nat) : List Burst :=
  (List.range ((va.toNat % 64 + len + 63) / 64)).map fun p =>
    newBurst (.svcRd (region * 2 ^ 20 + p)) 1 0 domain (BitVec.ofNat 64 ((va.toNat / 64 + p) * 64)) []

/-- Byte i of a region that starts at va. -/
def Svc.byte (s : Svc) (region : Nat) (va : Addr) (i : Nat) : Byte :=
  Tab.get 0 s.bytes (region * 2 ^ 26 + va.toNat % 64 + i)

/-- The bytes of a region. -/
def Svc.region (s : Svc) (region : Nat) (va : Addr) (len : Nat) : List Byte := (List.range len).map (s.byte region va)

/-- The words of item i of a region of 64-byte items. -/
def Svc.item (s : Svc) (region : Nat) (va : Addr) (i : Nat) : List Word :=
  bytesWords ((List.range 64).map fun j => s.byte region va (64 * i + j))

/-- A line read for the service has come: its bytes, and whether the payload stays contiguous (Table 12.5 step 3). -/
def Ctl.svcLine (c : Ctl) (part : Nat) (pa : Addr) (bs : List Byte) : Ctl :=
  c.modSvc fun s =>
    let at_ := part / 2 ^ 20 * 2 ^ 26 + part % 2 ^ 20 * 64
    let s := { s with bytes := bs.zipIdx.foldl (fun (b : Tab Byte) p => b.set (at_ + p.2) p.1) s.bytes }
    if part / 2 ^ 20 = 1 then
      let base := (pa - BitVec.ofNat 64 (part % 2 ^ 20 * 64)).toNat
      { s with base := s.base <|> some base, broken := s.broken || s.base.any (· ≠ base) }
    else s

/-- Ask for regions and go to a phase. -/
def Ctl.svcAsk (c : Ctl) (phase : Nat) (bs : List Burst) : Ctl := (c.modSvc fun s => { s with phase := phase }).request bs

/-! ### IMAGE_LOAD (R379 to R383) -/

/-- Payload bytes that a type may have (Table 12.4). -/
def payloadMax (ty : Nat) : Nat := if ty = 1 then 2 ^ 18 else if ty = 2 then 0x1001000 else 2 ^ 16

/-- Are the bytes of an envelope from a to b zero? -/
def zeroBytes (e : List Byte) (a b : Nat) : Bool := ((e.drop a).take (b - a)).all (· = 0)

/-- PAYLOAD_LEN of an envelope. -/
def envLen (e : List Byte) : Nat := leNat ((e.drop 12).take 4)

/-- Step 1 of Table 12.5: Table 12.4, LEN and TYPE. -/
def envelopeOk (e : List Byte) (ty len : Nat) : Bool :=
  leNat (e.take 4) = 0x5A494D47 && leNat ((e.drop 4).take 2) = 1 && leNat ((e.drop 6).take 1) = ty && 1 ≤ ty && ty ≤ 3 &&
    zeroBytes e 7 8 && zeroBytes e 16 64 && zeroBytes e 161 192 && zeroBytes e 288 320 &&
    leNat ((e.drop 64).take 1) = 4 && envLen e % 64 = 0 && envLen e ≤ payloadMax ty && len = 320 + envLen e

/-- KEY_HASH[t], word w. -/
def rKeyHash (t w : Nat) : Nat := if t = 1 then rKEY_HASH1 w else if t = 2 then rKEY_HASH2 w else rKEY_HASH3 w

/-- Step 2 of Table 12.5: the sub-code with which it fails. -/
def Ctl.anchorFails (c : Ctl) (e : List Byte) (ty : Nat) : Option Nat :=
  let hash := (List.range 12).flatMap fun w => wordBytes (c.reg (rKeyHash ty w))
  if !bit (c.reg rTRUST_STATUS) (ty - 1) || !bit (c.reg rTRUST_STATUS) (4 + (ty - 1)) then some 3
  else if sha384 ((e.drop 64).take 97) ≠ hash then some 4
  else if leNat ((e.drop 8).take 4) < (c.reg (rMIN_SVN (ty - 1))).toNat then some 5
  else none

/-- Six beats of 64 bits, most significant first (R421). -/
def pkeValue (bs : List Byte) : List (BitVec 64) := (chunksOf 8 6 bs).map fun b => BitVec.ofNat 64 (beNat b)

/-- The 31 beats of a PKE request (R381, R421). -/
def pkeRequest (env payload : List Byte) : List (BitVec 64) :=
  1 :: (pkeValue (sha384 (env.take 192 ++ payload)) ++
    [65, 113, 192, 240].flatMap fun a => pkeValue ((env.drop a).take 48))

/-- Envelope and payload of the running load. -/
def Svc.image (s : Svc) (d : Desc) : List Byte × List Byte :=
  let e := s.region 0 (d.addr 2) 320
  (e, s.region 1 (d.addr 2) (envLen e))

/-- Send the request that waits once none is outstanding (R380, R381). -/
def Ctl.sendPke (c : Ctl) : Ctl :=
  match c.msq.svc with
  | some s =>
    if s.number = 1 && s.phase = 3 && c.msq.pkeDeadline.isNone && c.msq.pkeOwed.isNone then
      match s.key.bind c.desc? with
      | some d =>
        let c := c.modSvc fun s => { s with phase := 4 }
        (c.modMsq fun q => { q with pkeDeadline := some (c.after 16384) }).emit (.pke (pkeRequest (s.image d).1 (s.image d).2))
      | none => c
    else c
  | none => c

/-- Does the load wait for the engine's answer? -/
def Ctl.asksPke (c : Ctl) : Option (Svc × Desc) :=
  match c.msq.svc with
  | some s => if s.number = 1 && s.phase = 4 then (s.key.bind c.desc?).map fun d => (s, d) else none
  | none => none

/-- The programs of a route-library payload (Table 6.3), with their CRCs. -/
def payloadPrograms (p : List Byte) : List Program :=
  let ws := bytesWords p
  (List.range (fld (ws.getD 1 0) 0 7)).map fun i =>
    let off := (ws.getD (2 + 2 * i) 0).toNat
    let w := ws.getD (3 + 2 * i) 0
    { offset := off, log2n := fld w 16 5, negate := bit w 30, crc := crc64 ((p.drop off).take (4 * 2 ^ fld w 16 5)) }

/-- The directory check of step 5 (R383). -/
def directoryOk (p : List Byte) : Bool :=
  let ws := bytesWords p
  let ps := payloadPrograms p
  ws.getD 0 0 = 1 && 1 ≤ ps.length && ps.length ≤ 64 &&
    ps.all fun g => g.offset % 64 = 0 && g.log2n ≤ 16 && g.offset + 4 * 2 ^ g.log2n ≤ p.length

/-- Increment a GENERATION field at bits 23 to 16. -/
def Ctl.bumpGen (c : Ctl) (off : Nat) : Ctl := c.setRf off 16 8 ((c.rf off 16 8 + 1) % 256)

/-- Step 6 of Table 12.5: activation (R382). -/
def Ctl.activateImage (c : Ctl) (s : Svc) (d : Desc) : Ctl :=
  let p := (s.image d).2
  let slot := fld (d.w 5) 0 4
  match fld (d.w 5) 4 4 with
  | 1 =>
    let c := (((c.bumpGen rFW_INFO).raise rFW_INFO 31).setRf rFW_INFO 0 12 (openQuot p.length 1024))
    (c.modMsq fun q => { q with firmware := p }).firmwareRuns
  | 2 =>
    let ps := payloadPrograms p
    let base := s.base.getD 0
    let c := (((c.bumpGen (rLIB_INFO slot)).raise (rLIB_INFO slot) 31).setRf (rLIB_INFO slot) 0 7 ps.length)
    (c.setReg64 (rLIB_BASE_LO slot) (rLIB_BASE_HI slot) base).modNet fun n => { n with libs := n.libs.set slot ps }
  | _ =>
    let c := (((c.bumpGen rPOLICY_INFO).raise rPOLICY_INFO 31).setRf rPOLICY_INFO 0 12
      ((bytesWords p).getD 1 0).toNat)
    c.modMsq fun q => { q with policy := p }

/-- The engine's answer to the running load (R381, Table 12.5 steps 5, 6). -/
def Ctl.pkeAnswer (c : Ctl) (s : Svc) (d : Desc) (code : Nat) : Ctl :=
  match code with
  | 0 =>
    if fld (d.w 5) 4 4 = 2 && !directoryOk (s.image d).2 then c.svcEnd 0x61 6
    else (c.activateImage s d).svcEnd 0 0
  | 1 => c.svcEnd 0x61 0x10
  | 2 => c.svcEnd 0x61 0x11
  | 3 => c.svcEnd 0x61 0x12
  | _ => c.svcEnd 0x61 0x14

/-- Steps 1 to 3 of Table 12.5 as far as they go: `phase` 0 begins, 1 the envelope is there, 2 the payload is read. -/
def Ctl.imageLoad (c : Ctl) (s : Svc) (d : Desc) : Ctl :=
  let ty := fld (d.w 5) 4 4
  let a := d.addr 2
  match s.phase with
  | 0 => if a.toNat % 64 ≠ 0 then c.svcEnd 0x11 0 else c.svcAsk 1 (svcReads d.domain 0 a 320)
  | 1 =>
    let e := s.region 0 a 320
    if !envelopeOk e ty (d.w 4).toNat then c.svcEnd 0x61 2
    else match c.anchorFails e ty with
      | some sub => c.svcEnd 0x61 sub
      | none => c.svcAsk 2 (svcReads d.domain 1 (a + 320) (envLen e))
  | _ => c

/-- IMAGE_LOAD (R380). -/
def execImageLoad (s : State) : Res := ctlStep .imageLoad s fun c => c.service 1 fun c s d => c.imageLoad s d

/-- The signed message is hashed: contiguity for a library, then the request (Table 12.5 steps 3, 4). -/
def Ctl.hashDone (c : Ctl) (s : Svc) (d : Desc) : Ctl :=
  if s.phase ≠ 2 then c
  else if fld (d.w 5) 4 4 = 2 && s.broken then c.svcEnd 0x61 6
  else (c.modSvc fun s => { s with phase := 3 }).sendPke

/-- IMAGE_HASH_DONE (R380). -/
def execImageHashDone (s : State) : Res := ctlStep .imageHashDone s fun c => c.service 1 fun c s d => c.hashDone s d

/-- PKE_OUTCOME (R381, R421): an answer to a run that has ended, or after PKE_TIMEOUT, is discarded; the latter sets
PKE_LATE. -/
def execPkeOutcome (code : Nat) (s : State) : Res :=
  ctlStep (.pkeOutcome code) s fun c =>
    if c.msq.pkeOwed.isSome then ((c.modMsq fun q => { q with pkeOwed := none }).raise rBND_STATUS 18).readyUp.sendPke
    else if c.msq.pkeDeadline.isSome then
      let c' := c.modMsq fun q => { q with pkeDeadline := none }
      match c.asksPke with
      | some (s, d) => c'.pkeAnswer s d code
      | none => c'.readyUp.sendPke
    else c

/-- PKE_TIMEOUT (R380, R381). -/
def execPkeTimeout (s : State) : Res :=
  ctlStep .pkeTimeout s fun c =>
    match c.msq.pkeDeadline with
    | some t =>
      if !c.due t || c.pstate = 4 then c
      else
        let c' := c.modMsq fun q => { q with pkeDeadline := none, pkeOwed := some (c.after 16384) }
        if c.asksPke.isSome then c'.svcEnd 0x61 0x13 else c'
    | none => c

/-- PKE_FURTHER_WAIT_END (R381). -/
def execPkeFurtherWaitEnd (s : State) : Res :=
  ctlStep .pkeFurtherWaitEnd s fun c =>
    match c.msq.pkeOwed with
    | some t => if c.due t && c.pstate ≠ 4 then (c.modMsq fun q => { q with pkeOwed := none }).readyUp.sendPke else c
    | none => c

/-! ### IMAGE_DROP (R385) -/

/-- Drop the content of a type and slot. With a library go its programs, and PROGRAMS reads 0: the spec says that VALID clears and
that the content is removed (DESIGN CHOICE, log entry 40). -/
def Ctl.dropImage (c : Ctl) (ty slot : Nat) : Ctl :=
  let off := if ty = 1 then rFW_INFO else if ty = 2 then rLIB_INFO slot else rPOLICY_INFO
  if !bit (c.reg off) 31 then c
  else
    let c := (c.bumpGen off).lower off 31
    match ty with
    | 1 => ((c.setRf off 0 12 0).modMsq fun q => { q with firmware := [] }).firmwareStops 1
    | 2 => (c.setRf off 0 7 0).modNet fun n => { n with libs := n.libs.del slot }
    | _ => (c.setRf off 0 12 0).modMsq fun q => { q with policy := [] }

/-- IMAGE_DROP (R385). -/
def execImageDrop (s : State) : Res :=
  ctlStep .imageDrop s fun c => c.service 2 fun c _ d => (c.dropImage (fld (d.w 5) 4 4) (fld (d.w 5) 0 4)).svcEnd 0 0

/-! ### KEY_SCHEDULE (R373, R374) -/

/-- Is a template entry a TILE_OP with C_KEY? -/
def consumerWords (ws : List Word) : Bool := fld (ws.getD 0 0) 0 4 = 1 && bit (ws.getD 3 0) 15

/-- Image j as written: PREFETCH set as R374 says. -/
def keyImage (ws : List Word) (j ahead : Nat) : List Word :=
  let w := ws.getD 1 0
  let pf : Bool := !bit w 9 && 0 < j && 0 < ahead
  ws.set 1 (if pf then w ||| 0x400 else w &&& ~~~0x400)

/-- The template from `next` on, each consumer followed by the next stream (R374). -/
def weave (images : List (List Word)) (ahead next : Nat) : List (List Word) → List (List Word)
  | [] => []
  | e :: es =>
    if consumerWords e && next < images.length then
      e :: keyImage (images.getD next []) next ahead :: weave images ahead (next + 1) es
    else e :: weave images ahead next es

/-- The entries that KEY_SCHEDULE writes (R374). -/
def scheduleOf (images template : List (List Word)) (ahead : Nat) : List (List Word) :=
  ((List.range (min (ahead + 1) images.length)).map fun j => keyImage (images.getD j []) j ahead) ++
    weave images ahead (ahead + 1) template

/-- The checks of R373, in order. -/
def Ctl.scheduleChecks (c : Ctl) (d : Desc) (images template : List (List Word)) : Chk :=
  let t := fld (d.w 5) 0 6
  let start := (d.addr 9).toNat
  let n := images.length + template.length
  firstFail [
    (images.all fun ws => fld (ws.getD 0 0) 0 4 = 9 && !bit (ws.getD 1 0) 8, 0x10, 1),
    ((template.filter consumerWords).length = images.length && n ≤ 2047, 0x10, 3),
    (c.ringDomain t = d.domain && c.piSeen t ≤ start && start + n ≤ (c.ring t).ri + c.ringSize t, 0x10, 1)]

/-- The ring writes of one entry: one line, or two where the ring's base is not aligned. -/
def Ctl.entryWrites (c : Ctl) (d : Desc) (t idx i : Nat) (ws : List Word) : List Burst :=
  let a := c.descAddr t idx
  let off := a.toNat % 64
  let bs := (ws.flatMap wordBytes).map some
  let line (h : Nat) (data : List (Option Byte)) : Burst :=
    newBurst (.svcWr (2 * i + h)) 0 4 d.domain (BitVec.ofNat 64 ((a.toNat / 64 + h) * 64)) data
  line 0 (List.replicate off none ++ bs.take (64 - off)) ::
    (if off = 0 then [] else [line 1 (bs.drop (64 - off) ++ List.replicate (64 - off) none)])

/-- KEY_SCHEDULE as far as it goes: `phase` 1 the header is there, 2 images and template, 3 the entries are written. -/
def Ctl.keySchedule (c : Ctl) (s : Svc) (d : Desc) : Ctl :=
  let dir := d.addr 2 + BitVec.ofNat 64 (64 * fld (d.w 4) 0 12)
  let hd := s.item 0 dir 0
  let streams := (hd.getD 0 0).toNat
  let va : Addr := BitVec.ofNat 64 ((hd.getD 2 0).toNat + 2 ^ 32 * (hd.getD 3 0).toNat)
  let tc := fld (d.w 8) 0 11
  match s.phase with
  | 0 => c.svcAsk 1 (svcReads d.domain 0 dir 64)
  | 1 =>
    if streams = 0 || 1023 < streams then c.svcEnd 0x10 3
    else c.svcAsk 2 (svcReads d.domain 1 va (64 * streams) ++ svcReads d.domain 2 (d.addr 6) (64 * tc))
  | 2 =>
    let images := (List.range streams).map (s.item 1 va)
    let template := (List.range tc).map (s.item 2 (d.addr 6))
    match c.scheduleChecks d images template with
    | some (st, de) => c.svcEnd st de
    | none =>
      let out := scheduleOf images template (fld (d.w 5) 8 3)
      let t := fld (d.w 5) 0 6
      (c.modSvc fun s => { s with rows := out.length }).svcAsk 3
        (out.zipIdx.flatMap fun p => c.entryWrites d t ((d.addr 9).toNat + p.2) p.2 p.1)
  | _ => c.svcEnd 0 0

/-- KEY_SCHEDULE (R373, R374). -/
def execKeySchedule (s : State) : Res := ctlStep .keySchedule s fun c => c.service 3 fun c s d => c.keySchedule s d

/-! ### RELAYOUT_BULK (R375) -/

/-- Image i as a descriptor of the SERVICE's ring, domain and phase. -/
def bulkImage (d : Desc) (i : Nat) (ws : List Word) : Desc :=
  let w0 := word (d.phaseOf * 16 + fld (ws.getD 0 0) 0 4)
  let w1 := ws.getD 1 0 &&& 0xFFFFFF00
  { Desc.fetched { d.key with sub := i + 1 } d.domain ((ws.set 0 w0).set 1 w1) with stage := .check }

/-- Admit an image with every check of its kind. -/
def Ctl.admitImage (c : Ctl) (e : Desc) : Ctl :=
  let c := { c with descs := c.descs ++ [e] }
  let chk : Chk := firstFail [(e.kind = 4, 0x10, 1)] <|> c.formCheck e <|> c.tileChecks e <|> c.overlapCheck e <|>
    c.poisonCheck e
  c.admitted e chk fun c => c.enter5 e

/-- RELAYOUT_BULK as far as it goes: `phase` 1 the list is there; `rows` images have completed. -/
def Ctl.relayoutBulk (c : Ctl) (s : Svc) (d : Desc) : Ctl :=
  let a := d.addr 2
  let next (c : Ctl) (i : Nat) : Ctl :=
    if s.count ≤ i then c.svcEnd 0 0 else c.admitImage (bulkImage d i (s.item 0 a i))
  if s.phase = 0 then c.svcAsk 1 (svcReads d.domain 0 a (64 * s.count))
  else match c.images.head? with
    | none => next c s.rows
    | some e =>
      if !c.hasCompleted e then c
      else
        let c := c.svcCollect
        if e.status ≤ 2 then next c ((c.msq.svc.map (·.rows)).getD 0) else c.svcEnd e.status e.detail

/-- RELAYOUT_BULK (R375). -/
def execRelayoutBulk (s : State) : Res := ctlStep .relayoutBulk s fun c => c.service 4 fun c s d => c.relayoutBulk s d

/-! ### DEFRAG (R376) -/

/-- Begin, or begin again, the required migration of a name: `tries` is the name, its attempts, its commits and its first
slot, then the names passed over while compacting. -/
def Ctl.defragMove (c : Ctl) (n attempt : Nat) (t : Option FragTable) (passed : List Nat) : Ctl :=
  let r := c.name n
  let c := match t with
    | some t => c.startMig n t true
    | none => c
  c.modSvc fun s => { s with tries := n :: attempt :: r.commits :: r.table.slots.headD 0 :: passed }

/-- Where DEFRAG moves a name: one that it visits to where Keystone places it, one it compacts to the emptiest slices, or in
deterministic mode to its seeded place (R119). -/
def Ctl.defragPlace (c : Ctl) (n phase : Nat) : Option FragTable :=
  if phase = 0 || c.det then c.place n (c.name n).table.rows (c.name n).table.span [] else c.placeEmptiest n

/-- The next name to move, or the end. A name that has no placement is passed over; while compacting, another that can move is
taken (log entry 84). -/
def Ctl.defragNext (c : Ctl) (s : Svc) (d : Desc) : Ctl :=
  let passed := s.tries.drop 4
  if s.phase = 0 then
    match c.defragVisit s.count with
    | some n =>
      if c.migrating n then c.modSvc fun s => { s with count := n }
      else
        let c := c.modSvc fun s => { s with count := n + 1 }
        match c.defragPlace n 0 with
        | some t => c.defragMove n 1 (some t) passed
        | none => c
    | none => if bit (d.w 5) 0 then c.modSvc fun s => { s with phase := 1 } else c.svcEnd 0 0
  else match c.compactMove passed with
    | some (n, t) => c.defragMove n 1 (some t) passed
    | none => c.svcEnd 0 0

/-- DEFRAG as far as it goes: a migration under way is waited for, one abandoned is retried once, then passed over. -/
def Ctl.defrag (c : Ctl) (d : Desc) : Ctl :=
  let c := c.svcCollect
  match c.msq.svc with
  | none => c
  | some s => match s.tries with
    | n :: attempt :: _ :: _ :: passed =>
      if attempt = 0 then c.defragNext s d
      else if c.migrating n then c
      else
        let again := if attempt = 1 && (c.name n).live then c.defragPlace n s.phase else none
        if again.isSome then c.defragMove n 2 again passed
        else c.modSvc fun s => { s with tries := 0 :: 0 :: 0 :: 0 :: n :: passed }
    | _ => c.defragNext s d

/-- DEFRAG (R376). -/
def execDefrag (s : State) : Res := ctlStep .defrag s fun c => c.service 5 fun c _ d => c.defrag d

/-! ### RECALIBRATE (R377, R378) -/

/-- Sum of products over the windows. -/
def sumOf (l : List (Int × Int × Int)) (f : Int × Int × Int → Int) : Int := (l.map f).sum

/-- σ and τ as numerators over one denominator (R377). -/
def fitOf (l : List (Int × Int × Int)) : Int × Int × Int :=
  let xx := sumOf l fun p => p.1 * p.1
  let xz := sumOf l fun p => p.1 * p.2.1
  let zz := sumOf l fun p => p.2.1 * p.2.1
  let xm := sumOf l fun p => p.1 * p.2.2
  let zm := sumOf l fun p => p.2.1 * p.2.2
  let det := xx * zz - xz * xz
  if det = 0 then
    let f := Config.degenerateFit [xx, xz, zz, xm, zm]
    (f.1, f.2, 1024)
  else (xm * zz - zm * xz, zm * xx - xm * xz, det)

/-- Is x spread widely enough: max − min at least a fifth of max (R377)? -/
def spreadOk (l : List (Int × Int × Int)) : Bool :=
  let xs := l.map (·.1)
  let hi := xs.foldl max (xs.headD 0)
  let lo := xs.foldl min (xs.headD 0)
  hi ≤ 5 * (hi - lo)

/-- Does a ratio lie within 0.5 to 2.0? -/
def ratioOk (num den : Int) : Bool := den ≤ 2 * num && num ≤ 2 * den

/-- A ratio in units of 1/1024 for a 12-bit field. -/
def ratioField (num den : Int) : Nat := min 4095 (openQuot (1024 * num).toNat den.toNat)

/-- round(v × num / den), halves up. -/
def scaleRound (v : Nat) (num den : Int) : Nat := ((2 * v * num + den) / (2 * den)).toNat

/-- Write the pending coefficients of an accepted fit (R377). -/
def Ctl.applyFit (c : Ctl) (f : Int × Int × Int) : Ctl :=
  let c := c.each (List.range 10) fun c k => c.setReg (rEC k) (word (max 1 (min 0xFFFF (scaleRound (c.rf (rEC_ACT k) 0 16) f.1 f.2.2))))
  let v := scaleRound (c.rf rSTATIC_NJ_ACT 0 16) f.2.1 f.2.2
  c.setReg rSTATIC_NJ (if v < 2 ^ 16 then word v else (Config.staticOver v).setWidth 32)

/-- RESULT of RECAL_STATUS (Table 12.16). -/
def Ctl.recalResult (c : Ctl) (r : Nat) : Ctl := c.setRf rRECAL_STATUS 28 4 r

/-- The windows are there: spread, fit, range, and the coefficients with a commit asked for (R377). -/
def Ctl.recalFit (c : Ctl) (l : List (Int × Int × Int)) : Ctl :=
  let c := c.modSvc fun s => { s with rows := l.length }
  if !spreadOk l then (c.recalResult 2).svcEnd 0 0
  else
    let f := fitOf l
    let c := (c.setRf rRECAL_STATUS 16 12 (ratioField f.2.1 f.2.2)).setRf rRECAL_STATUS 0 12 (ratioField f.1 f.2.2)
    if !ratioOk f.1 f.2.2 || !ratioOk f.2.1 f.2.2 then (c.recalResult 3).svcEnd 0 0
    else (((c.recalResult 1).applyFit f).modSvc fun s => { s with phase := 2 }).requestCommit

/-- RECALIBRATE as far as it goes: `phase` 1 collects, 2 waits for the commit it asked for. -/
def Ctl.recalStep (c : Ctl) : Ctl :=
  match c.msq.svc with
  | some s =>
    if s.number ≠ 6 then c
    else match s.phase with
      | 0 => c.modSvc fun s => { s with phase := 1 }
      | 1 => if s.count ≤ s.samples.length then c.recalFit s.samples else c
      | _ => if c.deferredCommit then c else c.svcEnd 0 0
  | none => c

/-- RECALIBRATE (R377). -/
def execRecalibrate (s : State) : Res := ctlStep .recalibrate s (·.recalStep)

/-- RECAL_NO_MEAS (R377). -/
def execRecalNoMeas (s : State) : Res :=
  ctlStep .recalNoMeas s fun c =>
    match c.msq.svc with
    | some s =>
      if s.number = 6 && s.phase = 1 && s.samples.length < s.count && 4 * s.count ≤ s.periods then
        (c.recalResult 4).svcEnd 0 0
      else c
    | none => c

/-- AUTO_RECAL (R378). -/
def execAutoRecal (s : State) : Res :=
  ctlStep .autoRecal s fun c =>
    if c.autoDue then c.modMsq fun q => { q with svc := some { Svc.start none 6 16 with phase := 1 } } else c

end Sys2Proof.Machine
end

