-- ==== Sys2Proof/Machine/Power.lean ====
section
/-!
DEFINITION. Power and pace: operating points and the voltage request (R326, R327, R426), ramps (R340 to R345), the
control period with learning, target and divergence (R333 to R338), the ageing trim (R353).
-/
namespace Sys2Proof.Machine

/-! ### Outputs of the activity (R329) -/

/-- What the block shows the die of its activity: the ramp-gate level, RAMPING, COOL_STOPPED (R329). RAMPING is high from the
start of a ramp until its end. -/
def Ctl.activityOut (c : Ctl) : Nat × Bool × Bool := (c.power.gate, decide (c.power.ramp ≠ .none), c.power.stopped)

/-! ### Ramps -/

/-- g reaches 16 and the ramp is over: a margin in force has 4 more ticks (R342, R343). -/
def Ctl.fullGate (c : Ctl) : Ctl :=
  let d := c.after 4
  c.modPower fun p => { p with
    gate := 16, ramp := .none, marginEnd := if p.margin && p.marginEnd.isNone then some d else p.marginEnd }

/-- T changes (R342): at most one step, or while quiet or stopped, at once; a larger rise ramps from ⌊16·E_old/T⌋; a
larger fall keeps E_old until a dusk has reached ⌊16·T/E_old⌋. -/
def Ctl.applyTarget (c : Ctl) (t limit : Nat) : Ctl :=
  let c := c.modPower fun p => { p with target := t, limit := limit }
  let e := c.power.pace
  let dusk : Bool := match c.power.ramp with
    | .dusk _ _ => true
    | _ => false
  if c.power.quiet || c.power.stopped then c.modPower fun p => { p with pace := t }
  else if t < e && (dusk || 75 < e - t) then
    c.modPower fun p => { p with ramp := .dusk (max 1 (16 * t / e)) t, stepAt := if dusk then p.stepAt else p.mon }
  else if e < t && 75 < t - e then
    (c.modPower fun p => { p with pace := t, gate := max 1 (16 * e / t), ramp := .dawn, stepAt := p.mon }).startMargin
  else if dusk then (c.modPower fun p => { p with pace := t }).fullGate
  else c.modPower fun p => { p with pace := t }

/-- At a tick: a dusk that has reached its level ends, P becomes T and g 16 (R342). A dusk before Evening stays at its
level (Table 13.6 step 3). -/
def Ctl.duskEnd (c : Ctl) : Ctl :=
  match c.power.ramp with
  | .dusk floor t =>
    if c.power.gate ≤ floor && c.pstate = 0 then (c.modPower fun p => { p with pace := t }).fullGate else c
  | _ => c

/-! ### The measurement window -/

/-- Energy in 1/64 pJ that is 1 mW over a window: 64 × 256 × TICK_CAL (R334). -/
def Ctl.mw (c : Ctl) : Nat := 64 * 256 * c.coef1 rTICK_CAL_ACT

/-- The slope k_p in 1/16 mW per unit of pace, KINIT until learned (R335). -/
def Ctl.slope (c : Ctl) (p : Nat) : Nat :=
  if bit (c.reg (rPHASE_K p)) 31 then c.rf (rPHASE_K p) 0 16 else c.coef1 rKINIT_ACT

/-- Was M formed (R334)? -/
def Window.formed (w : Window) : Bool := 128 ≤ w.measN

/-- M in 1/16 mW: CAPM units are 1/8 W (R334). -/
def Window.m (w : Window) : Nat := openQuot (2000 * w.measSum) w.measN

/-- P_static in 1/16 mW. -/
def Ctl.pStatic (c : Ctl) (w : Window) : Nat := openQuot (16 * w.static) c.mw

/-- The phase the window is clean for: at least 3/4 of all phase beats, and Ē at least 64 (R335). -/
def Window.clean (w : Window) : Option Nat :=
  let ph := w.phaseBeats.filter (·.1 < 16)
  let all := (ph.map (·.2)).sum
  if 64 * 16 * 256 ≤ w.offers && all ≠ 0 then (ph.find? fun p => 3 * all ≤ 4 * p.2).map (·.1) else none

/-- u of a clean window in 1/16 mW per unit of pace (R335, R338): Ē is offers / (16 × 256). -/
def Ctl.slopeSample (c : Ctl) (w : Window) (measured : Bool) : Nat :=
  if measured then openQuot ((w.m - c.power.sMeas) * 16 * 256) w.offers
  else openQuot ((w.energy - w.static) * 16 * 16 * 256) (c.mw * w.offers)

/-- Learn from a closed window (R335, R338): DOM_PHASE shows the phase of a clean one (Table 11.15); in measurement mode nothing
is learned without M. -/
def Ctl.learn (c : Ctl) (w : Window) : Ctl :=
  let measured := bit (c.reg rCTRL_STATUS) 31
  let able := !measured || w.formed
  let beats := (w.phaseBeats.map (·.2)).sum
  let c := if measured && able && beats = 0 then
    c.modPower fun p => { p with sMeas := openQuot (7 * p.sMeas + w.m) 8 } else c
  match w.clean with
  | none => c
  | some d =>
    let u := c.slopeSample w measured
    let k := if bit (c.reg (rPHASE_K d)) 31 then openQuot (7 * c.rf (rPHASE_K d) 0 16 + u) 8 else u
    let c := if able then c.setReg (rPHASE_K d) (word (2 ^ 31 + min k (2 ^ 16 - 1))) else c
    c.setRf rCTRL_STATUS 20 4 d

/-- Compare P_model with M: does the window diverge by more than 0.15 × M (R337)? -/
def Ctl.diverges (c : Ctl) (w : Window) : Bool :=
  let m := 125 * w.measSum * c.mw
  let e := w.energy * w.measN
  15 * m < 100 * ((e - m) + (m - e))

/-- N of R347: the smallest monitor count over the last 16 ticks. -/
def Ctl.nat (c : Ctl) : Nat := ((c.power.natMin.drop 1).take 16).foldl min (c.power.natMin.getD 1 0)

/-- The target from a closed window: T, what set it, and whether the cap is unreachable (R336, R338, R347). N is that of the
window's boundary, whatever has been fenced or returned since (Table 11.4). -/
def Ctl.targetOf (c : Ctl) (w : Window) : Nat × Nat × Bool :=
  let measured := bit (c.reg rCTRL_STATUS) 31
  let ks := c.activePhases.map c.slope
  let kg := if ks.isEmpty then c.coef1 rKINIT_ACT else ks.foldl max 0
  let cap := c.rf rCAP_STATUS 16 12
  let valid := bit (c.reg rCAP_STATUS) 31
  let low := 125 * cap * c.mw ≤ w.static
  let eCap : Option Nat :=
    if !valid then none
    else if low then some 64
    else if kg = 0 then none
    else if measured then some ((1800 * cap - c.power.sMeas) / kg)
    else some ((125 * cap * c.mw - w.static) * 16 / (c.mw * kg))
  let ep := c.ePref
  let t := match eCap with
    | none => if ep = 2047 then 2047 else max 64 (min ep 2046)
    | some e => max 64 (min 2046 (min ep e))
  let lim := match eCap with
    | some e => if e < ep then 1 else 0
    | none => 0
  let eNat := max 64 (min 2046 (15 * c.power.nat / 16))
  let r := if c.group.state = 0 then (t, lim) else if eNat < t then (eNat, 2) else (t, lim)
  (r.1, r.2, valid && low)

/-- A window qualifies for RECALIBRATE (R377): x, z and m in 1/64 pJ of a window. -/
def Ctl.sampleOf (c : Ctl) (w : Window) : Int × Int × Int :=
  (((w.energy - w.static : Nat) : Int), (w.static : Int), ((openQuot (125 * w.measSum * c.mw) w.measN : Nat) : Int))

/-- Hand a closed window to a RECALIBRATE that collects. -/
def Ctl.collect (c : Ctl) (w : Window) : Ctl :=
  if w.formed && !w.spoiled then
    c.modMsq fun q => { q with svc := q.svc.map fun s =>
      if s.number = 6 && s.phase = 1 && s.samples.length < s.count then { s with samples := s.samples ++ [c.sampleOf w] }
      else s }
  else c

/-- The divergence test (R337); answers whether it takes its four actions. -/
def Ctl.diverge (c : Ctl) (w : Window) : Ctl × Bool :=
  if !w.formed || w.spoiled || w.recoef then (c, false)
  else if c.diverges w then
    let run := min 8 (c.rf rCTRL_STATUS 24 4 + 1)
    let c' := c.setRf rCTRL_STATUS 24 4 run
    if run = 8 && c.rf rCTRL_STATUS 24 4 ≠ 8 && !bit (c.reg rCTRL_STATUS) 31 then
      let again := match c.msq.svc with
        | some s => decide (s.number = 6)
        | none => false
      let c' := ((c'.raise rCTRL_STATUS 31).raise rCTRL_STATUS 30).raise rPWR_EVT 0
      let c' := c'.modPower fun p => { p with sMeas := c.pStatic w }
      (c'.modMsq fun q => { q with recalPending := true, recalAgain := q.recalAgain || again }, true)
    else (c', false)
  else (c.setRf rCTRL_STATUS 24 4 0, false)

/-- The computation from the closed window (R335 to R338): the target waits for the next tick. -/
def Ctl.compute (c : Ctl) (w : Window) : Ctl :=
  let c := if w.spoiled then c else c.learn w
  let t := c.targetOf w
  let c := if t.2.2 then c.raise rPWR_EVT 2 else c
  let c := c.setRf rCTRL_STATUS 0 12 (min 4095 (w.energy / (125 * c.mw)))
  let c := (c.putBit rCAP_STATUS 15 w.formed).setRf rCAP_STATUS 0 12 (if w.formed then w.measSum / w.measN else 0)
  let c := c.collect w
  let d := c.diverge w
  d.1.modPower fun p => { p with
    closed := none, newTarget := some (if d.2 then (max 64 (t.1 - 75), 3) else (t.1, t.2.1)) }

/-! ### The control period -/

/-- Trim steps at a boundary (R353). -/
def Ctl.trimStep (c : Ctl) (slack : Nat) : Ctl :=
  let n := c.rf rCTRL_STATUS 16 4
  let c := c.setRf rMON_STATUS 24 8 (min slack 255)
  if slack < 16 then
    let c := c.modPower fun p => { p with goodRun := 0 }
    if n < 8 then c.setRf rCTRL_STATUS 16 4 (n + 1) else c.raise rPWR_EVT 9
  else if 32 < slack then
    if c.power.goodRun + 1 = 64 then
      (c.setRf rCTRL_STATUS 16 4 (n - 1)).modPower fun p => { p with goodRun := 0 }
    else c.modPower fun p => { p with goodRun := p.goodRun + 1 }
  else c.modPower fun p => { p with goodRun := 0 }

/-- A boundary (R333, R334, R327, R353, R393): the window closes, CAP is sampled, OPP writes and a lower V_req take
effect, a function reset of POWER ends. -/
def Ctl.periodBoundary (c : Ctl) (slack : Nat) : Ctl :=
  let n := c.nat
  let c := c.modPower fun p => { p with
    closed := some p.win, closedAt := c.refTicks, win := Window.empty, periodDue := false, first := false, nat := n,
    opp := (List.range 16).map fun i => (c.reg (rOPP i)).toNat }
  let c : Ctl := if c.func = 4 then { c with func := 0 } else c
  let c := (c.putBit rCAP_STATUS 31 c.power.capValid).setRf rCAP_STATUS 16 12 c.power.cap
  let c := c.setRf rMON_STATUS 0 11 (min n 2047)
  let c := c.trimStep slack
  let c := c.putVreq c.voltageNow
  c.modMsq fun q => { q with svc := q.svc.map fun s => if s.number = 6 then { s with periods := s.periods + 1 } else s }

/-- CONTROL_COMPUTE_DONE (R336): before the 16th tick after the boundary. -/
def execControlComputeDone (s : State) : Res :=
  ctlStep .controlComputeDone s fun c =>
    match c.power.closed with
    | some w => if c.refTicks < c.power.closedAt + 16 then c.compute w else c
    | none => c

/-- LATE_PERIOD (R333). -/
def execLatePeriod (s : State) : Res :=
  ctlStep .latePeriod s fun c =>
    if c.power.closed.isSome && c.power.closedAt + 16 ≤ c.refTicks then
      ((c.modPower fun p => { p with closed := none }).raise rPWR_EVT 1).count rLATE_PERIODS 1
    else c

/-- CAPM_BEAT (R334, R425): the last values are held. -/
def execCapmBeat (cap : BitVec 12) (capValid : Bool) (meas : BitVec 12) (measValid : Bool) (s : State) : Res :=
  ctlStep (.capmBeat cap capValid meas measValid) s fun c =>
    c.modPower fun p =>
      { p with cap := cap.toNat, capValid := capValid, meas := meas.toNat, measValid := measValid }

/-- Has the block been without a paced beat for QUIET_TICKS ticks (R341)? -/
def Ctl.quietDue (c : Ctl) : Bool :=
  !c.power.quiet && !c.power.stopped && !c.power.beatSeen && c.ticksOf rPWR_CTL 0 8 ≤ c.power.idleTicks &&
    match c.power.ramp with
    | .stagger _ => false
    | _ => true

/-- QUIET (R341). -/
def execQuiet (s : State) : Res :=
  ctlStep .quiet s fun c => if c.quietDue then c.becomeQuiet else c

/-- A dawn step of 2^DAWN_LOG2 monitor beats is over (R341, R342): g rises by one; at 16 the margin has 4 more ticks (R343), and
the step after ends the ramp. -/
def Ctl.dawnStep (c : Ctl) : Ctl :=
  if c.power.ramp ≠ .dawn then c
  else
    let c := c.modPower fun p => p.stepOver (c.stepBeats 24)
    if 16 ≤ c.power.gate then c.modPower fun p => { p with ramp := .none }
    else
      let g := c.power.gate + 1
      c.modPower fun p => { p with gate := g, marginEnd := if g = 16 then some (c.after 4) else p.marginEnd }

/-- DAWN_STEP (R341). -/
def execDawnStep (s : State) : Res := ctlStep .dawnStep s (·.dawnStep)

/-- A dusk step of 2^DUSK_LOG2 monitor beats is over: g falls by one, no lower than its level (R342). -/
def Ctl.duskStep (c : Ctl) : Ctl :=
  match c.power.ramp with
  | .dusk floor _ => c.modPower fun p =>
      { p.stepOver (c.stepBeats 20) with gate := if floor < p.gate then p.gate - 1 else p.gate }
  | _ => c

/-- DUSK_STEP (R342). -/
def execDuskStep (s : State) : Res := ctlStep .duskStep s (·.duskStep)

/-- STAGGER_HOLD_END (R344): a dawn starts at step 0. -/
def execStaggerHoldEnd (s : State) : Res :=
  ctlStep .staggerHoldEnd s fun c =>
    match c.power.ramp with
    | .stagger hold => (c.modPower fun p => { p.stepOver hold with gate := 1, ramp := .dawn }).startMargin
    | _ => c

/-- RAMP_MARGIN_END (R343). -/
def execRampMarginEnd (s : State) : Res :=
  ctlStep .rampMarginEnd s fun c =>
    match c.power.marginEnd with
    | some d => if c.due d then c.modPower fun p => { p with margin := false, marginEnd := none } else c
    | none => c

/-- VREQ_SLOW (R426): the wait ends, the beat proceeds; a wake from Night goes on waiting (R427). -/
def execVreqSlow (s : State) : Res :=
  ctlStep .vreqSlow s fun c =>
    match c.power.vwait with
    | some d => if c.due d then (c.raise rBND_STATUS 17).modPower fun p => { p with vwait := none } else c
    | none => c

/-- PWR_CNT_CLEAR (Table 11.13). -/
def Ctl.clearPwrCounters (c : Ctl) : Ctl := c.zeroRegs [rLATE_PERIODS, rHELD_TICKS, rCOOL_STOPS]

/-- PWR_CNT_CLEAR (R333). -/
def execPwrCntClear (id : Byte) (s : State) : Res :=
  ctlStep (.pwrCntClear id) s fun c =>
    c.access id rPWR_CNT_CLEAR true fun c => { c.clearPwrCounters with regRdata := 0 }

/-- ACT_CNT_CLEAR (Table 11.25): the energy accounts stay. -/
def Ctl.clearActs (c : Ctl) : Ctl := c.modPower fun p => { p with acts := [] }

/-- ACT_CNT_CLEAR (R330). -/
def execActCntClear (id : Byte) (s : State) : Res :=
  ctlStep (.actCntClear id) s fun c =>
    c.access id rACT_CNT_CLEAR true fun c => { c.clearActs with regRdata := 0 }

end Sys2Proof.Machine
end

