-- ==== Sys2Proof/Machine/Group.lean ====
section
/-!
DEFINITION. Pace groups: progress, lead and pace words (R346 to R351, R423).
-/
namespace Sys2Proof.Machine

/-- Is a not below b, modulo 2^32 (R346)? -/
def notBelow (a b : Nat) : Bool := (a % 2 ^ 32 + 2 ^ 32 - b % 2 ^ 32) % 2 ^ 32 < 2 ^ 31
/-- The larger of two progress values. -/
def gMax (a b : Nat) : Nat := if notBelow a b then a else b
/-- The smaller of two progress values. -/
def gMin (a b : Nat) : Nat := if notBelow a b then b else a

/-- ⌊J/256⌋ modulo 2^32 (R347). -/
def Group.units (g : Group) : Nat := g.progress / 256 % 2 ^ 32

/-- Is the die passive (R351)? -/
def Ctl.passive (c : Ctl) : Bool := c.power.stopped || c.pstate = 2 || c.pstate = 4

/-- S: the subtree minimum (R348). -/
def Ctl.subtree (c : Ctl) : Nat :=
  let g := c.group
  let vs := (if c.passive then [] else [g.units]) ++ g.children.map (·.2.1)
  match vs with
  | [] => g.minimum
  | v :: t => gMax g.minimum (t.foldl gMin v)

/-- The lead L, signed (R349). -/
def Group.lead (g : Group) : Int := ((BitVec.ofNat 32 g.units) - (BitVec.ofNat 32 g.minimum)).toInt

/-- LEAD; below 4 acts as 4 (Table 11.7). -/
def Ctl.leadBound (c : Ctl) : Nat := max 4 (c.rf rGROUP_TIMING 16 16)

/-- A: the tokens added per bucket in a tick (R26, R349, R351). -/
def Ctl.tokensPerTick (c : Ctl) : Nat :=
  let p := c.power.pace
  if c.passive then 0
  else if c.group.state < 2 then p
  else
    let l := c.group.lead
    let b := c.leadBound
    if 4 * l ≤ 3 * (b : Int) then p
    else if l < b then max 64 (4 * p * (b - l.toNat) / b)
    else 0

/-- The pacer's new tick in a group: J advances by ⌊A × g / 16⌋, a held tick is counted (R347, R349). -/
def Ctl.groupTick (c : Ctl) : Ctl :=
  let a := c.tokensPerTick
  let c := c.modPower fun p => { p with added := a }
  if c.group.state = 0 then c
  else
    let c := if 2 ≤ c.group.state && !c.passive && (c.leadBound : Int) ≤ c.group.lead then c.count rHELD_TICKS 1 else c
    c.modGroup fun g => { g with progress := (g.progress + a * c.power.gate / 16) % 2 ^ 40 }

/-- NODE (R237). -/
def Ctl.node (c : Ctl) : Nat := c.rf rNODE_ID 0 16

/-- Send a pace word (Table 11.2). -/
def Ctl.sendPace (c : Ctl) (dest kind value : Nat) : Ctl :=
  c.emit (.paceWord dest (word value) (word (kind * 2 ^ 28 + c.rf rGROUP_CTL 4 12 * 2 ^ 16 + c.node)))

/-- Has the die a parent (R346)? -/
def Ctl.hasParent (c : Ctl) : Bool := bit (c.reg rGROUP_CTL) 1

/-- GROUP_EN is set (R347, R350). -/
def Ctl.joinGroup (c : Ctl) : Ctl :=
  let silent := c.ticksOf rGROUP_TIMING 8 8
  c.modGroup fun g => { g with
    state := if c.hasParent then 1 else 3, children := [], left := false,
    parentDeadline := if c.hasParent then some (c.after silent) else none,
    sendDeadline := c.after (c.ticksOf rGROUP_TIMING 0 8) }

/-- The LEAVE word to the parent (R350, R351). -/
def Ctl.sendLeave (c : Ctl) : Ctl := if c.hasParent then c.sendPace (c.rf rGROUP_CTL 16 16) 3 0 else c

/-- A write of GROUP_CTL (R346, R347, R350): the fields other than GROUP_EN change only while it is 0. -/
def Ctl.writeGroupCtl (c : Ctl) (d : Word) : Ctl :=
  let en := bit (c.reg rGROUP_CTL) 0
  if !en then
    let c := c.setReg rGROUP_CTL (d &&& 0xFFFFFFF3)
    if bit d 0 then (c.modGroup fun g => { g with progress := 0 }).joinGroup else c
  else if bit d 0 then c
  else
    let c := (c.sendLeave).lower rGROUP_CTL 0
    c.modGroup fun g => { g with state := 0, children := [], parentDeadline := none, left := false }

/-- GROUP_ENABLE (R350): a write of GROUP_CTL that sets GROUP_EN. -/
def execGroupEnable (id : Byte) (data : Word) (s : State) : Res :=
  ctlStep (.groupEnable id data) s fun c =>
    if bit data 0 then c.access id rGROUP_CTL true fun c => { c.writeGroupCtl data with regRdata := 0 } else c

/-- GROUP_DISABLE (R350): a write of GROUP_CTL that clears GROUP_EN. -/
def execGroupDisable (id : Byte) (data : Word) (s : State) : Res :=
  ctlStep (.groupDisable id data) s fun c =>
    if bit data 0 then c else c.access id rGROUP_CTL true fun c => { c.writeGroupCtl data with regRdata := 0 }

/-- Does the die take part: GROUP_EN set and no LEAVE sent for Night (R351)? -/
def Ctl.inGroup (c : Ctl) : Bool := c.group.state ≠ 0 && !c.group.left

/-- The VALID children: entry and node (Table 11.17). -/
def Ctl.childNodes (c : Ctl) : List (Nat × Nat) :=
  ((List.range 16).filter fun i => bit (c.reg (rCHILD_NODE i)) 31).map fun i => (i, c.rf (rCHILD_NODE i) 0 16)

/-- The words of one interval: UP to the parent, DOWN to each child; a root first adopts S (R348). -/
def Ctl.sendWords (c : Ctl) : Ctl :=
  let s := c.subtree
  let c := if c.group.state = 3 then c.modGroup fun g => { g with minimum := gMax g.minimum s } else c
  let c := if c.hasParent then c.sendPace (c.rf rGROUP_CTL 16 16) 1 s else c
  let c := c.each c.childNodes fun c p => c.sendPace p.2 2 c.group.minimum
  c.modGroup fun g => { g with sendDeadline := g.sendDeadline + c.ticksOf rGROUP_TIMING 0 8 }

/-- PACE_WORD_SEND (R348). -/
def execPaceWordSend (s : State) : Res :=
  ctlStep .paceWordSend s fun c => if c.inGroup && c.due c.group.sendDeadline then c.sendWords else c

/-- Who sent a pace word, when it concerns this die: none, the parent, or child entry i (R350). -/
inductive PaceFrom where
  | other
  | parent
  | child (i : Nat)
  deriving DecidableEq, Repr

/-- The sender of a pace word. -/
def Ctl.paceFrom (c : Ctl) (w1 : Word) : PaceFrom :=
  let src := fld w1 0 16
  if fld w1 16 12 ≠ c.rf rGROUP_CTL 4 12 then .other
  else match c.childNodes.find? (·.2 = src) with
    | some p => .child p.1
    | none => if c.hasParent && c.rf rGROUP_CTL 16 16 = src then .parent else .other

/-- A pace word of a kind arrives (R350, R423): discarded while GROUP_EN is clear, flagged where it does not belong. -/
def Ctl.paceWord (c : Ctl) (kind : Nat) (w1 : Word) (f : Ctl → PaceFrom → Ctl) : Ctl :=
  if !c.inGroup || fld w1 28 4 ≠ kind then c
  else match c.paceFrom w1 with
    | .other => c.raise rPWR_EVT 8
    | who => f c who

/-- UP (R348, R350): a child's first word admits it. -/
def execPaceUp (w0 w1 : Word) (s : State) : Res :=
  ctlStep (.paceUp w0 w1) s fun c => c.paceWord 1 w1 fun c who =>
    match who with
    | .child i => c.modGroup fun g => { g with
        children := g.children.set i (w0.toNat, c.after (c.ticksOf rGROUP_TIMING 8 8)) }
    | _ => c

/-- DOWN (R348, R350): G and J follow the parent, and the die is a MEMBER. -/
def execPaceDown (w0 w1 : Word) (s : State) : Res :=
  ctlStep (.paceDown w0 w1) s fun c => c.paceWord 2 w1 fun c who =>
    match who with
    | .parent => c.modGroup fun g =>
        let m := gMax g.minimum w0.toNat
        { g with
          minimum := m, progress := if notBelow g.units m then g.progress else 256 * m, state := 2,
          parentDeadline := some (c.after (c.ticksOf rGROUP_TIMING 8 8)) }
    | _ => c

/-- LEAVE (R350): the child is removed. -/
def execGroupLeave (w0 w1 : Word) (s : State) : Res :=
  ctlStep (.groupLeave w0 w1) s fun c => c.paceWord 3 w1 fun c who =>
    match who with
    | .child i => c.modGroup fun g => { g with children := g.children.del i }
    | _ => c

/-- CHILD_LOST (R350). -/
def execChildLost (i : Nat) (s : State) : Res :=
  ctlStep (.childLost i) s fun c =>
    match c.group.children.find? (·.1 = i) with
    | some p => if c.inGroup && c.due p.2.2 then
        (c.modGroup fun g => { g with children := g.children.del i }).raise rPWR_EVT 6
      else c
    | none => c

/-- PARENT_LOST (R350): ROOT of its subtree. -/
def execParentLost (s : State) : Res :=
  ctlStep .parentLost s fun c =>
    match c.group.parentDeadline with
    | some d => if c.inGroup && c.due d then
        (c.modGroup fun g => { g with state := 3, parentDeadline := none }).raise rPWR_EVT 7
      else c
    | none => c

end Sys2Proof.Machine
end

