-- ==== Sys2Proof/Machine/Integrity.lean ====
section
/-!
DEFINITION. Integrity: scrubbing (R293 to R295), bank copies and dead banks (R298, R299), fencing and return (R304, R307,
R308), counters and the error log (R295, R311, R324).
-/
namespace Sys2Proof.Machine

/-! ### Scrubbing -/

/-- Is a bank access the only one that any requester raises at a bank? -/
def Ctl.soleJob (c : Ctl) (n pb : Nat) (j : Job) : Bool :=
  decide ((c.jobs.filter fun x => x.slice = n && c.jobRaised x && (c.chunkIn pb x).isSome) = [j])

/-- A round at a bank in which the SCRUB requester alone takes part, with the access of a visit to a physical row. -/
def Ctl.scrubRound (c : Ctl) (cells : Cells) (n pb pr : Nat) (p : Purpose) (noise reread : List Codeword) : Ctl × Cells :=
  match c.jobs.find? fun j => decide (j.purpose = p) && j.slice = n && j.phys = some pb && j.row = pr with
  | some j =>
    if c.mayGrant && c.soleJob n pb j then c.useGrant.runRound cells (.bank n pb) [12] noise reread else (c, cells)
  | none => (c, cells)

/-- SCRUB_VISIT (R293, R294): the rounds of the oldest visit that waits at the slice, where nobody else competes for its bank: read,
write-back and verify. Where others do, the visit goes through ROUND. `overwritten`: another write to the row was granted before
the write-back. -/
def execScrubVisit (slice : Nat) (noise reread verify : List Codeword) (overwritten : Bool) (s : State) : Res :=
  fullStep (.scrubVisit slice noise reread verify overwritten) s fun c cells =>
    match (c.slice slice).scrubWait with
    | v :: _ =>
      let x := c.scrubRound cells slice v.2 v.1 .scrubRead noise reread
      let c := if overwritten then x.1.cancelBack slice v.2 v.1 else x.1
      let y := c.scrubRound x.2 slice v.2 v.1 .scrubBack [] []
      y.1.scrubRound y.2 slice v.2 v.1 .scrubVerify verify []
    | [] => (c, cells)

/-! ### Bank copies (R298) -/

/-- Rows of a quarter of a slice are remapped to a spare bank: latch entries of fragments there are invalid (R86). -/
def Ctl.dropBank (c : Ctl) (n q : Nat) : Ctl :=
  c.each (List.range c.slicesN) fun c m =>
    c.modPort m fun p => { p with latches := p.latches.filter fun l =>
      !(l.tag.1 = n && (l.tag.2.1 / 8 = q || (l.tag.2.1 + 7) % 32 / 8 = q)) }

/-- The condemned slots of a bank's quarter that nothing else holds condemned may be allocated again. -/
def Ctl.releaseCondemned (c : Ctl) (n b : Nat) : Ctl :=
  let held (k : Nat) : Bool := c.integ.hard.any fun h => h.1 = n && rowSlot n h.2.1 h.2.2.1 = k
  let free (p : Nat × Slot) : Nat × Slot :=
    if slotSlice p.1 = n && slotQ p.1 = b / 8 && !held p.1 then (p.1, { p.2 with condemned := false }) else p
  { c with slots := (c.slots.map free).filter (·.2 ≠ Slot.reset) }

/-- The copy is complete: the spare bank takes the bank's place in one step, and the latches of its rows are invalid (R86). -/
def Ctl.finishCopy (c : Ctl) (k : BankCopy) : Ctl :=
  let pb := c.physBank k.slice k.bank
  let c := c.modInteg fun i => { i with
    copies := i.copies.filter (· ≠ k), spareFor := i.spareFor.set (k.slice * 34 + k.bank) k.spare }
  let c := (c.raise rINT_EVT 2).logRow 8 k.slice pb 0 none
  let c := c.dropBank k.slice (k.bank / 8)
  c.releaseCondemned k.slice k.bank

/-- BANK_COPY_DONE (R298): `bank` is the bank replaced; every row has been read and written. -/
def execBankCopyDone (slice bank : Nat) (s : State) : Res :=
  ctlStep (.bankCopyDone slice bank) s fun c =>
    match c.integ.copies.find? fun k => k.slice = slice && k.bank = bank with
    | some k =>
      if c.issuing && 2048 ≤ k.row && !(c.jobs.any fun j => j.slice = slice && j.purpose = .copyWrite bank k.spare) then
        c.finishCopy k
      else c
    | none => c

/-! ### Dead banks (R299) -/

/-- Table 10.2 for the slots of a quarter, each once: owners of FRESH slots end, names are poisoned. -/
def Ctl.deadSlots (c : Ctl) (n b : Nat) : Ctl :=
  let ks := (c.slots.filter fun p => slotSlice p.1 = n && slotQ p.1 = b / 8).map (·.1)
  c.each ks fun c k =>
    let known : Bool := match (c.slot k).owner with
      | .name m => (c.name m).poison.isSome
      | _ => false
    if known || (c.slot k).state = .free then c else c.lostEffect n b (slotRow k)

/-- The rows of a bank that hold MAPPED, RETIRED or FRESH words are lost. -/
def Ctl.loseRows (c : Ctl) (n b : Nat) : Ctl :=
  let rows := (c.slots.filter fun p => slotSlice p.1 = n && slotQ p.1 = b / 8 && p.2.state ∉ [.free, .clearing]).map
    fun p => (n, b, slotRow p.1)
  c.modInteg fun i => { i with lost := i.lost.filter (fun x => !rows.contains x) ++ rows }

/-- Every slot of a quarter of a slice is condemned. -/
def Ctl.condemnQuarter (c : Ctl) (n q : Nat) : Ctl :=
  c.each (List.range 2048) fun c r => c.modSlot (slotKey n r q) fun s => { s with condemned := true }

/-- The lowest unused spare bank takes a dead bank's place, latch entries of its rows are invalid (R86), and it is zero-filled; with none the slice is fenced (R300). -/
def Ctl.replaceDead (c : Ctl) (n b : Nat) : Ctl :=
  match c.nextSpare n with
  | some s => (((c.modInteg fun i => { i with
      spareFor := i.spareFor.set (n * 34 + b) s, spareFills := i.spareFills ++ [(n, s)] }).condemnQuarter n (b / 8)).dropBank n
        (b / 8)).addJobs [zeroJob n s 0]
  | none => c.autoFence n 3

/-- Every request to a bank that dies is withdrawn (R299): the rows of its copies, of its zero-fill and of the scrubber's visits;
accesses of fragments are raised at its replacement. -/
def Ctl.dropBankJobs (c : Ctl) (n pb : Nat) (gone : List BankCopy) : Ctl :=
  let vs := (c.slice n).scrubWait.filter (·.2 = pb)
  let c : Ctl := { c with jobs := c.jobs.filter fun (j : Job) => !(j.slice = n &&
    (j.phys = some pb || gone.any fun k => j.purpose = .copyRead k.bank k.spare || j.purpose = .copyWrite k.bank k.spare)) }
  (c.modSlice n fun s => { s with scrubWait := s.scrubWait.filter (·.2 ≠ pb) }).each vs fun c v => c.scrubDone n v

/-- The words of a bank that dies are counted in UE_COUNT, those found before apart (R292, R299). -/
def Ctl.countDead (c : Ctl) (n pb : Nat) : Ctl :=
  let known := (c.integ.ueSeen.filter fun x => x.1 = n && x.2.1 = pb).length
  (c.count (rUE_COUNT n) (2048 * 16 - known)).modInteg fun i => { i with
    ueSeen := i.ueSeen.filter fun x => !(x.1 = n && x.2.1 = pb) }

/-- A bank dies (R299): a copy that involves it is abandoned, its rows are lost, it is replaced. -/
def Ctl.bankDies (c : Ctl) (n pb : Nat) : Ctl :=
  let held := c.bankOf n pb
  let c := c.dropBankJobs n pb (c.integ.copies.filter fun k => k.slice = n && (k.spare = pb || some k.bank = held))
  let c := if held.isSome then c.countDead n pb else c
  let into := (c.integ.copies.filter fun k => k.slice = n && k.spare = pb).map (·.bank)
  let c := c.modInteg fun i => { i with
    dead := i.dead ++ [(n, pb)], spareFills := i.spareFills.filter (· ≠ (n, pb)),
    copies := i.copies.filter fun k => !(k.slice = n && (k.spare = pb || some k.bank = held)),
    hard := i.hard.filter fun h => !(h.1 = n && some h.2.1 = held) }
  let c := ((c.setRf (rSLICE_HEALTH n) 16 6 pb).raise (rSLICE_HEALTH n) 22).raise rINT_EVT 3
  let c := c.logRow 9 n pb 0 none
  let c := match held with
    | some b => ((c.loseRows n b).deadSlots n b).replaceDead n b
    | none => c
  c.each into fun c b => c.spareBank n b

/-- DEAD_BANK (R299): `bank` is the physical bank. -/
def execDeadBank (slice bank : Nat) (s : State) : Res :=
  ctlStep (.deadBank slice bank) s fun c => if c.isDead slice bank || c.pstate = 4 then c else c.bankDies slice bank

/-- SPARE_BANK_ZERO_FILL_DONE (R299): `bank` is the spare bank; every row has been written. A slice out of service fills it with its
other banks when it returns (R308). -/
def execSpareBankZeroFillDone (slice bank : Nat) (s : State) : Res :=
  ctlStep (.spareBankZeroFillDone slice bank) s fun c =>
    if c.integ.spareFills.contains (slice, bank) && (c.slice slice).fstate ∉ [.fenced, .returning] &&
        !(c.jobs.any fun j => j.purpose = .zeroRow && j.slice = slice && j.phys = some bank) then
      let c := c.modInteg fun i => { i with spareFills := i.spareFills.filter (· ≠ (slice, bank)) }
      match c.bankOf slice bank with
      | some b => (c.releaseCondemned slice b).tryWanted
      | none => c
    else c

/-! ### Fences (R304, R307, R308) -/

/-- Can a FENCED slice not return: a dead bank with no replacement, or sparing due with no spare bank (R308)? -/
def Ctl.cannotReturn (c : Ctl) (n : Nat) : Bool :=
  (List.range 32).any fun b =>
    c.isDead n (c.physBank n b) ||
      (32 ≤ (c.spareEntries n (c.physBank n b)).length && c.rf (rSLICE_HEALTH n) 4 4 = 2 && (c.nextSpare n).isNone)

/-- A FENCED slice begins to return: its zero-fill starts, and its FENCED bit falls (R308, Table 10.12). -/
def Ctl.beginReturn (c : Ctl) (n : Nat) : Ctl :=
  if c.cannotReturn n then (c.putMask rFENCE_REQ_LO rFENCE_REQ_HI n true).raise rINT_EVT 8
  else (c.modSlice n fun s => { s with fstate := .returning, clearAsked := false }).putMask rFENCED_LO rFENCED_HI n false

/-- The slices of FENCE_REQ_LO or _HI whose bit a word sets. -/
def Ctl.fenceBits (c : Ctl) (hi : Bool) (w : Word) : List Nat :=
  ((List.range 32).filter (bit w)).map (· + (if hi then 32 else 0)) |>.filter (· < c.slicesN)

/-- A cleared bit (R308): a FENCED slice returns, a FENCING one once it is FENCED; not once service is lost (R307; log entry 89). -/
def Ctl.fenceClear (c : Ctl) (n : Nat) : Ctl :=
  match (c.slice n).fstate with
  | .fenced => if c.serviceLost then c else c.beginReturn n
  | .fencing => c.modSlice n fun s => { s with clearAsked := true }
  | _ => c

/-- A write of FENCE_REQ (R304, R307, R308): one that takes the last slice out of service is ignored whole. -/
def Ctl.writeFenceReq (c : Ctl) (hi : Bool) (w : Word) : Ctl :=
  let off := if hi then rFENCE_REQ_HI else rFENCE_REQ_LO
  let old := c.fenceBits hi (c.reg off)
  let now := c.fenceBits hi w
  let set_ := now.filter fun n => !old.contains n
  let gone := old.filter fun n => !now.contains n
  let takes := set_.filter c.isIn
  if !takes.isEmpty && c.inService.all takes.contains then c.raise rINT_EVT 8
  else
    let c := c.each set_ fun c n => c.putMask rFENCE_REQ_LO rFENCE_REQ_HI n true
    let c := c.each gone fun c n => c.putMask rFENCE_REQ_LO rFENCE_REQ_HI n false
    let c := if takes.isEmpty then c else c.fenceSlices takes 1
    let c := c.each (set_.filter fun n => !takes.contains n) fun c n => c.fenceOut n
    c.each gone fun c n => c.fenceClear n

/-- Does a write of FENCE_REQ set, or clear, a bit? -/
def Ctl.fenceChange (c : Ctl) (hi : Bool) (w : Word) (sets : Bool) : Bool :=
  let old := c.fenceBits hi (c.reg (if hi then rFENCE_REQ_HI else rFENCE_REQ_LO))
  let now := c.fenceBits hi w
  if sets then now.any fun n => !old.contains n else old.any fun n => !now.contains n

/-- SLICE_FENCE (R304): a write of FENCE_REQ that sets a bit. -/
def execSliceFence (hi : Bool) (id : Byte) (data : Word) (s : State) : Res :=
  ctlStep (.sliceFence hi id data) s fun c =>
    if c.fenceChange hi data true then
      c.access id (if hi then rFENCE_REQ_HI else rFENCE_REQ_LO) true fun c => { c.writeFenceReq hi data with regRdata := 0 }
    else c

/-- SLICE_UNFENCE (R308): a write of FENCE_REQ that clears a bit. -/
def execSliceUnfence (hi : Bool) (id : Byte) (data : Word) (s : State) : Res :=
  ctlStep (.sliceUnfence hi id data) s fun c =>
    if c.fenceChange hi data false then
      c.access id (if hi then rFENCE_REQ_HI else rFENCE_REQ_LO) true fun c => { c.writeFenceReq hi data with regRdata := 0 }
    else c

/-- Is every tile off a fencing slice (Table 10.4 step 5)? -/
def Ctl.evacuated (c : Ctl) (n : Nat) : Bool :=
  !(c.slots.any fun p => slotSlice p.1 = n && p.2.state ∈ [.mapped, .fresh])

/-- Forget the slots of a slice and the clearing of them. -/
def Ctl.dropSlots (c : Ctl) (n : Nat) : Ctl :=
  { c with slots := c.slots.filter fun (p : Nat × Slot) => slotSlice p.1 ≠ n,
           jobs := c.jobs.filter fun (j : Job) => j.slice ≠ n }

/-- SLICE_FENCED (Table 10.4 step 5); a fence pauses while issue is stopped. -/
def execSliceFenced (slice : Nat) (s : State) : Res :=
  ctlStep (.sliceFenced slice) s fun c =>
    if (c.slice slice).fstate = .fencing && c.evacuated slice && c.issuing then
      let back := (c.slice slice).clearAsked
      let c := (c.dropSlots slice).modSlice slice fun s => { s with fstate := .fenced, clearAsked := false }
      let c := c.raise rINT_EVT 5
      if back && !c.serviceLost then c.beginReturn slice else c
    else c

/-! ### Counters and the log -/

/-- INT_CNT_CLEAR (Table 10.14). -/
def Ctl.clearIntCounters (c : Ctl) : Ctl := c.zeroRegs [rREREADS, rRESTARTS, rPOISON_EVENTS, rNET_FAULTS]

/-- INT_CNT_CLEAR (R311). -/
def execIntCntClear (id : Byte) (s : State) : Res :=
  ctlStep (.intCntClear id) s fun c =>
    c.access id rINT_CNT_CLEAR true fun c => { c.clearIntCounters with regRdata := 0 }

/-- INT_SLICE_CLEAR (Table 10.27). -/
def Ctl.clearIntSlice (c : Ctl) (n : Nat) : Ctl :=
  (c.zeroRegs [rCE_COUNT n, rUE_COUNT n, rSCRUB_PASSES n, rSCRUB_LAG n]).setRf (rSLICE_HEALTH n) 8 8 0

/-- INT_SLICE_CLEAR (R295). -/
def execIntSliceClear (slice : Nat) (id : Byte) (s : State) : Res :=
  ctlStep (.intSliceClear slice id) s fun c =>
    c.access id (rINT_SLICE_CLEAR slice) true fun c => { c.clearIntSlice slice with regRdata := 0 }

/-- A write of ERR_LOG_CTL (Table 10.16). -/
def Ctl.writeErrLog (c : Ctl) (d : Word) : Ctl :=
  let c := if bit d 8 then c.lower rERR_LOG_CTL 8 else c
  if bit d 0 then c.modInteg fun i => { i with log := i.log.drop 1 } else c

/-- ERR_LOG_POP (R324). -/
def execErrLogPop (id : Byte) (s : State) : Res :=
  ctlStep (.errLogPop id) s fun c => c.access id rERR_LOG_CTL true fun c => { c.writeErrLog 1 with regRdata := 0 }

end Sys2Proof.Machine
end

