-- ==== Sys2Proof/Machine/PState.lean ====
section
/-!
DEFINITION. Evening and Night: entry (R399, R400, Table 13.6), waking (R401, R402), the check pass (R404), and the
regulator's acknowledge (R426, R427).
-/
namespace Sys2Proof.Machine

/-- Put the power state (Table 13.18). -/
def Ctl.putPstate (c : Ctl) (st : Nat) : Ctl := c.setRf rPSTATE_STATUS 0 3 st

/-! ### Waking -/

/-- The write-watches of RUNNING rings are armed again (R402). -/
def Ctl.rearmWatches (c : Ctl) : Ctl := c.each (List.range 64) fun c k => c.armWatch k

/-- The block wakes (R402): its links are no longer gated; quiet, unless coolant-stopped (Table 11.4), and V_req raised; from Night
RET_REQ falls and V_req is sent, and retention exit waits for VRQ_ACK (R427). On the way to Night its watches were disarmed, and are
armed again (Table 13.9). -/
def Ctl.wakeUp (c : Ctl) : Ctl :=
  let night : Bool := c.pstate = 4
  let late := c.toNight
  let c := (c.putPstate 5).ungateLinks
  let c := if late then c.rearmWatches else c
  let c := if c.power.stopped then c else c.becomeQuiet
  if night then
    let v := max c.power.vreq c.voltageNow
    let c := c.modPower fun p => { p with
      fromNight := true, vreq := v, vsent := v, vbusy := true, vwait := some (c.after (c.ticksOf rBND_CFG 0 8)) }
    c.emit (.vrq (v - 600))
  else c.raiseVreq

/-- WAKE (R401): a rise of the wake input; during an entry it stops the entry (Table 13.9). -/
def execWake (s : State) : Res :=
  ctlStep .wake s fun c =>
    let c := c.raise rBND_STATUS 1
    if c.pstate ∈ [1, 2, 3, 4] then c.wakeUp else c

/-! ### Requests -/

/-- A write of PSTATE_CTL (R399 to R401, Table 13.17): REQ 3 acts as 0. Refused while PAIRED or JOINED (R400). One of Evening on the
way from there to Night ends step 5 of Table 13.6. -/
def Ctl.writePstate (c : Ctl) (d : Word) : Ctl :=
  let r := if fld d 0 2 = 3 then 0 else fld d 0 2
  let c := c.putBit rPSTATE_CTL 8 (bit d 8)
  if r ≠ 0 && (bit (c.reg rPAIR_STATUS) 31 || c.joined) then (c.raise rPSTATE_STATUS 17).setRf rPSTATE_STATUS 12 4 1
  else
    let st := c.pstate
    let c := if r = 0 && st ∈ [1, 2, 3, 4] then c.wakeUp else if r = 1 && c.toNight then c.rearmWatches else c
    let c := c.setRf rPSTATE_CTL 0 2 (fld d 0 2)
    match r with
    | 0 => c
    | 1 => if st ∈ [0, 3] then c.putPstate 1 else c
    | _ => if st ∈ [0, 1] then c.putPstate 3 else c

/-- The word of a write that sets REQ and leaves WAKE_ON_WORK. -/
def Ctl.reqWord (c : Ctl) (r : Nat) : Word := setFld (c.reg rPSTATE_CTL) 0 2 r

/-- REQ_EVENING (R399). -/
def execReqEvening (id : Byte) (s : State) : Res :=
  ctlStep (.reqEvening id) s fun c =>
    c.access id rPSTATE_CTL true fun c => { c.writePstate (c.reqWord 1) with regRdata := 0 }

/-- REQ_NIGHT (R399). -/
def execReqNight (id : Byte) (s : State) : Res :=
  ctlStep (.reqNight id) s fun c =>
    c.access id rPSTATE_CTL true fun c => { c.writePstate (c.reqWord 2) with regRdata := 0 }

/-- REQ_ACTIVE (R401). -/
def execReqActive (id : Byte) (s : State) : Res :=
  ctlStep (.reqActive id) s fun c =>
    c.access id rPSTATE_CTL true fun c => { c.writePstate (c.reqWord 0) with regRdata := 0 }

/-! ### Entry (Table 13.6) -/

/-- Does a descriptor at step 5 wait for FRESH slots (R101)? -/
def Ctl.slotHeld (c : Ctl) (d : Desc) : Bool :=
  match d.dRef with
  | some r => c.freeSlots < d.need ||
      (c.place r.name (shRows d.dShape) (shSpan d.dShape) (d.placeOrder (c.resolved d))).isNone
  | none => false

/-- Is a descriptor held: does it wait for an outside event (Table 13.6 step 2)? A TILE_OP put back to step 5 holds its FRESH
slots. -/
def Ctl.heldBack (c : Ctl) (d : Desc) : Bool :=
  d.stage = .parked || (d.kind = 11 && d.stage = .wait) || (d.stage = .wait && c.classHeld d) || (d.waits5 && c.slotHeld d) ||
    (d.isStream && d.stage = .run && !c.consumerFixed d.key) ||
    (c.streamOf d).any fun k => k.stage = .parked

/-- Step 2 of Table 13.6: nothing runs that is not held. -/
def Ctl.drained (c : Ctl) : Bool :=
  (c.descs.all fun d => d.stage ∈ [.hold, .check] || c.hasCompleted d || c.heldBack d) &&
    c.msq.svc.isNone && c.migs.isEmpty

/-- Step 3: a dusk to g = 1 runs; it is over at once for a block that is quiet or stopped. -/
def Ctl.eveningDusk (c : Ctl) : Ctl :=
  match c.power.ramp with
  | .dusk 1 _ => c
  | .dusk _ t => c.modPower fun p => { p with ramp := .dusk 1 t }
  | _ => c.modPower fun p => { p with ramp := .dusk 1 p.pace }

/-- Step 4: the parts of Table 13.5 are gated; a roll call that runs starts over at the wake. -/
def Ctl.gateEvening (c : Ctl) : Ctl :=
  let c := if c.power.stopped then c else c.becomeQuiet
  let c := c.each (List.range c.slicesN) fun c n =>
    if (c.port n).state = .rolling then (c.modPort n fun p => { p with state := .absent }).idlePort n else c
  c.putPstate 2

/-- The LEAVE before Night (R351). -/
def Ctl.leaveGroup (c : Ctl) : Ctl := if c.inGroup then c.sendLeave.modGroup fun g => { g with left := true } else c

/-- Is the memory path still at work: bursts issued, walks out, ring traffic? -/
def Ctl.memBusy (c : Ctl) : Bool :=
  c.liveWalks ≠ 0 || c.mem.bursts.any fun b => b.state = .issued || (b.cls = 0 && match b.purpose with
    | .watch _ => false
    | _ => true)

/-- Step 5: watches disarmed, polling stopped, caches emptied, words to the MSQ withdrawn; STATE becomes NIGHT once every
burst is complete. A burst not yet issued will be translated again. -/
def Ctl.enterNight (c : Ctl) : Ctl :=
  let c := c.leaveGroup
  let c := c.each (List.range 64) fun c k =>
    if (c.ring k).watch = .off then c else c.disarm k
  let c := c.each (c.rings.map (·.1)) fun c k => c.modRing k fun r => { r with pollDue := false, backDue := false }
  if c.memBusy then c
  else
    let c := c.modMem fun m => { m with
      shared := [], micro := [], bursts := m.bursts.map fun (b : Burst) => if b.state = .ready then { b with state := .need } else b }
    (c.putPstate 4).mbSettle

/-- The steps of Table 13.6 as far as they can go now. -/
def Ctl.enter (c : Ctl) : Ctl :=
  let st := c.pstate
  if st = 1 || st = 3 then
    if !c.drained then c
    else
      let done : Bool := c.power.quiet || c.power.stopped || c.power.gate ≤ 1
      if done then
        let c := c.gateEvening
        if st = 3 then c.enterNight else c
      else c.eveningDusk
  else if st = 2 && c.rf rPSTATE_CTL 0 2 = 2 then c.enterNight
  else c

/-- ENTRY_DRAINED (R399). -/
def execEntryDrained (s : State) : Res := ctlStep .entryDrained s (·.enter)

/-! ### The wake completes -/

/-- The physical rows of a slice whose check reads can meet an error, ascending by row, then bank: those whose stored codewords are
not clean, those of a dead bank, and those whose reads met errors. -/
def Ctl.rowsToCheck (c : Ctl) (cells : Cells) (found : List RowErr) (n : Nat) : List (Nat × Nat) :=
  let stored := (cells.filter fun p => p.1 / 16 / 2080 / 34 = n && !(match decodeCw p.2 with
    | .ok _ => true
    | _ => false)).map fun p => (p.1 / 16 / 2080 % 34, p.1 / 16 % 2080)
  let lost := (c.integ.lost.filter (·.1 = n)).map fun x => (c.physBank n x.2.1, c.physRow n (c.physBank n x.2.1) x.2.2)
  let met := (found.filter (·.slice = n)).map fun e => (e.bank, e.row)
  let rows := ((stored ++ lost ++ met).eraseDups).filter fun v => !c.isDead n v.1
  sortBy (fun a b => a.2 < b.2 || (a.2 = b.2 && a.1 ≤ b.1)) rows

/-- One read of the check pass, as a scrub visit, with the errors that it met. -/
def Ctl.checkRow (c : Ctl) (cells : Cells) (found : List RowErr) (n : Nat) (v : Nat × Nat) : Ctl × Cells :=
  let e := (found.find? fun e => e.slice = n && e.bank = v.1 && e.row = v.2).getD
    { slice := n, bank := v.1, row := v.2, noise := [], reread := [], verify := [] }
  if c.isDead n v.1 then (c, cells) else c.scrubWhole cells n v.1 v.2 e.noise e.reread e.verify

/-- The check pass of one slice (R404): every row of its banks that are not dead is read once; a clean one has no other effect. -/
def Ctl.checkSlice (c : Ctl) (cells : Cells) (found : List RowErr) (n : Nat) : Ctl × Cells :=
  let rows := c.rowsToCheck cells found n
  let c := c.charge .background 0 (2080 * (c.scrubBanks n).length - rows.length)
  rows.foldl (fun x v => x.1.checkRow x.2 found n v) (c, cells)

/-- The check pass of R404 of every in-service slice; `found` are the rows whose reads met errors. -/
def Ctl.checkPass (c : Ctl) (cells : Cells) (found : List RowErr) : Ctl × Cells :=
  c.inService.foldl (fun x n => if x.1.isIn n then x.1.checkSlice x.2 found n else x) (c, cells)

/-- From Night every READY or QUIESCED port becomes ABSENT (R405). -/
def Ctl.portsAtWake (c : Ctl) : Ctl :=
  c.each (List.range c.slicesN) fun c n =>
    if (c.port n).state ∈ [.ready, .quiesced] then c.portAbsent n else c

/-- STATE becomes ACTIVE (R402); after Night the die rejoins its group (R351) and its watches are armed again. -/
def Ctl.active (c : Ctl) : Ctl :=
  let c := c.putPstate 0
  let c := if c.group.left then c.joinGroup else c
  let c := if c.power.fromNight then
      let c := c.modPower fun p => { p with fromNight := false, vwait := none }
      c.portsAtWake.rearmWatches
    else c
  c.ungateLinks.replayResumes.fences

/-- WAKE_COMPLETE (R402). -/
def execWakeComplete (found : List RowErr) (s : State) : Res :=
  fullStep (.wakeComplete found) s fun c cells =>
    if c.pstate ≠ 5 || (c.power.fromNight && c.power.vbusy) then (c, cells)
    else if c.power.fromNight then
      let p := c.checkPass cells found
      (p.1.active, p.2)
    else (c.active, cells)

/-! ### The regulator -/

/-- VRQ_ACK (R426, R427): beats that wait go on; a later code is sent now. -/
def execVrqAck (s : State) : Res :=
  ctlStep .vrqAck s fun c =>
    if !c.power.vbusy then c
    else if c.power.vreq ≠ c.power.vsent && c.pstate ≠ 4 then
      let v := c.power.vreq
      (c.modPower fun p => { p with vsent := v }).emit (.vrq (v - 600))
    else c.modPower fun p => { p with vbusy := false, vwait := none }

end Sys2Proof.Machine
end

