-- ==== Sys2Proof/Machine/Counters.lean ====
section
/-!
DEFINITION. Registers with a rule of their own for a write or a read: interval counters (R34, R49), the contract version
(R38), the modulus table (R74), the rename reserve (R99), and the counters of latches and of Keystone (R87, R113).
-/
namespace Sys2Proof.Machine

/-! ### Interval counters -/

/-- A read of TICK_LO latches TICK_HI (R34). -/
def Ctl.readTickLo (c : Ctl) (n : Nat) : Ctl :=
  let t := (c.slice n).ticks
  { c.setReg (rTICK_HI n) (word (t / 2 ^ 32 % 2 ^ 16)) with regRdata := word t }

/-- A read of REF_TICK_LO latches REF_TICK_HI from the reference slice (R34, R49). -/
def Ctl.readRefTickLo (c : Ctl) : Ctl :=
  let t := (c.slice c.refSlice).ticks
  { c.setReg rREF_TICK_HI (word (t / 2 ^ 32 % 2 ^ 16)) with regRdata := word t }

/-- TICK_LO_READ (R34). -/
def execTickLoRead (slice : Nat) (id : Byte) (s : State) : Res :=
  ctlStep (.tickLoRead slice id) s fun c => c.access id (rTICK_LO slice) true fun c => c.readTickLo slice

/-- REF_TICK_LO_READ (R49). -/
def execRefTickLoRead (id : Byte) (s : State) : Res :=
  ctlStep (.refTickLoRead id) s fun c => c.access id rREF_TICK_LO true fun c => c.readRefTickLo

/-! ### The contract version -/

/-- Does the part support version M.m (R37, Table 1.5)? -/
def Ctl.supports (c : Ctl) (major minor : Nat) : Bool :=
  major = c.rf rCONTRACT_CAP 24 8 && minor < 16 && bit (c.reg rCONTRACT_CAP) minor

/-- A write of CONTRACT_SEL (R38): ignored under SEL_LOCKED; the clear of SEL_ERR comes first. -/
def Ctl.writeContract (c : Ctl) (d : Word) : Ctl :=
  if bit (c.reg rCONTRACT_SEL) 16 then c
  else
    let c := if bit d 17 then c.lower rCONTRACT_SEL 17 else c
    if c.supports (fld d 8 8) (fld d 0 8) then c.setRf rCONTRACT_SEL 0 16 (fld d 0 16) else c.raise rCONTRACT_SEL 17

/-- CONTRACT_SEL_WRITE (R38). -/
def execContractSelWrite (id : Byte) (data : Word) (s : State) : Res :=
  ctlStep (.contractSelWrite id data) s fun c =>
    c.access id rCONTRACT_SEL true fun c => { c.writeContract data with regRdata := 0 }

/-! ### The modulus table -/

/-- Is a word a modulus, or the invalid entry 0 (R74)? -/
def modulusOk (d : Word) : Bool := d.toNat = 0 || (3 ≤ d.toNat && d.toNat < 2 ^ 31 && d.toNat % 2 = 1)

/-- A write of MODQ_TABLE[i] (R74). -/
def Ctl.writeModulus (c : Ctl) (i : Nat) (d : Word) : Ctl :=
  if modulusOk d then c.setReg (rMODQ_TABLE i) d else (c.raise rMODTAB_STATUS 16).setRf rMODTAB_STATUS 0 6 i

/-- MODQ_TABLE_WRITE (R74). -/
def execModqTableWrite (i : Nat) (id : Byte) (data : Word) (s : State) : Res :=
  ctlStep (.modqTableWrite i id data) s fun c =>
    c.access id (rMODQ_TABLE i) true fun c => { c.writeModulus i data with regRdata := 0 }

/-! ### The rename reserve -/

/-- A write of RESERVE_MIB (R99). -/
def Ctl.writeReserve (c : Ctl) (d : Word) : Ctl :=
  let v := fld d 0 6
  if 8 ≤ v && v ≤ 32 then c.setRf rKS_RESERVE 0 6 v else c.raise rKS_STATUS 1

/-- RESERVE_MIB_WRITE (R99). -/
def execReserveMibWrite (id : Byte) (data : Word) (s : State) : Res :=
  ctlStep (.reserveMibWrite id data) s fun c =>
    c.access id rKS_RESERVE true fun c => { c.writeReserve data with regRdata := 0 }

/-! ### Counters of latches and of Keystone -/

/-- CNT_CLEAR of LATCH_CTL (Table 2.16): latch contents stay. -/
def Ctl.clearLatchCounters (c : Ctl) (n : Nat) : Ctl := c.zeroRegs [rLATCH_HITS n, rLATCH_MISSES n]

/-- LATCH_CNT_CLEAR (R87). -/
def execLatchCntClear (slice : Nat) (id : Byte) (s : State) : Res :=
  ctlStep (.latchCntClear slice id) s fun c =>
    c.access id (rLATCH_CTL slice) true fun c => { c.clearLatchCounters slice with regRdata := 0 }

/-- KS_CNT_CLEAR (Table 3.9). -/
def Ctl.clearKsCounters (c : Ctl) : Ctl :=
  c.zeroRegs ([rMIG_DONE, rMIG_ABANDON, rSTARVED_COUNT, rLENT] ++ (List.range c.slicesN).map rCOLLIDE)

/-- KS_CNT_CLEAR (R113). -/
def execKsCntClear (id : Byte) (s : State) : Res :=
  ctlStep (.ksCntClear id) s fun c =>
    c.access id rKS_CNT_CLEAR true fun c => { c.clearKsCounters with regRdata := 0 }

/-! ### Every counter -/

/-- Every counter register of the block and of every slice, the activity counters and the energy accounts (Table 13.2). -/
def Ctl.clearAllCounters (c : Ctl) : Ctl :=
  let c := c.clearKsCounters.clearNetCounters.clearMemCounters.clearIntCounters.clearPwrCounters.clearSvcCounters
  let c := c.zeroRegs (rPAIR_COMPARED :: rPAIR_RETRIES :: (List.range 64).flatMap fun k => [rDONE_COUNT k, rFAIL_COUNT k])
  let c := c.each (List.range c.slicesN) fun c n =>
    ((((c.clearLatchCounters n).clearPortCounters n).clearAccCounters n).clearIntSlice n).zeroRegs
      [rCNT_GRANT_LO n, rCNT_GRANT_HI n, rCNT_WAIT_LO n, rCNT_WAIT_HI n]
  let c := c.zeroRegs [rBCNT_GRANT_LO, rBCNT_GRANT_HI, rBCNT_WAIT_LO, rBCNT_WAIT_HI]
  let c := c.clearCounters (c.arbs.map (·.1))
  c.clearActs.modPower fun p => { p with accounts := [] }

end Sys2Proof.Machine
end

