-- ==== Sys2Proof/Machine/Reset.lean ====
section
/-!
DEFINITION. Resets (R388 to R392, Tables 13.1, 13.2, 13.7), bring-up (R394), loss of supply (R427) and the trust port
(R361, R422).
-/
namespace Sys2Proof.Machine

/-! ### Block reset -/

/-- Registers that Table 13.7 keeps at a block reset, with the bits kept. TEST_LOCK stays until power-on reset (R429). -/
def Ctl.keptRegs (c : Ctl) : List (Nat × Word) :=
  let all : Word := 0xFFFFFFFF
  [(rFENCE_REQ_LO, all), (rFENCE_REQ_HI, all), (rNODE_ID, all), (rTRUST_STATUS, all), (rMB_LOCK, all),
   (rCTRL_STATUS, 0x000F0000), (rTEST_CTL, 0x100), (rRESET_STATUS, 0x10000)] ++
  ((List.range 3).map fun t => (rMIN_SVN t, all)) ++
  ((List.range 12).flatMap fun w => [(rKEY_HASH1 w, all), (rKEY_HASH2 w, all), (rKEY_HASH3 w, all)]) ++
  ((List.range 16).map fun i => (rMB_BIND i, all)) ++ ((List.range c.slicesN).map fun n => (rSLICE_HEALTH n, 0x007F0000))

/-- The register values after a block reset; BND_STATUS keeps the level bits. -/
def Ctl.regsAfter (c : Ctl) : Tab Word :=
  c.keptRegs.foldl (fun (t : Tab Word) p => t.set p.1 ((c.reg p.1 &&& p.2) ||| (regReset p.1 &&& ~~~p.2)))
    [(rBND_STATUS, c.reg rBND_STATUS &&& 3)]

/-- A slice after a block reset: its counter runs on until the reset completes, PRESENT keeps its level, and a slice whose
FENCE_REQ bit is set is FENCED (R308). -/
def Ctl.sliceAfter' (c : Ctl) (n : Nat) : Slice :=
  { Slice.reset with
    fstate := if c.mask rFENCE_REQ_LO rFENCE_REQ_HI n then .fenced else .normal,
    port := { Port.reset with present := (c.port n).present } }

/-- A burst issued before a reset: its answer is awaited and goes to nobody (R389 step 2). -/
def Burst.abandoned (b : Burst) : Burst := { b with purpose := .orphan, waitInval := false, prefetch := false }

/-- Every item that Table 13.7 does not keep for a block reset at its reset value (R389 steps 1 to 4); issued bursts, and the
reference count their timeouts run on, go on until the reset completes. An outstanding PKE request stays outstanding. -/
def Ctl.resetItems (c : Ctl) : Ctl :=
  let z := Ctl.reset c.part
  { z with
    regs := c.regsAfter, refTicks := c.refTicks, filling := [], fillWait := [],
    slices := (List.range c.slicesN).map fun n => (n, c.sliceAfter' n),
    net := { Net.reset with links := c.net.links.map fun p => (p.1, { Link.reset with alive := p.2.alive }) },
    mem := { Mem.reset with bursts := (c.mem.bursts.filter (·.state = .issued)).map (·.abandoned) },
    integ := { Integ.reset with
      spareRows := c.integ.spareRows, spareFor := c.integ.spareFor, dead := c.integ.dead,
      deadEntries := c.integ.deadEntries },
    msq := { Msq.reset with pkeDeadline := c.msq.pkeDeadline, pkeOwed := c.msq.pkeOwed },
    wir := c.wir, boundary := c.boundary, bypass := c.bypass, regRdata := c.regRdata, outbox := c.outbox,
    freeCount := c.freeCount, inReset := c.inReset, resetWait := c.resetWait }

/-- Slices that fill after a reset: those whose FENCE_REQ bit is clear (R394). -/
def Ctl.fillers (c : Ctl) : List Nat := (List.range c.slicesN).filter fun n => !c.mask rFENCE_REQ_LO rFENCE_REQ_HI n

/-- A reset completes (R390, R394): LAST_KIND, counters at zero, the voltage request, the first group's zero-fill, and the
coolant input as sampled; while the boundary register is in control, issue stays stopped (Table 14.5). -/
def Ctl.resetDone (c : Ctl) (kind : Nat) : Ctl :=
  let v := min 900 (750 + c.trim)
  let arm (d : Option Nat) : Option Nat := d.map fun _ => 16385
  let c : Ctl := { c with
    resetWait := none, inReset := none, refTicks := 0, subTick := 0, filling := c.fillers.take 8, fillWait := c.fillers.drop 8 }
  let c := c.each (List.range c.slicesN) fun c n =>
    if (c.slice n).fstate = .fenced then c.putMask rFENCED_LO rFENCED_HI n true else c
  let c := c.setRf rRESET_STATUS 0 3 kind
  let c := c.modPower fun p => { p with vreq := v, vsent := v, vbusy := true }
  let c := c.modMsq fun q => { q with pkeDeadline := arm q.pkeDeadline, pkeOwed := arm q.pkeOwed }
  let c := (c.emit (.vrq (v - 600))).readyUp.fillDone
  if c.coolant && !c.inTest then c else c.coolStop

/-- A block reset of a kind runs: it completes once no burst is issued (R389 step 2). -/
def Ctl.blockReset (c : Ctl) (kind : Nat) (coolant : Bool) : Ctl :=
  let c := (if c.inReset.isSome then c else c.resetItems).putBit rBND_STATUS 0 coolant
  let c : Ctl := { c with inReset := none }
  if c.mem.bursts.isEmpty then c.resetDone kind else { c with resetWait := some kind }

/-- The answer to the last burst of a block reset completes it. -/
def Ctl.resetProgress (c : Ctl) : Ctl :=
  match c.resetWait with
  | some k => if c.mem.bursts.isEmpty then c.resetDone k else c
  | none => c

/-- BLKRST_N (R389): the release of the block-reset input. -/
def execBlkrstN (coolant : Bool) (s : State) : Res :=
  resetStep (.blkrstN coolant) s (·.blockReset 2 coolant)

/-- The state of a part after power-on reset. The record of what it drove, and the counter of free values, run on. -/
def Ctl.powerOn (c : Ctl) (coolant : Bool) : Ctl :=
  let z := { Ctl.reset c.part with outbox := c.outbox, freeCount := c.freeCount }
  (z.putBit rBND_STATUS 0 coolant).resetDone 1

/-- POWER_ON_RESET (R390): the release of the power-on reset input, from any state. The banks keep what they held until
their zero-fill. -/
def execPowerOnReset (coolant : Bool) (s : State) : Res := .next { s with ctl := s.ctl.powerOn coolant }

/-- RESET_INPUT_ASSERTED (R389): the reset begins and holds. The power-on input overrides the block input. -/
def execResetInputAsserted (powerOn : Bool) (s : State) : Res :=
  resetStep (.resetInputAsserted powerOn) s fun c =>
    if powerOn then { c with inReset := some true }
    else if c.inReset.isSome then c
    else { c.resetItems with inReset := some false, resetWait := none }

/-- SUPPLY_LOSS (R427): Off, until power-on reset. -/
def execSupplyLoss (s : State) : Res :=
  .next (if s.ctl.off then s else { s with ctl := { s.ctl with off := true } })

/-! ### Function resets (R391, Table 13.2) -/

/-- RINGS: every ring acts as if ABORT were written; NOTIFY_PEND clears. -/
def Ctl.funcRings (c : Ctl) : Ctl :=
  let c := (({ c with func := 1 } : Ctl).each (List.range 64) fun c k => c.abortRing k)
  (c.zeroRegs [rNOTIFY_PEND_LO, rNOTIFY_PEND_HI]).funcSettle

/-- A walk receives no response in time (R243): it is late, and acts as FAULT. -/
def Ctl.walkLate (c : Ctl) (w : Walk) : Ctl :=
  let c := c.modMem fun m => { m with walks := m.walks.map fun (x : Walk) => if x.tag = w.tag then { x with late := true } else x }
  (c.count rWALK_TIMEOUTS 1).walkFails w

/-- Rows that failed go on: each descriptor with a failed row, or an image that would park (R248, R371). -/
def Ctl.settleRows (c : Ctl) : Ctl :=
  c.each (c.descs.filter fun d => d.bad.isSome) fun c d => c.tensorProgress d.key

/-- TRANSLATION: the watches of every ring are disarmed, the caches emptied, outstanding walks treated as timed out, and the
watches of RUNNING rings armed again. -/
def Ctl.funcTranslation (c : Ctl) : Ctl :=
  let ks := (List.range 64).filter fun k => (c.ring k).watch ≠ .off
  let c := c.each ks fun c k => c.disarm k
  let c := c.dropXlates c.xlates
  let c := c.each (c.mem.walks.filter fun w => !w.late) fun c w => c.walkLate w
  let c : Ctl := { c with func := 2 }
  (c.each ks fun c k => c.armWatch k).settleRows.funcSettle

/-- MSQ: a firmware service ends with FW_HALT; the loaded firmware starts from its entry point, or the MSQ enters BOOT. -/
def Ctl.funcMsq (c : Ctl) : Ctl :=
  let c := (c.lower rREADY 6).firmwareStops 1
  if bit (c.reg rFW_INFO) 31 then c.firmwareRuns else c

/-- POWER: the control state as at an activation (R339), T at E_pref, quiet; it ends at the next boundary. Before the first boundary
after a reset T has its limit (R396). The pace follows at the next tick (R28, R342). -/
def Ctl.funcPower (c : Ctl) : Ctl :=
  let c := ((c.setRf rCTRL_STATUS 24 4 0).lower rCTRL_STATUS 30).lower rCTRL_STATUS 31
  let c := c.zeroRegs ((List.range 16).map rPHASE_K)
  let t := if c.power.first then min c.ePref 600 else c.ePref
  let c := if c.power.stopped then c else c.becomeQuiet
  { c.modPower (fun p => { p with target := t, limit := 0, newTarget := some (t, 0), closed := none }) with func := 4 }

/-- One function reset; COUNTERS ends at once. -/
def Ctl.funcReset (c : Ctl) (f : Nat) : Ctl :=
  match f with
  | 1 => c.funcRings
  | 2 => c.funcTranslation
  | 3 => c.funcMsq
  | 4 => c.funcPower
  | _ => c.clearAllCounters

/-- A write of RESET_CTL (Table 13.13): BLOCK alone takes place with FUNC_GO; a FUNC_GO that cannot act sets RESET_ERR and changes
nothing else (R391). `coolant`: the level sampled at the end of a block reset. -/
def Ctl.writeResetCtl (c : Ctl) (d : Word) (coolant : Bool) : Ctl :=
  if bit d 0 then c.blockReset 3 coolant
  else if bit d 4 && (c.func ≠ 0 || fld d 8 4 = 0 || 5 < fld d 8 4) then c.raise rRESET_STATUS 17
  else
    let c := c.setRf rRESET_CTL 8 4 (fld d 8 4)
    if bit d 4 then c.funcReset (fld d 8 4) else c

/-- The word that starts a function reset. -/
def funcWord (f : Nat) : Word := word (f * 2 ^ 8 + 2 ^ 4)

/-- BLOCK_RESET (R389, R392). -/
def execBlockReset (id : Byte) (coolant : Bool) (s : State) : Res :=
  ctlStep (.blockReset id coolant) s fun c =>
    c.access id rRESET_CTL (c.privOk id) fun c => { c.writeResetCtl 1 coolant with regRdata := 0 }

/-- FUNC_RINGS (R391). -/
def execFuncRings (id : Byte) (s : State) : Res :=
  ctlStep (.funcRings id) s fun c =>
    c.access id rRESET_CTL (c.privOk id) fun c => { c.writeResetCtl (funcWord 1) true with regRdata := 0 }

/-- FUNC_TRANSLATION (R391). -/
def execFuncTranslation (id : Byte) (s : State) : Res :=
  ctlStep (.funcTranslation id) s fun c =>
    c.access id rRESET_CTL (c.privOk id) fun c => { c.writeResetCtl (funcWord 2) true with regRdata := 0 }

/-- FUNC_MSQ (R391). -/
def execFuncMsq (id : Byte) (s : State) : Res :=
  ctlStep (.funcMsq id) s fun c =>
    c.access id rRESET_CTL (c.privOk id) fun c => { c.writeResetCtl (funcWord 3) true with regRdata := 0 }

/-- FUNC_POWER (R391). -/
def execFuncPower (id : Byte) (s : State) : Res :=
  ctlStep (.funcPower id) s fun c =>
    c.access id rRESET_CTL (c.privOk id) fun c => { c.writeResetCtl (funcWord 4) true with regRdata := 0 }

/-- FUNC_COUNTERS (R391). -/
def execFuncCounters (id : Byte) (s : State) : Res :=
  ctlStep (.funcCounters id) s fun c =>
    c.access id rRESET_CTL (c.privOk id) fun c => { c.writeResetCtl (funcWord 5) true with regRdata := 0 }

/-! ### Zero-fill (R394, R308) -/

/-- A slice enters service (R20): it applies the active generation, nothing of its storage is held or lost, and a port that
its fence marked GONE becomes ABSENT (R181). -/
def Ctl.enterService (c : Ctl) (n : Nat) : Ctl :=
  let c := c.dropSlots n
  let c := c.modInteg fun i => { i with
    lost := i.lost.filter (·.1 ≠ n), ueSeen := i.ueSeen.filter (·.1 ≠ n), hard := i.hard.filter (·.1 ≠ n),
    spareFills := i.spareFills.filter (·.1 ≠ n) }
  let c := { c with inService := sortBy (fun a b => a ≤ b) (n :: c.inService), filling := c.filling.filter (· ≠ n) }
  let c := (c.modSlice n fun s => { s with fstate := .normal, clearAsked := false }).putMask rFENCED_LO rFENCED_HI n false
  let c := if (c.port n).state = .gone && (c.port n).cause = 7 then c.modPort n fun p => { p with state := .absent } else c
  (c.applyGeneration n).raise rREADY 3

/-- The physical banks that a slice zeroes: after a reset every one that is not dead (R394), on its return those mapped and those that
replace others (R308). -/
def Ctl.fillBanks (c : Ctl) (n : Nat) : List Nat :=
  if (c.slice n).fstate = .returning then ((List.range 32).map fun b => c.physBank n b).filter (· < 34) else c.scrubBanks n

/-- ZERO_FILL_DONE (R394, R308): the banks of the slice hold zero codewords. Waiting migrations and ALLOCs may find room now. Nothing
returns once service is lost (R307). -/
def execZeroFillDone (slice : Nat) (s : State) : Res :=
  fullStep (.zeroFillDone slice) s fun c cells =>
    if (c.filling.contains slice || (c.slice slice).fstate = .returning) && c.pstate ≠ 4 && !c.serviceLost then
      let bs := c.fillBanks slice
      let c := c.charge .background 1 (2080 * bs.length)
      ((c.enterService slice).nextGroup.fillDone.tryWanted, bs.foldl (fun (x : Cells) b => x.zeroBank slice b) cells)
    else (c, cells)

/-! ### The trust port (R422) -/

/-- How many beats an item code takes; KEY_HASH and MIN_SVN exist for t = 1 to 3. -/
def trustBeats (code : Nat) : Option Nat :=
  if code = 1 || code = 2 then some 1
  else if 0x11 ≤ code && code ≤ 0x13 then some 12
  else if 0x21 ≤ code && code ≤ 0x23 then some 1
  else none

/-- Replace an item whole and set its valid bit (R361): the first NODE lets RUNNING rings read their producer indices
(R237). -/
def Ctl.trustItem (c : Ctl) (code : Nat) (ws : List Word) : Ctl :=
  let w := ws.getD 0 0
  if code = 1 then
    let first := !c.nodeValid
    let c := (c.setReg rNODE_ID (word (2 ^ 31 + fld w 0 16))).readyUp
    if first && c.pstate ≠ 4 then c.each (List.range 64) fun c k => c.readIndex k else c
  else if code = 2 then (c.setRf rTRUST_STATUS 16 8 (fld w 0 8)).raise rTRUST_STATUS 31
  else if code < 0x20 then
    let t := code - 0x10
    (c.each ws.zipIdx fun c p => c.setReg (rKeyHash t p.2) p.1).raise rTRUST_STATUS (t - 1)
  else (c.setReg (rMIN_SVN (code - 0x21)) w).raise rTRUST_STATUS (4 + (code - 0x21))

/-- A run of beats that ends with TR_LAST (R422). -/
def Ctl.trustRun (c : Ctl) (beats : List (Byte × Word)) : Ctl :=
  let code := (beats.headD (0, 0)).1.toNat
  if trustBeats code = some beats.length && beats.all (fun (b : Byte × Word) => b.1.toNat = code) then c.trustItem code (beats.map (·.2))
  else c.raise rBND_STATUS 16

/-- TRUST_DELIVERY (R422), in every power state. -/
def execTrustDelivery (beats : List (Byte × Word)) (s : State) : Res :=
  ctlStep (.trustDelivery beats) s (·.trustRun beats)

end Sys2Proof.Machine
end

