-- ==== Sys2Proof/Machine/MemPath.lean ====
section
/-!
DEFINITION. What the walker and the fabric answer, and the timeouts of both (R238, R240, R243, R418, R419).
-/
namespace Sys2Proof.Machine

/-! ### Walks -/

/-- TRANSLATION_RESPONSE (R240): a response to a walk that has timed out is discarded (R243). -/
def execTranslationResponse (tag : Nat) (resp : BitVec 64) (s : State) : Res :=
  ctlStep (.translationResponse tag resp) s fun c =>
    match c.mem.walks.find? (·.tag = tag) with
    | some w => if w.late then c.endWalk tag else (c.walkResponse w resp).settleRows
    | none => c

/-- WALK_TIMEOUT (R243). -/
def execWalkTimeout (tag : Nat) (s : State) : Res :=
  ctlStep (.walkTimeout tag) s fun c =>
    match c.mem.walks.find? (·.tag = tag) with
    | some w => if !w.late && c.due w.deadline && c.pstate ≠ 4 then (c.walkLate w).pump.settleRows else c
    | none => c

/-! ### Bursts -/

/-- Read data for its owner; none is expected of a write. -/
def Ctl.burstData (c : Ctl) (b : Burst) (bs : List Byte) : Ctl :=
  match b.purpose with
  | .fetch r i => c.acceptFetch r i bs
  | .index r =>
    let o := c.rf (rPI_ADDR_LO r) 0 6
    c.acceptIndex r (leNat ((bs.drop o).take 8))
  | .tensorRd k row block part =>
    match c.desc? k with
    | some d =>
      let t := d.takeLine row block part bs
      ((c.modDesc k fun _ => t).feedRow k row).tensorProgress k
    | none => c
  | .keyRd k row block part => c.keyLine k row block part bs
  | .route k part => c.routeLine k part bs
  | .svcRd part => c.svcLine part b.pa bs
  | _ => c

/-- A write has been acknowledged: a record goes on to its second write, or is done (R142), an interim one with its notify bit (R145); a
later retire index goes out (R123); a descriptor whose writes are all acknowledged goes on, or has completed (R143). -/
def Ctl.burstWritten (c : Ctl) (b : Burst) : Ctl :=
  match b.purpose with
  | .recordHi k final => match c.desc? k with
    | some d => c.writeSeq d final
    | none => c
  | .recordLo k final => match c.desc? k with
    | some d => if final then c.recordDone d else c.notify d
    | none => c
  | .retire r => c.writeRetire r
  | .tensorWr k _ _ _ => ((c.close k).tensorProgress k).fences
  | _ => c

/-- A burst came back OKAY. -/
def Ctl.burstOkay (c : Ctl) (b : Burst) (bs : List Byte) : Ctl :=
  if b.isWrite then c.burstWritten b else c.burstData b bs

/-- A burst came back ABSENT or DERR (R238): neither leads to parking; a route program that cannot be read ends its PERMUTE
(R197). -/
def Ctl.burstLost (c : Ctl) (b : Burst) (absent : Bool) : Ctl :=
  let c := c.count (if absent then rREMOTE_FAILS else rDATA_ERRS) 1
  match b.purpose with
  | .route k _ => c.finish k 0x61 0x20
  | p =>
    let c := if absent then c.burstFails b 0x22 (accessDetail b.access) false else c.burstFails b 0x31 0 false
    match p.key? with
    | some k => ((c.close k).tensorProgress k).fences
    | none => c

/-- The end of an outstanding burst: its tag is free, and an invalidation that waited for it may be done (R244). Code 0 is
OKAY, 1 ABSENT, 2 and 3 DERR (R418). -/
def Ctl.burstEnd (c : Ctl) (b : Burst) (code : Nat) (bs : List Byte) : Ctl :=
  let c := (c.removeBurst b.ch b.tag).invalDone
  if c.resetting then c.resetProgress
  else if code = 0 then c.burstOkay b bs
  else c.burstLost b (code = 1)

/-- The burst outstanding on a channel under a tag. -/
def Ctl.outstanding (c : Ctl) (ch tag : Nat) : Option Burst :=
  c.mem.bursts.find? fun b => b.state = .issued && b.ch = ch && b.tag = tag

/-- BURST_RESPONSE (R238, R418): a tag that names no outstanding burst is discarded. -/
def execBurstResponse (ch tag code : Nat) (data : List Byte) (s : State) : Res :=
  resetStep (.burstResponse ch tag code data) s fun c =>
    match c.outstanding ch tag with
    | some b => c.burstEnd b code data
    | none => c

/-- BURST_TIMEOUT (R238): as ABSENT. -/
def execBurstTimeout (ch tag : Nat) (s : State) : Res :=
  resetStep (.burstTimeout ch tag) s fun c =>
    match c.outstanding ch tag with
    | some b => if c.due b.deadline && c.pstate ≠ 4 then c.burstEnd b 1 [] else c
    | none => c

end Sys2Proof.Machine
end

