-- ==== Sys2Proof/Machine/Time.lean ====
section
/-!
DEFINITION. Time: sub-ticks of the pacer (R26), ticks of a slice's interval counter (R30, R293, R409) and of the reference
counter (R31, R434).
-/
namespace Sys2Proof.Machine

/-! ### The pacer's tick -/

/-- The pacer's new tick (R28, R342, R347): a computed target takes effect, a dusk that has reached its level ends. -/
def Ctl.paceTick (c : Ctl) : Ctl :=
  let c := match c.power.newTarget with
    | some t => (c.applyTarget t.1 t.2).modPower fun p => { p with newTarget := none }
    | none => c
  c.duskEnd.groupTick

/-- Static energy of a tick in 1/64 pJ (R331, Table 11.23). -/
def Ctl.staticEnergy (c : Ctl) : Nat :=
  openQuot (c.inService.length * c.coef1 rSTATIC_NJ_ACT * 64000 * c.power.vreq) 750

/-- What a tick adds to the measurement window: static energy, a MEAS sample, the tokens offered (R331, R334). -/
def Ctl.windowTick (c : Ctl) : Ctl :=
  let e := c.staticEnergy
  let c := c.addAccount 17 e
  c.modPower fun p =>
    let w := p.win
    { p with win := { w with
      static := w.static + e, energy := w.energy + e,
      measSum := w.measSum + (if p.measValid then p.meas else 0), measN := w.measN + (if p.measValid then 1 else 0),
      offers := w.offers + p.added * p.gate } }

/-- The pacer's tick of the last boundary, where it has not been acted on yet: after every timeout of that boundary (R434), and before
any token of the tick is added. -/
def Ctl.paceNow (c : Ctl) : Ctl :=
  if c.power.paceDue then (c.modPower fun p => { p with paceDue := false }).paceTick.windowTick else c

/-- The pacer's tick goes before the later duties of a boundary, and after its timeouts (R434). -/
def Ctl.paceInTurn (c : Ctl) : Ctl := if c.timeoutsDue then c else c.paceNow

/-! ### Sub-ticks -/

/-- The bucket numbers of the part's paced streams (R27). -/
def Ctl.bucketNumbers (c : Ctl) : List Nat :=
  let ns := List.range c.slicesN
  ns.map (fun n => (Stream.operand n).bucket) ++ ns.map (fun n => (Stream.result n).bucket) ++ [Stream.network.bucket] ++
    (List.range c.part.channels).map (fun m => (Stream.channel m).bucket) ++ ns.map fun n => (Stream.lane n).bucket

/-- Tokens of a bucket after a sub-tick, in sixteenths: what lies beyond 64 tokens is lost, then A sixteenths come (R26). -/
def bucketStep (a t : Nat) : Nat := min t 1024 + a

/-- A sub-tick of the reference counter: each bucket gains a sixteenth of the tick's tokens, and the monitor of the reference slice
has come on (R340; log entry 82). A tick has 16. -/
def Ctl.subTickNow (c : Ctl) : Ctl :=
  if 16 ≤ c.subTick then c
  else
    let c := c.paceNow
    let a := if c.passive then 0 else c.power.added
    let bs : Tab Nat := c.bucketNumbers.foldl (fun (t : Tab Nat) b => t.set b (bucketStep a (Tab.get 0 c.buckets b))) c.buckets
    let beats := Config.monitorBeats c.refTicks c.subTick
    let c : Ctl := { c with buckets := bs, subTick := c.subTick + 1 }
    (c.modPower fun p => { p with mon := p.mon + beats }).raiseJobs.captureWaiting.pumpPorts

/-- SUB_TICK (R26). -/
def execSubTick (s : State) : Res :=
  ctlStep .subTick s fun c => if c.sequenced || c.pstate = 4 then c else c.subTickNow

/-! ### A slice's tick -/

/-- The monitor of the reference slice has completed so many beats in the tick that ends (R340, R347). -/
def Ctl.monitorTick (c : Ctl) (beats : Nat) : Ctl :=
  c.modPower fun p =>
    let m := max p.mon (p.monTick + beats)
    { p with mon := m, monTick := m }

/-- The slice-local duties of a tick: the scrubber's setting and visits (R293, R313, R410), windows of arbiters that granted
nothing (R409), the monitor's beats (R347). -/
def Ctl.sliceTick (c : Ctl) (n mon : Nat) : Ctl :=
  let c := c.modSlice n fun s => { s with
    ticks := (s.ticks + 1) % 2 ^ 48, scrubRows := c.rf rINT_CTL_ACT 8 4, gen := c.arbGen }
  let scrubs := if c.isIn n && !c.power.stopped && !c.det && !c.toNight then (c.slice n).scrubRows else 0
  let c := c.each (List.range scrubs) fun c _ => c.scrubStart n
  let c := c.idleWindows (some n)
  let c := if n = c.refSlice then c.monitorTick mon else c
  if c.isIn n then c.modPower fun p => { p with natMin := match p.natMin with
    | x :: xs => min x mon :: xs
    | [] => [mon] } else c

/-! ### The reference tick -/

/-- Ticks without a paced beat (R341), and a new entry for the monitors' counts (R347). -/
def Ctl.quietTick (c : Ctl) : Ctl :=
  c.modPower fun p => { p with
    idleTicks := if p.beatSeen then 0 else p.idleTicks + 1, beatSeen := false, natMin := 2 ^ 32 :: p.natMin.take 16 }

/-- The duties that fall due (R434): the control period every 256 ticks, reviews every 2^REVIEW_LOG2 ticks outside
deterministic mode (R108, R313). -/
def Ctl.dutiesDue (c : Ctl) : Ctl :=
  let gap := c.power.reviewGap + 1
  let due : Bool := 2 ^ max 6 (min 14 (fld c.ksCtl 8 4)) ≤ gap
  c.modPower fun p => { p with
    periodDue := p.periodDue || c.refTicks % 256 = 0, reviewGap := if due then 0 else gap,
    reviewDue := p.reviewDue || (due && c.reviewing && !c.det) }

/-- Polls and backstop reads of a RUNNING ring (R126, R127): a value written to RING_POLL counts from the next poll on (R129). A ring
whose watch is not armed is polled, also while its first ARM is translating or unanswered (DESIGN CHOICE, log entry 91: the spec
does not say). -/
def Ctl.pollTick (c : Ctl) (k : Nat) : Ctl :=
  let r := c.ring k
  if r.gap + 1 < r.interval then c.modRing k fun r => { r with gap := r.gap + 1 }
  else
    let back : Bool := 256 ≤ r.polls + 1
    let n := max 1 (c.rf (rRING_POLL k) 0 16)
    c.modRing k fun r => { r with
      gap := 0, interval := n, polls := if back then 0 else r.polls + 1, backDue := r.backDue || back,
      pollDue := r.pollDue || (!back && r.watch ∉ [Watch.armed]) }

/-- A tick of the reference counter. The pacer's tick waits for the timeouts that end at this boundary (R434). -/
def Ctl.refTick (c : Ctl) : Ctl :=
  let c := c.paceNow
  let c : Ctl := { c with refTicks := c.refTicks + 1, subTick := 0 }
  let c := (c.modPower fun p => { p with paceDue := true }).paceInTurn.quietTick
  let c := c.idleWindows none
  let c := (c.each ((List.range 64).filter c.running) fun c k => c.pollTick k).dutiesDue
  c.converge.settle.settleRows.startWaiting.pump.raiseJobs.captureWaiting.pumpPorts

/-- One tick of slice n; the lowest slice in service carries the reference counter (R31, R33). -/
def Ctl.tickNow (c : Ctl) (n mon : Nat) : Ctl :=
  if c.resetting then (if n = c.refSlice then { c with refTicks := c.refTicks + 1 } else c)
  else if c.pstate = 4 then c
  else if n = c.refSlice then (c.sliceTick n mon).refTick
  else (c.sliceTick n mon).converge

/-- TICK (R30): none in Night; in sequenced mode only by TEST_STEP (R430). -/
def execTick (slice monBeats : Nat) (s : State) : Res :=
  resetStep (.tick slice monBeats) s fun c => if c.sequenced && !c.resetting then c else c.tickNow slice monBeats

/-! ### The duties of a boundary (R434) -/

/-- CONTROL_PERIOD (R333). `slack`: the smallest monitor slack over the in-service slices. -/
def execControlPeriod (slack : Nat) (s : State) : Res :=
  ctlStep (.controlPeriod slack) s fun c =>
    let c := c.paceInTurn
    if c.power.periodDue && !c.timeoutsDue then c.periodBoundary slack else c

/-- REVIEW (R108): after the control-period boundary of the same tick (R434). -/
def execReview (s : State) : Res :=
  ctlStep .review s fun c =>
    let c := c.paceInTurn
    if c.power.reviewDue && !c.power.periodDue && !c.timeoutsDue then
      if c.reviewing then c.keystoneReview else c.modPower fun p => { p with reviewDue := false }
    else c

/-- May polls and backstop reads run: after the other duties of the boundary (R434), not in Night nor on the way there (Table 13.6
step 5)? -/
def Ctl.mayPoll (c : Ctl) : Bool :=
  !c.timeoutsDue && !c.power.periodDue && !c.power.reviewDue && c.pstate ≠ 4 && !c.toNight

/-- POLL (R127). -/
def execPoll (ring : Nat) (s : State) : Res :=
  ctlStep (.poll ring) s fun c =>
    let c := c.paceInTurn
    if (c.ring ring).pollDue && c.mayPoll then (c.modRing ring fun r => { r with pollDue := false }).readIndex ring else c

/-- BACKSTOP_READ (R126, R127): the read, and another attempt to arm a watch that is not armed. -/
def execBackstopRead (ring : Nat) (s : State) : Res :=
  ctlStep (.backstopRead ring) s fun c =>
    let c := c.paceInTurn
    if (c.ring ring).backDue && c.mayPoll then
      ((c.modRing ring fun r => { r with backDue := false }).readIndex ring).armWatch ring
    else c

end Sys2Proof.Machine
end

