-- ==== Sys2Proof/Machine/Regs.lean ====
section
/-!
DEFINITION. The register port (R16, R420, R431, R432): what a read of each register answers, what a write of each register
does, and who may access it. Registers that follow from other state are computed here.
-/
namespace Sys2Proof.Machine

/-! ### The address map -/

/-- The index of a register in a window of registers, none outside it. -/
def windowIdx (base stride count off : Nat) : Option Nat :=
  if base ≤ off && (off - base) / stride < count then some ((off - base) / stride) else none

/-- Does Table 14.7 list a register there, in a window the part has (R431)? -/
def Ctl.listed (c : Ctl) (off : Nat) : Option RegRow :=
  let absent : Bool := match windowIdx 0xA0000 0x400 64 off, windowIdx 0x50000 0x100 64 off with
    | some n, _ => c.slicesN ≤ n
    | _, some n => c.slicesN ≤ n
    | _, _ => false
  if absent then none else regRow? off

/-- A Boolean as a bit at a place. -/
def flag (b : Bool) (i : Nat) : Nat := if b then 2 ^ i else 0

/-- A word with a bit for each index of a list, for the lower or the upper 32. -/
def maskWord (ns : List Nat) (hi : Bool) : Word :=
  word ((ns.map fun n => if (32 ≤ n) = hi then 2 ^ (n % 32) else 0).sum)

/-- One half of a 64-bit value. -/
def half (v : Nat) (hi : Bool) : Word := word (if hi then v / 2 ^ 32 else v)

/-! ### Registers that follow from other state -/

/-- READY (R393, Table 13.3): while a function reset runs, the bit of its function reads 0 (R391). -/
def Ctl.readyBits (c : Ctl) : Nat :=
  1 + flag (c.func ≠ 2) 1 + flag (bit (c.reg rREADY) 2 && c.func ≠ 1) 2 + flag (bit (c.reg rREADY) 3) 3 + 2 ^ 4 +
    flag (bit (c.reg rREADY) 5) 5 + flag (bit (c.reg rREADY) 6) 6 + 2 ^ 7 + flag (!c.power.first && c.func ≠ 4) 8 +
    flag (bit (c.reg rREADY) 9) 9

/-- The class record that CLASS_SEL selects (R175). -/
def Ctl.selClass (c : Ctl) : Option (List Word) := (c.classes.find? fun p => p.1 = c.rf rCLASS_SEL 0 8).map (·.2)

/-- Global registers. -/
def Ctl.readGlobal (c : Ctl) (off : Nat) : Option Word :=
  let cls := c.rf rCLASS_SEL 0 8
  if off = rSERVICE_LO then some (maskWord c.inService false)
  else if off = rSERVICE_HI then some (maskWord c.inService true)
  else if off = rSERVICE_SUM then
    some (word (c.refSlice * 2 ^ 24 + flag (c.inService.length = c.slicesN) 16 + c.presentSpan * 2 ^ 8 + c.inService.length))
  else if off = rRESET_STATUS then some (setFld (c.reg off) 8 1 (flag (c.func ≠ 0) 0))
  else if off = rREADY then some (word c.readyBits)
  else if off = rFILLING_LO then some (maskWord (c.filling ++ c.fillWait) false)
  else if off = rFILLING_HI then some (maskWord (c.filling ++ c.fillWait) true)
  else if off = rBND_STATUS then
    let alive := (List.range 3).map fun l => flag (c.link l).alive l
    some (setFld (setFld (setFld (c.reg off) 2 3 alive.sum) 5 1 (flag c.power.vbusy 0)) 6 1 (flag (c.pstate = 4) 0))
  else if off = rCLASS_INFO then some (word ((c.readyPorts cls).length * 2 ^ 8 + flag c.selClass.isSome 0))
  else if off = rCLASS_PORTS_LO then some (maskWord (c.classPorts cls [.ready, .quiescing]) false)
  else if off = rCLASS_PORTS_HI then some (maskWord (c.classPorts cls [.ready, .quiescing]) true)
  else match windowIdx (rCLASS_CAP 0) 4 4 off with
    | some i => some ((c.selClass.getD []).getD i 0)
    | none => none

/-- Registers of the rings. -/
def Ctl.readRing (c : Ctl) (off : Nat) : Option Word :=
  match windowIdx 0x10000 0x100 64 off with
  | some k =>
    if off = rRING_INFLIGHT k then
      some (word (((c.ringDescs k).filter fun d => d.stage = .parked).length * 2 ^ 16 + c.heldCount k))
    else none
  | none => none

/-- The effective reserve in whole MiB: the lesser of V and what the capacity leaves (R100). From reset on it is that of C_fill (R395),
32 MiB, although the table of KS_RESERVE gives EFFECTIVE_MIB the reset value 0x00 (Table 3.6): the two disagree, and following R395
is a DESIGN CHOICE (log entry 92). -/
def Ctl.effReserve (c : Ctl) : Nat := min (c.rf rKS_RESERVE 8 6) ((c.capacity - c.claimed) / 2048)

/-- Is the effective reserve below V (R100)? -/
def Ctl.reserveShort (c : Ctl) : Bool := c.capacity - c.claimed < 2048 * c.rf rKS_RESERVE 8 6

/-- KS_QUERY_PLACE (Table 3.13). -/
def Ctl.queryPlace (c : Ctl) : Word :=
  let n := c.rf rKS_QUERY_NAME 0 14
  let r := c.name n
  if r.live then
    word (2 ^ 31 + flag r.pin.isSome 30 + flag (c.migs.any (·.name = n)) 29 + flag r.displaced 28 + r.table.home * 2 ^ 24 +
      r.table.fold * 2 ^ 16 + r.table.list.length * 2 ^ 8 + r.table.list.headD 0)
  else 0

/-- Registers of Keystone. -/
def Ctl.readKs (c : Ctl) (off : Nat) : Option Word :=
  if off = rKS_RESERVE then some (setFld (c.reg off) 16 6 c.effReserve)
  else if off = rKS_STATUS then
    some (word (fld (c.reg off) 0 5 + flag c.shortage 17 + flag c.reserveShort 16 + min 255 c.migs.length * 2 ^ 8))
  else if off = rKS_CAPACITY then some (word (8192 * c.inService.length))
  else if off = rKS_CLAIMED then some (word c.claimed)
  else if off = rKS_FREE then some (word (8192 * c.inService.length - c.countSlots fun s => s.state ≠ .free))
  else if off = rKS_FRESH then some (word (c.countSlots fun s => s.state = .fresh))
  else if off = rKS_RETIRED then some (word (c.countSlots fun s => s.state ∈ [.retired, .clearing]))
  else if off = rKS_QUERY_PLACE then some c.queryPlace
  else none

/-- The program that PROG_QUERY selects (Table 6.15). A library that has been dropped, or replaced by an empty load, has none: that
PROG_INFO, PROG_CRC and LIB_INFO.PROGRAMS read 0 after a drop is a DESIGN CHOICE, since the spec clears LIB_INFO.VALID alone
(R196, R385; log entry 40). -/
def Ctl.selProgram (c : Ctl) : Option Program :=
  match (Tab.get [] c.net.libs (c.rf rPROG_QUERY 16 4))[c.rf rPROG_QUERY 0 6]? with
  | some p => some p
  | none => none

/-- Registers of the exchange network. -/
def Ctl.readNet (c : Ctl) (off : Nat) : Option Word :=
  let p := c.selProgram
  if off = rXN_STATUS then
    some (word (c.rf off 16 8 * 2 ^ 16 + flag c.net.mapOwner.isSome 4 + flag c.settingBusy 3 +
      (if c.permWaits || c.addrWaits then c.net.mode else 0)))
  else if off = rPROG_INFO then
    some (match p with
      | some p => word (2 ^ 31 + flag p.negate 30 + p.log2n * 2 ^ 16)
      | none => 0)
  else if off = rPROG_CRC_LO then some (half ((p.map fun x => x.crc.toNat).getD 0) false)
  else if off = rPROG_CRC_HI then some (half ((p.map fun x => x.crc.toNat).getD 0) true)
  else none

/-- Registers of the memory path. -/
def Ctl.readMem (c : Ctl) (off : Nat) : Option Word :=
  if off = rMP_STATUS then
    let armed := c.rings.filter fun p => p.2.watch = .armed
    let pre := c.descs.filter fun d => d.prefetched && !d.completed
    some (word (armed.length * 2 ^ 16 + c.liveWalks * 2 ^ 8 + min 255 pre.length))
  else none

/-- Registers of arbitration. -/
def Ctl.readArb (c : Ctl) (off : Nat) : Option Word :=
  match windowIdx (rARB_WEIGHT_ACT 0) 4 7 off with
  | some k => some (weightWord c.arbActive.weights k)
  | none => none

/-- Registers of integrity and recovery. -/
def Ctl.readInt (c : Ctl) (off : Nat) : Option Word :=
  if off = rINT_STATUS then some (setFld (c.reg off) 0 16 (min 0xFFFF c.poisoned))
  else if off = rPOISON_INFO then
    let r := c.name (c.rf rPOISON_NAME 0 14)
    some (match r.live, r.poison with
      | true, some (sl, b, w) => word (2 ^ 31 + sl * 2 ^ 24 + b * 2 ^ 16 + w)
      | _, _ => 0)
  else if off = rERR_LOG_A then
    some (match c.integ.log with
      | e :: _ => word (2 ^ 31 + e.event * 2 ^ 24 + e.slice * 2 ^ 16 + e.bank)
      | [] => 0)
  else if off = rERR_LOG_B then
    some (match c.integ.log with
      | e :: _ => word ((match e.name with
          | some n => n * 2 ^ 16 + 2 ^ 15
          | none => 0) + e.row)
      | [] => 0)
  else if off = rERR_LOG_CTL then some (setFld (c.reg off) 16 5 c.integ.log.length)
  else none

/-- What set T, with the coolant stop and the group governor over it (Table 11.9). -/
def Ctl.limitShown (c : Ctl) : Nat :=
  if c.power.stopped then 5
  else if 2 ≤ c.group.state && c.power.added ≠ c.power.pace && c.refTicks ≠ 0 then 4
  else c.power.limit

/-- RAMP (Table 11.9). -/
def Ramp.code : Ramp → Nat
  | .none => 0 | .dawn => 1 | .dusk _ _ => 2 | .stagger _ => 3

/-- An energy account in µJ (R332): 1 µJ is 64,000,000 units of 1/64 pJ. -/
def Ctl.account (c : Ctl) (a : Nat) : Nat := min (Tab.get 0 c.power.accounts a / 64000000) (2 ^ 48 - 1)

/-- Registers of power and pace. -/
def Ctl.readPwr (c : Ctl) (off : Nat) : Option Word :=
  if off = rPACE_STATUS then
    let p := c.power
    some (word (c.limitShown * 2 ^ 29 + p.ramp.code * 2 ^ 27 + p.target * 2 ^ 16 + p.gate * 2 ^ 11 +
      (if c.refTicks = 0 then 0 else p.added)))
  else if off = rGROUP_PROGRESS then some (word c.group.units)
  else if off = rGROUP_MIN then some (word c.group.minimum)
  else if off = rGROUP_STATUS then
    some (word (flag c.passive 18 + c.group.state * 2 ^ 16 + ((c.group.children.map fun p => 2 ^ p.1).sum)))
  else if off = rBG_ENERGY_LO then some (half (c.account 16) false)
  else if off = rBG_ENERGY_HI then some (half (c.account 16) true)
  else if off = rSTATIC_ENERGY_LO then some (half (c.account 17) false)
  else if off = rSTATIC_ENERGY_HI then some (half (c.account 17) true)
  else match windowIdx (rPHASE_ENERGY_LO 0) 8 16 off, windowIdx (rACT_CNT_LO 0) 8 10 off with
    | some p, _ => some (half (c.account p) (off = rPHASE_ENERGY_HI p))
    | _, some k => some (half (Tab.get 0 c.power.acts k) (off = rACT_CNT_HI k))
    | _, _ => none

/-- Registers of the MSQ. -/
def Ctl.readMsq (c : Ctl) (off : Nat) : Option Word :=
  if off = rMSQ_STATUS then
    let n := (c.msq.svc.map (·.number)).getD 0
    some (word (n * 2 ^ 24 + c.msq.state * 2 ^ 8 + flag c.msq.recalPending 1 + flag (n = 1) 0))
  else none

/-- STATE of a port (Table 5.3). -/
def PortState.code : PortState → Nat
  | .absent => 0 | .rolling => 1 | .ready => 2 | .quiescing => 3 | .quiesced => 4 | .refused => 5 | .gone => 6 | .fenced => 7

/-- FSTATE of a slice (Table 10.25). -/
def FState.code : FState → Nat
  | .normal => 0 | .fencing => 1 | .fenced => 2 | .returning => 3

/-- Spare-row entries of a physical bank that have been used: a dead one passed over names no row (R296). -/
def Ctl.sparesUsed (c : Ctl) (n pb : Nat) : Nat := ((c.spareEntries n pb).filter (·.1 < 2048)).length

/-- SPARE_STATUS of a slice (Table 10.24): a row counts once its slot is back. -/
def Ctl.spareStatus (c : Ctl) (n : Nat) : Nat :=
  let used := ((List.range 34).map fun pb => c.sparesUsed n pb).sum
  let open_ := (c.integ.hard.filter fun h => h.1 = n && h.2.2.2).length
  let of (s place : Nat) : Nat := match c.bankOf n s with
    | some b => 2 ^ (place + 7) + b * 2 ^ place
    | none => 0
  of 33 24 + of 32 16 + (used - open_)

/-- Registers of slice n. -/
def Ctl.readSliceReg (c : Ctl) (n off : Nat) : Option Word :=
  let s := c.slice n
  if off = rTICK_LO n then some (word s.ticks)
  else if off = rFREE_SLOTS n then some (word (if c.isIn n then
      8192 - (c.slots.filter fun q => slotSlice q.1 = n && q.2.state ≠ .free).length else 0))
  else if off = rPORT_STATE n then
    some (word (flag s.port.present 16 + s.port.outst.length * 2 ^ 8 + s.port.cause * 2 ^ 4 + s.port.state.code))
  else if off = rSPARE_STATUS n then some (word (c.spareStatus n))
  else if off = rSLICE_HEALTH n then some (setFld (c.reg off) 0 3 s.fstate.code)
  else if off = rSCRUB_POS n then
    let v := s.scrubWait.headD (c.scrubDue n)
    some (word (v.1 * 2 ^ 16 + v.2))
  else if off = rBANK_INFO n then
    let b := c.rf (rBANK_QUERY n) 0 6
    let stood : Bool := b < 32 && c.physBank n b ≠ b
    some (word (flag (c.isDead n b) 31 + flag stood 30 + c.sparesUsed n b))
  else none

/-- Registers of the slices. -/
def Ctl.readSlices (c : Ctl) (off : Nat) : Option Word :=
  match windowIdx 0xA0000 0x400 64 off with
  | some n => c.readSliceReg n off
  | none => none

/-- The value of a register that follows from other state, none for a stored one. -/
def Ctl.derived (c : Ctl) (off : Nat) : Option Word :=
  c.readGlobal off <|> c.readRing off <|> c.readKs off <|> c.readNet off <|> c.readMem off <|> c.readArb off <|>
    c.readInt off <|> c.readPwr off <|> c.readMsq off <|> c.readSlices off

/-! ### Reads -/

/-- What a read has as its effect: a LO half latches its counterpart (R34, R49), or captures the counters (R288). -/
def Ctl.readEffect (c : Ctl) (off : Nat) : Ctl :=
  if off = rREF_TICK_LO then c.readRefTickLo
  else if off = rBCNT_GRANT_LO then c.readCounters true 0
  else match windowIdx 0x50000 0x100 64 off, windowIdx 0xA0000 0x400 64 off with
    | some n, _ => if off = rCNT_GRANT_LO n then c.readCounters false n else c
    | _, some n => if off = rTICK_LO n then c.readTickLo n else c
    | _, _ => c

/-- The answer of a read (R431): an offset that is not listed reads zero, and REF_TICK_LO the reference counter. -/
def Ctl.readValue (c : Ctl) (off : Nat) : Word :=
  match c.listed off with
  | none => 0
  | some _ => if off = rREF_TICK_LO then word (c.slice c.refSlice).ticks else (c.derived off).getD (c.reg off)

/-- A read of a register. -/
def Ctl.readReg (c : Ctl) (off : Nat) : Ctl :=
  match c.listed off with
  | none => { c with regRdata := 0 }
  | some _ =>
    let c := c.readEffect off
    { c with regRdata := c.readValue off }

/-! ### Writes -/

/-- Registers of a ring that are written only while it is DISABLED (Tables 4.19, 4.20). -/
def ringConfig (o : Nat) : Bool := o ≤ 0x20 || o = 0x30 || o = 0x34

/-- A write by access codes alone (Table 0.4): RW and RWL fields set, W1C bits clear, W1S bits set. -/
def Ctl.writeFields (c : Ctl) (r : RegRow) (off : Nat) (d : Word) : Ctl :=
  let m := r.rw ||| r.rwl
  c.setReg off ((((c.reg off &&& ~~~m) ||| (d &&& m)) &&& ~~~(d &&& r.w1c)) ||| (d &&& r.w1s))

/-- A counter-clear register: writing 1 to bit 0 clears. -/
def clearing (d : Word) (c c' : Ctl) : Ctl := if bit d 0 then c' else c

/-- Is a register of the pace group locked by GROUP_EN: GROUP_TIMING and CHILD_NODE (R346)? -/
def Ctl.groupLocked (c : Ctl) (off : Nat) : Bool :=
  bit (c.reg rGROUP_CTL) 0 && (off = rGROUP_TIMING || (windowIdx (rCHILD_NODE 0) 4 16 off).isSome)

/-- Writes of global and block-wide registers that have a rule of their own. -/
def Ctl.writeBlock (c : Ctl) (off : Nat) (d : Word) : Option Ctl :=
  if c.groupLocked off then some c
  else if off = rGEN_COMMIT then some (clearing d c c.go)
  else if off = rCONTRACT_SEL then some (c.writeContract d)
  else if off = rRESET_CTL then some (c.writeResetCtl d c.coolant)
  else if off = rPSTATE_CTL then some (c.writePstate d)
  else if off = rKS_RESERVE then some (c.writeReserve d)
  else if off = rKS_CNT_CLEAR then some (clearing d c c.clearKsCounters)
  else if off = rXN_CNT_CLEAR then some (clearing d c c.clearNetCounters)
  else if off = rQUOIN_CTL then some (c.writeQuoinCtl d)
  else if off = rATC_INVAL then some (c.writeInval d)
  else if off = rMP_CNT_CLEAR then some (clearing d c c.clearMemCounters)
  else if off = rARB_BCNT_CLEAR then some (clearing d c c.clearBlockArbs)
  else if off = rFENCE_REQ_LO then some (c.writeFenceReq false d)
  else if off = rFENCE_REQ_HI then some (c.writeFenceReq true d)
  else if off = rINT_CNT_CLEAR then some (clearing d c c.clearIntCounters)
  else if off = rERR_LOG_CTL then some (c.writeErrLog d)
  else if off = rPAIR_CTL then some (c.writePairCtl d)
  else if off = rPAIR_CMD then some (c.writePairCmd d)
  else if off = rGROUP_CTL then some (c.writeGroupCtl d)
  else if off = rCOOL_CTL then some (c.writeCoolCtl d)
  else if off = rPWR_CNT_CLEAR then some (clearing d c c.clearPwrCounters)
  else if off = rACT_CNT_CLEAR then some (clearing d c c.clearActs)
  else if off = rMB_LOCK then some (c.mbSetLock d)
  else if off = rDB_RING then some (c.dbRing d)
  else if off = rMSQ_CTL then some (c.writeMsqCtl d)
  else if off = rSVC_CNT_CLEAR then some (clearing d c c.clearSvcCounters)
  else none

/-- Writes of a mailbox channel's registers that have a rule of their own. -/
def Ctl.writeMailbox (c : Ctl) (ch o : Nat) (d : Word) : Option Ctl :=
  match o with
  | 0x0 => some (c.mbSend ch d)
  | 0x8 => some (c.mbAck ch d)
  | 0xC => some (c.mbBind ch d)
  | _ => none

/-- Writes of a slice's registers that have a rule of their own. -/
def Ctl.writeSliceReg (c : Ctl) (n o : Nat) (d : Word) : Option Ctl :=
  match o with
  | 0x18 => some (clearing d c (c.clearLatchCounters n))
  | 0x44 => some (c.writePortCtl n d)
  | 0x94 => some (clearing d c (c.clearAccCounters n))
  | 0xBC => some (clearing d c (c.clearIntSlice n))
  | _ => none

/-- Writes of a ring's registers that have a rule of their own. -/
def Ctl.writeRingReg (c : Ctl) (k o : Nat) (d : Word) : Option Ctl :=
  if o = 0x28 then some (c.writeRingCtl k d)
  else if o = 0x44 then some (c.writeResume k d)
  else if ringConfig o && c.ringState k ≠ 0 then some c
  else none

/-- Writes of registers in windows that have a rule of their own. -/
def Ctl.writeWindow (c : Ctl) (off : Nat) (d : Word) : Option Ctl :=
  match windowIdx 0x1400 4 64 off with
  | some i => some (c.writeModulus i d)
  | none => match windowIdx 0x10000 0x100 64 off with
    | some k => c.writeRingReg k (off % 0x100) d
    | none => match windowIdx 0x18000 8 256 off with
      | some t => if off % 8 = 0 then some (c.writeToken t d) else none
      | none => match windowIdx 0x30340 8 16 off with
        | some a => some (c.writeAlias a (off % 8 = 4) d)
        | none => match windowIdx 0x50000 0x100 64 off with
          | some n => if off % 0x100 = 0x14 then some (clearing d c (c.clearSliceArbs n)) else none
          | none => match windowIdx 0x80000 0x10 16 off with
            | some ch => c.writeMailbox ch (off % 0x10) d
            | none => match windowIdx 0xA0000 0x400 64 off with
              | some n => c.writeSliceReg n (off % 0x400) d
              | none => none

/-- A write of a register (R431): none listed there, none changed. -/
def Ctl.writeReg (c : Ctl) (off : Nat) (d : Word) : Ctl :=
  match c.listed off with
  | none => c
  | some r => match c.writeBlock off d <|> c.writeWindow off d with
    | some c' => c'
    | none => c.writeFields r off d

/-! ### Who may access a register -/

/-- May the identity access the register (R360, R362, R366, R368, R392, R429, Tables 6.18, 6.22)? -/
def Ctl.mayAccess (c : Ctl) (id : Byte) (off : Nat) (write : Bool) (d : Word) : Bool :=
  if 0xF0000 ≤ off then !write || c.privOk id
  else match windowIdx 0x80000 0x10 16 off with
    | some ch => c.mbAllowed ch (off % 0x10 / 4) write id
    | none =>
      if !write then true
      else if off = rRESET_CTL then c.privOk id || !(bit d 0 || bit d 4)
      else if off = rMB_LOCK then c.mbPriv id
      else if off = rDB_RING then c.dbAllowed id
      else if off = rQUOIN_CTL then c.mbPriv id
      else match windowIdx 0x30340 8 16 off with
        | some _ => c.aliasAllowed id
        | none => true

end Sys2Proof.Machine
end

