-- ==== Sys2Proof/Machine/Test.lean ====
section
/-!
DEFINITION. Test access (R428 to R430): the wrapper, sequenced mode and its steps; and REGISTER_WRITE, which reaches every
register, those of the region "Test" among them.
-/
namespace Sys2Proof.Machine

/-! ### The wrapper (R428, Table 14.5) -/

/-- Is TEST_LOCK set (R429)? -/
def Ctl.testLocked (c : Ctl) : Bool := bit (c.reg rTEST_CTL) 8

/-- Select a wrapper instruction. TEST_LOCK makes WS_EXTEST, WS_INTEST_RING and WX_STEP act as WS_BYPASS (R429). Where the
boundary register takes control, issue stops as at a coolant stop; where it gives it up, the block stays coolant-stopped, and
the hold before RESUME begins. -/
def Ctl.setWir (c : Ctl) (w : Nat) : Ctl :=
  let was := c.inTest
  let w := if c.testLocked && w ∈ [1, 2, 0x11] then 0 else w
  let c : Ctl := { c with wir := w, bypass := if w = 0 then false else c.bypass }
  if !was && c.inTest then
    if c.power.stopped then (c.lower rPWR_EVT 4).modPower fun p => { p with coolDeadline := none } else c.coolStop
  else if was && !c.inTest then c.startHold
  else c

/-- WS_BYPASS (R428). -/
def execWsBypass (s : State) : Res := ctlStep .wsBypass s fun c => c.setWir 0

/-- Put the boundary register, where it is in control. -/
def Ctl.putBoundary (c : Ctl) (b : List Bool) : Ctl := if c.inTest then { c with boundary := b } else c

/-- WS_EXTEST (R428). -/
def execWsExtest (boundary : List Bool) (s : State) : Res :=
  ctlStep (.wsExtest boundary) s fun c => (c.setWir 1).putBoundary boundary

/-- WS_INTEST_RING (R428). -/
def execWsIntestRing (boundary : List Bool) (s : State) : Res :=
  ctlStep (.wsIntestRing boundary) s fun c => (c.setWir 2).putBoundary boundary

/-! ### Sequenced mode (R430) -/

/-- TEST_SIG. -/
def Ctl.testSig (c : Ctl) : BitVec 64 := BitVec.ofNat 64 (c.reg64 rTEST_SIG_LO rTEST_SIG_HI)

/-- A write of SEQ_EN: 1 is accepted only in settled deterministic mode, and not under TEST_LOCK; setting it sets TEST_SIG to
0. None: refused, and the write changes nothing but SEQ_ERR. -/
def Ctl.putSeq (c : Ctl) (on : Bool) : Option Ctl :=
  if !on then some (c.lower rTEST_CTL 0)
  else if c.sequenced || c.testLocked then some c
  else if c.det && bit (c.reg rINT_STATUS) 16 then
    some { (c.raise rTEST_CTL 0).setReg64 rTEST_SIG_LO rTEST_SIG_HI 0 with stepGrants := 0 }
  else none

/-- TEST_LOCK sets: SEQ_EN clears, and a wrapper instruction that it disables acts as WS_BYPASS from here on. -/
def Ctl.lockTest (c : Ctl) : Ctl :=
  let c := (c.raise rTEST_CTL 8).lower rTEST_CTL 0
  if c.wir ∈ [1, 2, 0x11] then c.setWir 0 else c

/-- A write of TEST_CTL (Table 14.11). -/
def Ctl.writeTestCtl (c : Ctl) (d : Word) : Ctl :=
  match c.putSeq (bit d 0) with
  | some c => if bit d 8 then c.lockTest else c
  | none => c.raise rTEST_STATUS 17

/-- A step of KIND 0 (R430): one phase for each number of completed grants, taken into TEST_SIG. -/
def Ctl.stepPhases (c : Ctl) (grants : List Nat) : Ctl :=
  if c.sequenced then
    let sig := (grants.flatMap (natBytes 4)).foldl crcByte c.testSig
    let c := c.setReg64 rTEST_SIG_LO rTEST_SIG_HI sig.toNat
    { c with stepGrants := c.stepGrants + grants.sum }
  else c

/-- One stepped tick: the pacer's 16 sub-ticks, then a tick of every interval counter. -/
def Ctl.stepTick (c : Ctl) : Ctl :=
  let c := c.each (List.range 16) fun c _ => c.subTickNow
  c.each (List.range c.slicesN) fun c n =>
    ({ c with freeCount := c.freeCount + 1 } : Ctl).tickNow n (Config.stepBeats c.freeCount)

/-- A step of KIND 1 (R430): every interval counter advances by `count` ticks. -/
def Ctl.stepTicks (c : Ctl) (count : Nat) : Ctl :=
  if c.sequenced && c.pstate ≠ 4 then c.each (List.range count) fun c _ => c.stepTick else c

/-- A write of TEST_STEP (Table 14.12) whose phases' grants no operand delivers. -/
def Ctl.writeTestStep (c : Ctl) (d : Word) : Ctl :=
  match fld d 16 2 with
  | 0 =>
    if c.sequenced then
      ({ c with freeCount := c.freeCount + fld d 0 16 } : Ctl).stepPhases
        ((List.range (fld d 0 16)).map fun i => Config.phaseGrants (c.freeCount + i))
    else c
  | 1 => c.stepTicks (fld d 0 16)
  | _ => c

/-- SEQ_EN (R430). -/
def execSeqEn (id : Byte) (on : Bool) (s : State) : Res :=
  ctlStep (.seqEn id on) s fun c =>
    c.access id rTEST_CTL (c.privOk id) fun c => { c.writeTestCtl (if on then 1 else 0) with regRdata := 0 }

/-- TEST_LOCK (R429): the write leaves SEQ_EN to the lock. -/
def execTestLock (id : Byte) (s : State) : Res :=
  ctlStep (.testLock id) s fun c =>
    c.access id rTEST_CTL (c.privOk id) fun c => { c.writeTestCtl 0x100 with regRdata := 0 }

/-- TEST_STEP_PHASES (R430). -/
def execTestStepPhases (id : Byte) (grants : List Nat) (s : State) : Res :=
  ctlStep (.testStepPhases id grants) s fun c =>
    c.access id rTEST_STEP (c.privOk id) fun c => { c.stepPhases grants with regRdata := 0 }

/-- TEST_STEP_TICKS (R430). -/
def execTestStepTicks (id : Byte) (count : Nat) (s : State) : Res :=
  ctlStep (.testStepTicks id count) s fun c =>
    c.access id rTEST_STEP (c.privOk id) fun c => { c.stepTicks count with regRdata := 0 }

/-! ### Register accesses of every kind -/

/-- A write of any register. -/
def Ctl.writeAny (c : Ctl) (off : Nat) (d : Word) : Ctl :=
  if off = rTEST_CTL then c.writeTestCtl d else if off = rTEST_STEP then c.writeTestStep d else c.writeReg off d

/-- REGISTER_WRITE (R16): by access codes, or by the register's own rule. -/
def execRegisterWrite (off : Nat) (id : Byte) (data : Word) (s : State) : Res :=
  ctlStep (.registerWrite off id data) s fun c =>
    c.access id off (c.mayAccess id off true data) fun c => { c.writeAny off data with regRdata := 0 }

/-- WX_REGACC (R429): one access, with the identity in the instruction's own field. -/
def execWxRegacc (dr : BitVec 59) (s : State) : Res :=
  ctlStep (.wxRegacc dr) s fun c =>
    let off := 4 * (dr.extractLsb' 0 18).toNat
    let write := dr.getLsbD 18
    let id : Byte := dr.extractLsb' 19 8
    let data : Word := dr.extractLsb' 27 32
    let c := c.setWir 0x10
    c.access id off (c.mayAccess id off write data) fun c =>
      if write then { c.writeAny off data with regRdata := 0 } else c.readReg off

/-- WX_STEP (R428): as a write of TEST_STEP; the grants of its COUNT phases are the command's. -/
def execWxStep (dr : BitVec 18) (grants : List Nat) (s : State) : Res :=
  ctlStep (.wxStep dr grants) s fun c =>
    let c := c.setWir 0x11
    if c.testLocked then c
    else match (dr.extractLsb' 16 2).toNat with
      | 0 => c.stepPhases grants
      | 1 => c.stepTicks (dr.extractLsb' 0 16).toNat
      | _ => c

/-- WX_SIG (R430): the capture of TEST_SIG. -/
def execWxSig (s : State) : Res := ctlStep .wxSig s fun c => let c := c.setWir 0x12; c.emit (.testSig c.testSig)

end Sys2Proof.Machine
end

