-- ==== Sys2Proof/Machine/Dispatch.lean ====
section
/-!
DEFINITION. The effect of a command on everything but the queue: one arm per row of the table, each a call of its meaning.
-/
namespace Sys2Proof.Machine

/-- What a command does. -/
def exec (i : Instr) (s : State) : Host.Outcome State Fault Refusal :=
  match i with
  | .tick slice monBeats => Sys2Proof.Machine.execTick slice monBeats s
  | .subTick => Sys2Proof.Machine.execSubTick s
  | .powerOnReset coolant => Sys2Proof.Machine.execPowerOnReset coolant s
  | .blkrstN coolant => Sys2Proof.Machine.execBlkrstN coolant s
  | .blockReset id coolant => Sys2Proof.Machine.execBlockReset id coolant s
  | .funcRings id => Sys2Proof.Machine.execFuncRings id s
  | .funcTranslation id => Sys2Proof.Machine.execFuncTranslation id s
  | .funcMsq id => Sys2Proof.Machine.execFuncMsq id s
  | .funcPower id => Sys2Proof.Machine.execFuncPower id s
  | .funcCounters id => Sys2Proof.Machine.execFuncCounters id s
  | .zeroFillDone slice => Sys2Proof.Machine.execZeroFillDone slice s
  | .trustDelivery beats => Sys2Proof.Machine.execTrustDelivery beats s
  | .capmBeat cap capValid meas measValid => Sys2Proof.Machine.execCapmBeat cap capValid meas measValid s
  | .registerWrite off id data => Sys2Proof.Machine.execRegisterWrite off id data s
  | .tickLoRead slice id => Sys2Proof.Machine.execTickLoRead slice id s
  | .refTickLoRead id => Sys2Proof.Machine.execRefTickLoRead id s
  | .cntGrantLoRead blockWide slice id => Sys2Proof.Machine.execCntGrantLoRead blockWide slice id s
  | .contractSelWrite id data => Sys2Proof.Machine.execContractSelWrite id data s
  | .modqTableWrite k id data => Sys2Proof.Machine.execModqTableWrite k id data s
  | .reserveMibWrite id data => Sys2Proof.Machine.execReserveMibWrite id data s
  | .genCommit id => Sys2Proof.Machine.execGenCommit id s
  | .deferredGenerationCommit => Sys2Proof.Machine.execDeferredGenerationCommit s
  | .latchCntClear slice id => Sys2Proof.Machine.execLatchCntClear slice id s
  | .ksCntClear id => Sys2Proof.Machine.execKsCntClear id s
  | .xnCntClear id => Sys2Proof.Machine.execXnCntClear id s
  | .mpCntClear id => Sys2Proof.Machine.execMpCntClear id s
  | .arbCntClear slice id => Sys2Proof.Machine.execArbCntClear slice id s
  | .arbBcntClear id => Sys2Proof.Machine.execArbBcntClear id s
  | .intCntClear id => Sys2Proof.Machine.execIntCntClear id s
  | .intSliceClear slice id => Sys2Proof.Machine.execIntSliceClear slice id s
  | .accCntClear slice id => Sys2Proof.Machine.execAccCntClear slice id s
  | .portCntClear slice id => Sys2Proof.Machine.execPortCntClear slice id s
  | .pwrCntClear id => Sys2Proof.Machine.execPwrCntClear id s
  | .actCntClear id => Sys2Proof.Machine.execActCntClear id s
  | .svcCntClear id => Sys2Proof.Machine.execSvcCntClear id s
  | .errLogPop id => Sys2Proof.Machine.execErrLogPop id s
  | .ringEnable ring id => Sys2Proof.Machine.execRingEnable ring id s
  | .ringDisable ring id => Sys2Proof.Machine.execRingDisable ring id s
  | .ringAbort ring id => Sys2Proof.Machine.execRingAbort ring id s
  | .ringResume ring entry id => Sys2Proof.Machine.execRingResume ring entry id s
  | .ringAbandon ring entry id => Sys2Proof.Machine.execRingAbandon ring entry id s
  | .tokenValueWrite t id data => Sys2Proof.Machine.execTokenValueWrite t id data s
  | .poll ring => Sys2Proof.Machine.execPoll ring s
  | .backstopRead ring => Sys2Proof.Machine.execBackstopRead ring s
  | .descriptorFetch => Sys2Proof.Machine.execDescriptorFetch s
  | .nop ring => Sys2Proof.Machine.execNop ring s
  | .tileOp ring => Sys2Proof.Machine.execTileOp ring s
  | .load ring => Sys2Proof.Machine.execLoad ring s
  | .store ring => Sys2Proof.Machine.execStore ring s
  | .relayout ring => Sys2Proof.Machine.execRelayout ring s
  | .gather ring => Sys2Proof.Machine.execGather ring s
  | .scatter ring => Sys2Proof.Machine.execScatter ring s
  | .scatterAdd ring => Sys2Proof.Machine.execScatterAdd ring s
  | .permute ring => Sys2Proof.Machine.execPermute ring s
  | .keystream ring => Sys2Proof.Machine.execKeystream ring s
  | .reduce ring => Sys2Proof.Machine.execReduce ring s
  | .fence ring => Sys2Proof.Machine.execFence ring s
  | .fenceTimeout ring idx => Sys2Proof.Machine.execFenceTimeout ring idx s
  | .alloc ring => Sys2Proof.Machine.execAlloc ring s
  | .freeName ring => Sys2Proof.Machine.execFreeName ring s
  | .pin ring => Sys2Proof.Machine.execPin ring s
  | .imageLoad => Sys2Proof.Machine.execImageLoad s
  | .imageDrop => Sys2Proof.Machine.execImageDrop s
  | .keySchedule => Sys2Proof.Machine.execKeySchedule s
  | .relayoutBulk => Sys2Proof.Machine.execRelayoutBulk s
  | .defrag => Sys2Proof.Machine.execDefrag s
  | .recalibrate => Sys2Proof.Machine.execRecalibrate s
  | .recalNoMeas => Sys2Proof.Machine.execRecalNoMeas s
  | .autoRecal => Sys2Proof.Machine.execAutoRecal s
  | .serviceStart ring => Sys2Proof.Machine.execServiceStart ring s
  | .dependencyRelease ring => Sys2Proof.Machine.execDependencyRelease ring s
  | .freshSlotGrant => Sys2Proof.Machine.execFreshSlotGrant s
  | .commit ring idx => Sys2Proof.Machine.execCommit ring idx s
  | .completionRecord ring idx => Sys2Proof.Machine.execCompletionRecord ring idx s
  | .clearingDone slice row quarter => Sys2Proof.Machine.execClearingDone slice row quarter s
  | .park ring idx => Sys2Proof.Machine.execPark ring idx s
  | .restart ring idx => Sys2Proof.Machine.execRestart ring idx s
  | .translationResponse tag resp => Sys2Proof.Machine.execTranslationResponse tag resp s
  | .walkTimeout tag => Sys2Proof.Machine.execWalkTimeout tag s
  | .burstResponse ch tag code data => Sys2Proof.Machine.execBurstResponse ch tag code data s
  | .burstTimeout ch tag => Sys2Proof.Machine.execBurstTimeout ch tag s
  | .atcInval id data => Sys2Proof.Machine.execAtcInval id data s
  | .watchAccept ring => Sys2Proof.Machine.execWatchAccept ring s
  | .watchRefuse ring => Sys2Proof.Machine.execWatchRefuse ring s
  | .watchHit ring => Sys2Proof.Machine.execWatchHit ring s
  | .watchLost ring => Sys2Proof.Machine.execWatchLost ring s
  | .watchTimeout ring => Sys2Proof.Machine.execWatchTimeout ring s
  | .prefetchDrop ring idx => Sys2Proof.Machine.execPrefetchDrop ring idx s
  | .keyOrphan ring idx => Sys2Proof.Machine.execKeyOrphan ring idx s
  | .routeProgramFetch => Sys2Proof.Machine.execRouteProgramFetch s
  | .pass noise => Sys2Proof.Machine.execPass noise s
  | .round arb takers noise reread => Sys2Proof.Machine.execRound arb takers noise reread s
  | .waveClose ring idx => Sys2Proof.Machine.execWaveClose ring idx s
  | .operandBeat slice => Sys2Proof.Machine.execOperandBeat slice s
  | .resultBeat slice wh lanes => Sys2Proof.Machine.execResultBeat slice wh lanes s
  | .ackTimeout slice => Sys2Proof.Machine.execAckTimeout slice s
  | .wTimeout slice => Sys2Proof.Machine.execWTimeout slice s
  | .rollCall slice => Sys2Proof.Machine.execRollCall slice s
  | .rollCallWord slice word => Sys2Proof.Machine.execRollCallWord slice word s
  | .rollTimeout slice => Sys2Proof.Machine.execRollTimeout slice s
  | .presentLow slice => Sys2Proof.Machine.execPresentLow slice s
  | .portReset slice id => Sys2Proof.Machine.execPortReset slice id s
  | .quiesceSet slice id => Sys2Proof.Machine.execQuiesceSet slice id s
  | .quiesceClear slice id => Sys2Proof.Machine.execQuiesceClear slice id s
  | .portFenceSet slice id => Sys2Proof.Machine.execPortFenceSet slice id s
  | .portFenceClear slice id => Sys2Proof.Machine.execPortFenceClear slice id s
  | .scrubVisit slice noise reread verify overwritten => Sys2Proof.Machine.execScrubVisit slice noise reread verify overwritten s
  | .bankCopyDone slice bank => Sys2Proof.Machine.execBankCopyDone slice bank s
  | .deadBank slice bank => Sys2Proof.Machine.execDeadBank slice bank s
  | .sliceFence hi id data => Sys2Proof.Machine.execSliceFence hi id data s
  | .sliceFenced slice => Sys2Proof.Machine.execSliceFenced slice s
  | .sliceUnfence hi id data => Sys2Proof.Machine.execSliceUnfence hi id data s
  | .review => Sys2Proof.Machine.execReview s
  | .migrationCommit name => Sys2Proof.Machine.execMigrationCommit name s
  | .join id data => Sys2Proof.Machine.execJoin id data s
  | .quoinAliasWrite a second id data => Sys2Proof.Machine.execQuoinAliasWrite a second id data s
  | .joinWord link w0 => Sys2Proof.Machine.execJoinWord link w0 s
  | .pairWord link w0 w1 => Sys2Proof.Machine.execPairWord link w0 w1 s
  | .aliasQuery link w0 => Sys2Proof.Machine.execAliasQuery link w0 s
  | .aliasAnswer link w0 w1 w2 => Sys2Proof.Machine.execAliasAnswer link w0 w1 w2 s
  | .quoinData link unit words => Sys2Proof.Machine.execQuoinData link unit words s
  | .ready link => Sys2Proof.Machine.execReady link s
  | .commitWord link => Sys2Proof.Machine.execCommitWord link s
  | .quoinCommitAck link => Sys2Proof.Machine.execQuoinCommitAck link s
  | .resend link => Sys2Proof.Machine.execResend link s
  | .ringWord link w0 => Sys2Proof.Machine.execRingWord link w0 s
  | .signature link w0 w1 w2 w3 w4 => Sys2Proof.Machine.execSignature link w0 w1 w2 w3 w4 s
  | .outcome link w0 w1 w2 w3 => Sys2Proof.Machine.execOutcome link w0 w1 w2 w3 s
  | .halt link w0 => Sys2Proof.Machine.execHalt link w0 s
  | .linkDown link => Sys2Proof.Machine.execLinkDown link s
  | .linkHandshakeTimeout link => Sys2Proof.Machine.execLinkHandshakeTimeout link s
  | .pairCtlWrite id data => Sys2Proof.Machine.execPairCtlWrite id data s
  | .pairRetry id => Sys2Proof.Machine.execPairRetry id s
  | .pairSolo id => Sys2Proof.Machine.execPairSolo id s
  | .peerSilent => Sys2Proof.Machine.execPeerSilent s
  | .coolantFall => Sys2Proof.Machine.execCoolantFall s
  | .coolantRise => Sys2Proof.Machine.execCoolantRise s
  | .coolOk => Sys2Proof.Machine.execCoolOk s
  | .coolResume id => Sys2Proof.Machine.execCoolResume id s
  | .controlPeriod slack => Sys2Proof.Machine.execControlPeriod slack s
  | .controlComputeDone => Sys2Proof.Machine.execControlComputeDone s
  | .latePeriod => Sys2Proof.Machine.execLatePeriod s
  | .quiet => Sys2Proof.Machine.execQuiet s
  | .dawnStep => Sys2Proof.Machine.execDawnStep s
  | .duskStep => Sys2Proof.Machine.execDuskStep s
  | .staggerHoldEnd => Sys2Proof.Machine.execStaggerHoldEnd s
  | .rampMarginEnd => Sys2Proof.Machine.execRampMarginEnd s
  | .vrqAck => Sys2Proof.Machine.execVrqAck s
  | .vreqSlow => Sys2Proof.Machine.execVreqSlow s
  | .groupEnable id data => Sys2Proof.Machine.execGroupEnable id data s
  | .groupDisable id data => Sys2Proof.Machine.execGroupDisable id data s
  | .paceWordSend => Sys2Proof.Machine.execPaceWordSend s
  | .paceUp w0 w1 => Sys2Proof.Machine.execPaceUp w0 w1 s
  | .paceDown w0 w1 => Sys2Proof.Machine.execPaceDown w0 w1 s
  | .groupLeave w0 w1 => Sys2Proof.Machine.execGroupLeave w0 w1 s
  | .childLost c => Sys2Proof.Machine.execChildLost c s
  | .parentLost => Sys2Proof.Machine.execParentLost s
  | .mbDataWrite ch id data => Sys2Proof.Machine.execMbDataWrite ch id data s
  | .mbAckWrite ch id data => Sys2Proof.Machine.execMbAckWrite ch id data s
  | .mbBindWrite ch id data => Sys2Proof.Machine.execMbBindWrite ch id data s
  | .mbLock id => Sys2Proof.Machine.execMbLock id s
  | .mbTimeout ch => Sys2Proof.Machine.execMbTimeout ch s
  | .dbRing id data => Sys2Proof.Machine.execDbRing id data s
  | .dbRingRemote id data => Sys2Proof.Machine.execDbRingRemote id data s
  | .msqRestart id => Sys2Proof.Machine.execMsqRestart id s
  | .watchdog => Sys2Proof.Machine.execWatchdog s
  | .pkeOutcome code => Sys2Proof.Machine.execPkeOutcome code s
  | .pkeTimeout => Sys2Proof.Machine.execPkeTimeout s
  | .reqEvening id => Sys2Proof.Machine.execReqEvening id s
  | .reqNight id => Sys2Proof.Machine.execReqNight id s
  | .reqActive id => Sys2Proof.Machine.execReqActive id s
  | .entryDrained => Sys2Proof.Machine.execEntryDrained s
  | .wake => Sys2Proof.Machine.execWake s
  | .wakeComplete found => Sys2Proof.Machine.execWakeComplete found s
  | .seqEn id on => Sys2Proof.Machine.execSeqEn id on s
  | .testLock id => Sys2Proof.Machine.execTestLock id s
  | .testStepPhases id grants => Sys2Proof.Machine.execTestStepPhases id grants s
  | .testStepTicks id count => Sys2Proof.Machine.execTestStepTicks id count s
  | .wsBypass => Sys2Proof.Machine.execWsBypass s
  | .wsExtest boundary => Sys2Proof.Machine.execWsExtest boundary s
  | .wsIntestRing boundary => Sys2Proof.Machine.execWsIntestRing boundary s
  | .wxRegacc dr => Sys2Proof.Machine.execWxRegacc dr s
  | .wxStep dr grants => Sys2Proof.Machine.execWxStep dr grants s
  | .wxSig => Sys2Proof.Machine.execWxSig s
  | .keyFragmentGenerated slice => Sys2Proof.Machine.execKeyFragmentGenerated slice s
  | .imageHashDone => Sys2Proof.Machine.execImageHashDone s
  | .spareBankZeroFillDone slice bank => Sys2Proof.Machine.execSpareBankZeroFillDone slice bank s
  | .resetInputAsserted powerOn => Sys2Proof.Machine.execResetInputAsserted powerOn s
  | .supplyLoss => Sys2Proof.Machine.execSupplyLoss s
  | .pkeFurtherWaitEnd => Sys2Proof.Machine.execPkeFurtherWaitEnd s

end Sys2Proof.Machine
end

