-- ==== Sys2Proof/Safety.lean ====
section
/-!
DEFINITION. The terms that claims use: what counts as a safe step, when a register access is answered, which stored
registers a command may change, and which register a command of the register port writes.
-/
namespace Sys2Proof.Machine

/-- The bank storage of a state is in canonical form. -/
def State.wf (s : State) : Bool := s.cells.wf

/-- A step is safe: it stops on no fault and no refusal, and the state it leads to is well formed. -/
def State.SafeStep (s : State) : Prop := ∃ s', step s = .next s' ∧ s'.wf

/-- Is an access by `id` to the register at `off` answered: neither denied for its identity (R360) nor gated (R403)? -/
def Ctl.answers (c : Ctl) (id : Byte) (off : Nat) : Bool := decide (id ≠ 0xFF) && !c.gated off

/-- Does the block take a register command and answer its access? -/
def State.reaches (s : State) (i : Instr) (id : Byte) (off : Nat) : Bool := s.takes i && s.ctl.answers id off

/-- Does the block take a command on a channel or on DB_RING and answer its access: one of the register port's masters, or the
firmware's own (log entry 39)? -/
def State.serves (s : State) (i : Instr) (id : Byte) (off : Nat) : Bool :=
  s.takes i && (s.ctl.answers id off || s.ctl.firmwareOwn id)

/-- `t` is `s` but for the stored registers listed, and REG_RDATA, which reads `v`. -/
def State.setsRegs (s t : State) (offs : List Nat) (v : Word) : Prop :=
  t = { s with ctl := { s.ctl with regs := t.ctl.regs, regRdata := v } } ∧
  ∀ off, off ∉ offs → t.ctl.reg off = s.ctl.reg off

/-- Every stored register but those listed keeps its value. -/
def Ctl.keeps (c c' : Ctl) (offs : List Nat) : Prop := ∀ off, off ∉ offs → c'.reg off = c.reg off

/-- Is the memory path calm for a domain: no burst waits for a translation, and none of the domain is cached? What is requested
then waits for a walk. -/
def Ctl.calm (c : Ctl) (domain : Nat) : Bool :=
  (c.mem.bursts.all fun b => b.state ≠ .need) && c.xlates.all fun x => x.domain ≠ domain

/-- The state in which the checks of step 4 run: a TILE_OP has taken its key stream (R138). -/
def Ctl.atStep4 (c : Ctl) (d : Desc) : Ctl := if d.kind = 1 then c.takeStream d else c

/-- The checks of step 4 for the kinds that go on to step 5, in their order (R134 to R138, R177, R197, R259, R302). -/
def Ctl.kindChecks (c : Ctl) (d : Desc) : Chk :=
  if d.kind = 1 then
    firstFail [(!(d.takesKey && d.partner.isNone), 0x10, 1)] <|> c.formCheck d <|> c.streamChecks d <|> c.tileChecks d <|>
      c.unitCheck d <|> c.poisonCheck d
  else if d.kind = 4 then c.formCheck d <|> c.tileChecks d <|> c.overlapCheck d <|> c.poisonCheck d
  else if d.kind = 8 then c.formCheck d <|> c.tileChecks d <|> c.routeChecks d <|> c.poisonCheck d
  else if d.kind ∈ [5, 6, 7, 10] then c.formCheck d <|> c.tileChecks d <|> d.indexChecks <|> c.poisonCheck d
  else c.formCheck d <|> c.tileChecks d <|> c.poisonCheck d

/-- Is `d` the descriptor of its kind that the ring's kind command acts on: at step 4, alone under its index, admission going
on? -/
def Ctl.admits (c : Ctl) (ring kind : Nat) (d : Desc) : Prop :=
  c.atCheck ring = some d ∧ (c.descs.filter fun e => e.key = d.key) = [d] ∧ d.kind = kind ∧ d.viaLink = none ∧ c.admitting = true

/-- A descriptor has completed with a status and detail. -/
def Ctl.endsWith (c : Ctl) (k : Key) (status detail : Nat) : Prop :=
  ∃ e, c.desc? k = some e ∧ e.stage = .final ∧ e.status = status ∧ e.detail = detail

/-- A descriptor has concluded with a status and detail: it has completed, or in a pair, where the status is compared and not
reconciled, it waits with it for the peer's signature (R316 to R318). -/
def Ctl.concludes (c : Ctl) (k : Key) (status detail : Nat) : Prop :=
  ∃ e, c.desc? k = some e ∧ e.status = status ∧ e.detail = detail ∧
    (e.stage = .final ∨ (c.paired = true ∧ reconciled status = false ∧ e.stage = .peer))

/-- No ring but k waits to be enabled (R393). -/
def Ctl.noneWaits (c : Ctl) (k : Nat) : Prop := ∀ r < 64, r ≠ k → c.enableWaits r = false

/-- Is an access the one read of a scrub visit to a physical row, alone at its bank and alone for its row? -/
def Ctl.visitAlone (c : Ctl) (n pb pr : Nat) (j : Job) : Prop :=
  j.purpose = .scrubRead ∧ j.req = 12 ∧ (c.jobs.filter fun x => x.slice = n && x.phys = some pb && x.row = pr) = [j] ∧
    c.soleJob n pb j = true ∧ 12 < (c.arb (.bank n pb)).reqs.length

/-- Does service n run, of descriptor d, with nothing failed and no memory access of its own under way? -/
def Ctl.runsService (c : Ctl) (n : Nat) (v : Svc) (d : Desc) : Prop :=
  c.msq.svc = some v ∧ v.number = n ∧ v.key = some d.key ∧ c.desc? d.key = some d ∧ d.key.sub = 0 ∧ d.stage = .run ∧
    v.failed = none ∧ c.svcBusy = false

/-- A 32-bit counter register went up by n, saturating. -/
def Ctl.counted (c c' : Ctl) (off n : Nat) : Prop :=
  (c'.reg off).toNat = min ((c.reg off).toNat + n) (2 ^ 32 - 1)

end Sys2Proof.Machine

namespace Sys2Proof
open Sys2Proof.Machine

/-- Does the command change bank storage? -/
def Instr.storage : Instr → Bool
  | .zeroFillDone _ => true
  | .round _ _ _ _ => true
  | .scrubVisit _ _ _ _ _ => true
  | .wakeComplete _ => true
  | _ => false

/-- The commands that the MSQ's firmware has as its own accesses: channels and DB_RING (R364, R368). -/
def Instr.msqMay : Instr → Bool
  | .mbDataWrite _ _ _ => true
  | .mbAckWrite _ _ _ => true
  | .dbRing _ _ => true
  | .dbRingRemote _ _ => true
  | _ => false

/-- The counters a counter-clear command sets to zero: who writes, where, and the registers (Tables 2.16, 3.9, 5.10, 6.21,
7.6, 8.9, 10.26, 11.13, 12.9). -/
def Instr.clears (p : Part) : Instr → Option (Byte × Nat × List Nat)
  | .latchCntClear n id => some (id, rLATCH_CTL n, [rLATCH_HITS n, rLATCH_MISSES n])
  | .ksCntClear id => some (id, rKS_CNT_CLEAR,
      [rMIG_DONE, rMIG_ABANDON, rSTARVED_COUNT, rLENT] ++ (List.range p.slices).map rCOLLIDE)
  | .xnCntClear id => some (id, rXN_CNT_CLEAR,
      [rPERM_VECTORS, rADDR_BEATS, rADDR_STALLS, rMODE_SWITCHES, rREFUSALS, rXN_ERR, rQUOIN_OUT_VECTORS, rQUOIN_IN_COMMITS])
  | .mpCntClear id => some (id, rMP_CNT_CLEAR,
      [rRD_BURSTS, rWR_BURSTS, rATC_HITS, rATC_MISSES, rWALK_FAULTS, rWALK_TIMEOUTS, rREMOTE_FAILS, rDATA_ERRS] ++
      [rPF_DROPPED, rPF_SKIPPED, rKEY_PERMS, rKEY_WORDS])
  | .intCntClear id => some (id, rINT_CNT_CLEAR, [rREREADS, rRESTARTS, rPOISON_EVENTS, rNET_FAULTS])
  | .accCntClear n id => some (id, rACC_CTL n,
      [rACC_APPLIED n, rACC_MERGED n, rGATHER_REQS n, rWAVE_WAIT n, rREDUCE_ROWS n])
  | .portCntClear n id => some (id, rPORT_CTL n, [rOP_BEATS n, rW_BEATS n, rPORT_GONE n, rPORT_ERR n])
  | .pwrCntClear id => some (id, rPWR_CNT_CLEAR, [rLATE_PERIODS, rHELD_TICKS, rCOOL_STOPS])
  | .svcCntClear id => some (id, rSVC_CNT_CLEAR, [rSVC_DONE, rSVC_FAIL])
  | _ => none

/-- The write that a command of the register port stands for: identity, offset, data; none for the other commands, and for a
write whose data makes it another row's. -/
def Instr.write? : Instr → Option (Byte × Nat × Word)
  | .registerWrite off id d => some (id, off, d)
  | .contractSelWrite id d => some (id, rCONTRACT_SEL, d)
  | .modqTableWrite i id d => some (id, rMODQ_TABLE i, d)
  | .reserveMibWrite id d => some (id, rKS_RESERVE, d)
  | .genCommit id => some (id, rGEN_COMMIT, 1)
  | .latchCntClear n id => some (id, rLATCH_CTL n, 1)
  | .ksCntClear id => some (id, rKS_CNT_CLEAR, 1)
  | .xnCntClear id => some (id, rXN_CNT_CLEAR, 1)
  | .mpCntClear id => some (id, rMP_CNT_CLEAR, 1)
  | .arbCntClear n id => some (id, rARB_CNT_CLEAR n, 1)
  | .arbBcntClear id => some (id, rARB_BCNT_CLEAR, 1)
  | .intCntClear id => some (id, rINT_CNT_CLEAR, 1)
  | .intSliceClear n id => some (id, rINT_SLICE_CLEAR n, 1)
  | .accCntClear n id => some (id, rACC_CTL n, 1)
  | .portCntClear n id => some (id, rPORT_CTL n, 8)
  | .pwrCntClear id => some (id, rPWR_CNT_CLEAR, 1)
  | .actCntClear id => some (id, rACT_CNT_CLEAR, 1)
  | .svcCntClear id => some (id, rSVC_CNT_CLEAR, 1)
  | .errLogPop id => some (id, rERR_LOG_CTL, 1)
  | .ringEnable k id => some (id, rRING_CTL k, 1)
  | .ringDisable k id => some (id, rRING_CTL k, 0)
  | .ringAbort k id => some (id, rRING_CTL k, 0x100)
  | .tokenValueWrite t id d => some (id, rTOKEN_VALUE t, d)
  | .pairCtlWrite id d => some (id, rPAIR_CTL, d)
  | .pairRetry id => some (id, rPAIR_CMD, 1)
  | .pairSolo id => some (id, rPAIR_CMD, 2)
  | .coolResume id => some (id, rCOOL_CTL, 1)
  | .mbDataWrite ch id d => some (id, rMB_DATA ch, d)
  | .mbAckWrite ch id d => some (id, rMB_ACK ch, d)
  | .mbBindWrite ch id d => some (id, rMB_BIND ch, d)
  | .mbLock id => some (id, rMB_LOCK, 1)
  | .dbRing id d => if bit d 12 then none else some (id, rDB_RING, d)
  | .dbRingRemote id d => if bit d 12 then some (id, rDB_RING, d) else none
  | .msqRestart id => some (id, rMSQ_CTL, 1)
  | .blockReset id _ => some (id, rRESET_CTL, 1)
  | .funcRings id => some (id, rRESET_CTL, funcWord 1)
  | .funcTranslation id => some (id, rRESET_CTL, funcWord 2)
  | .funcMsq id => some (id, rRESET_CTL, funcWord 3)
  | .funcPower id => some (id, rRESET_CTL, funcWord 4)
  | .funcCounters id => some (id, rRESET_CTL, funcWord 5)
  | .join id d => if bit d 0 then some (id, rQUOIN_CTL, d) else none
  | .quoinAliasWrite a b id d => some (id, if b then rQUOIN_ALIAS_B a else rQUOIN_ALIAS_A a, d)
  | .testLock id => some (id, rTEST_CTL, 0x100)
  | .seqEn id on => some (id, rTEST_CTL, if on then 1 else 0)
  | _ => none

end Sys2Proof
end

