-- ==== Sys2Proof/Certificates/Slice0/Obligations.lean ====
section
/-!
DEFINITION. The statements for the provers. Each docstring names the rules of spec/ it formalises; a clause that rests on a
choice of the model names its log entry. `exec i s = .next t` with hypotheses on the state and the operands alone says that the
command completes there; `s.takes i` is: the block is supplied, no reset runs, and the operands name parts it has.
-/
open Sys2Proof Sys2Proof.Machine

/-! ### The whole machine -/

/-- A step executes the command at the front of the queue with the queue's rest; on an empty queue the block idles (the
model's choice, log entry 3). -/
def Obligations.StepRunsFrontCommand : Prop :=
  (∀ (i : Instr) (s : State), step (s.withCommand i) = exec i s) ∧ ∀ s : State, s.pending = [] → step s = .next s

/-- At reset the bank storage is in canonical form. -/
def Obligations.ResetStorageCanonical : Prop := State.reset.wf = true

/-- Every step keeps the bank storage in canonical form. -/
def Obligations.StepKeepsStorageCanonical : Prop :=
  ∀ s t : State, s.wf = true → step s = .next t → t.wf = true

/-- No command stops the block: each, on every state, answers a next state (log entry 1). The frame of every command: none touches
the queue, and only ROUND, SCRUB_VISIT, ZERO_FILL_DONE and WAKE_COMPLETE (its check pass, R404) change bank storage. -/
def Obligations.CommandsCompleteAndFrame : Prop :=
  (∀ (i : Instr) (s t : State), exec i s = .next t → t.pending = s.pending ∧ (i.storage = false → t.cells = s.cells)) ∧
  (∀ (i : Instr) (s : State), ∃ t, exec i s = .next t)

/-- Off (R427): SUPPLY_LOSS puts a supplied block there, and no command but the release of the power-on input changes it. -/
def Obligations.OffUntilPowerOn : Prop :=
  (∀ s : State, s.ctl.off = false → exec .supplyLoss s = .next { s with ctl := { s.ctl with off := true } }) ∧
  ∀ (i : Instr) (s : State), s.ctl.off = true → (∀ b, i ≠ .powerOnReset b) → exec i s = .next s

/-- A denied write (R360, R362, R366, R368, R392, R429) changes nothing but MB_DENY, which records DENIED, the offset and the
identity, and in Night sets NIGHT_ACCESS. In Night (R403) a write that is not denied, outside the regions that answer there, changes nothing but
NIGHT_ACCESS, which it sets. -/
def Obligations.DeniedAndGatedWrites : Prop :=
  (∀ (s : State) (i : Instr) (id : Byte) (off : Nat) (d : Word),
    i.write? = some (id, off, d) → s.takes i = true →
    ((id = 0xFF ∧ (i.msqMay && s.ctl.firmwareOwn id) = false) ∨ s.ctl.mayAccess id off true d = false) →
    ∃ t, exec i s = .next t ∧ s.setsRegs t [rMB_DENY, rPSTATE_STATUS] 0 ∧
      bit (t.ctl.reg rMB_DENY) 31 = true ∧ fld (t.ctl.reg rMB_DENY) 0 8 = id.toNat ∧
      fld (t.ctl.reg rMB_DENY) 20 10 = off / 4 % 1024 ∧ fld (t.ctl.reg rMB_DENY) 16 4 = off / 2 ^ 16 % 16 ∧
      t.ctl.reg rPSTATE_STATUS =
        (if s.ctl.gated off then s.ctl.reg rPSTATE_STATUS ||| 1#32 <<< 18 else s.ctl.reg rPSTATE_STATUS)) ∧
  (∀ (s : State) (i : Instr) (id : Byte) (off : Nat) (d : Word),
    i.write? = some (id, off, d) → s.takes i = true → id ≠ 0xFF → s.ctl.mayAccess id off true d = true →
    s.ctl.pstate = 4 → nightAnswers off = false →
    ∃ t, exec i s = .next t ∧ s.setsRegs t [rPSTATE_STATUS] 0 ∧
      t.ctl.reg rPSTATE_STATUS = s.ctl.reg rPSTATE_STATUS ||| 1#32 <<< 18)

/-! ### Registers with a rule of their own -/

/-- The thirteen counter clears complete with the named counters at 0 and nothing else changed. LATCH_, KS_, XN_, MP_, INT_, ACC_, PORT_, PWR_ and
SVC_CNT_CLEAR (Tables 2.16, 3.9, 5.10, 6.10, 7.6, 8.13, 10.14, 11.13, 12.19): the registers that `Instr.clears` lists from those tables.
INT_SLICE_CLEAR: also the fault count of SLICE_HEALTH and no other bit of it. ARB_CNT_CLEAR and ARB_BCNT_CLEAR (R288): GRANTS, WAITS, LONGEST and
the open run of the arbiters of the selected KIND, of a slice or of the block; credits, ages and other arbiters stay. ACT_CNT_CLEAR: the
activity counters alone. -/
def Obligations.CounterClears : Prop :=
  ((∀ (s : State) (n : Nat) (i : Instr) (id : Byte) (off : Nat) (offs : List Nat),
    i ∈ [.latchCntClear n id, .ksCntClear id, .xnCntClear id, .mpCntClear id, .intCntClear id, .accCntClear n id,
      .portCntClear n id, .pwrCntClear id, .svcCntClear id] →
    i.clears s.ctl.part = some (id, off, offs) → s.reaches i id off = true →
    ∃ t, exec i s = .next t ∧ s.setsRegs t offs 0 ∧ ∀ o ∈ offs, t.ctl.reg o = 0) ∧
  ∀ (s : State) (n : Nat) (id : Byte), s.reaches (.intSliceClear n id) id (rINT_SLICE_CLEAR n) = true →
    ∃ t, exec (.intSliceClear n id) s = .next t ∧
      s.setsRegs t [rCE_COUNT n, rUE_COUNT n, rSCRUB_PASSES n, rSCRUB_LAG n, rSLICE_HEALTH n] 0 ∧
      (∀ o ∈ [rCE_COUNT n, rUE_COUNT n, rSCRUB_PASSES n, rSCRUB_LAG n], t.ctl.reg o = 0) ∧
      ∀ j, bit (t.ctl.reg (rSLICE_HEALTH n)) j = (bit (s.ctl.reg (rSLICE_HEALTH n)) j && !(8 ≤ j && j < 16))) ∧
  ((∀ (s : State) (n : Nat) (id : Byte), s.reaches (.arbCntClear n id) id (rARB_CNT_CLEAR n) = true →
    exec (.arbCntClear n id) s = .next { s with ctl := { s.ctl with
      arbs := s.ctl.arbs.map fun p =>
        if (sliceArbs n (s.ctl.rf (rARB_SEL n) 8 2)).contains p.1 then (p.1, p.2.cleared) else p
      regRdata := 0 } }) ∧
  (∀ (s : State) (id : Byte), s.reaches (.arbBcntClear id) id rARB_BCNT_CLEAR = true →
    exec (.arbBcntClear id) s = .next { s with ctl := { s.ctl with
      arbs := s.ctl.arbs.map fun p =>
        if (s.ctl.rf rARB_BSEL 8 2 = 0 ∧ ∃ ch < s.ctl.part.channels, p.1 = arbKey (.channel ch)) ∨
            (s.ctl.rf rARB_BSEL 8 2 = 1 ∧ p.1 = arbKey .mode) then (p.1, p.2.cleared) else p
      regRdata := 0 } }) ∧
  (∀ (s : State) (id : Byte), s.reaches (.actCntClear id) id rACT_CNT_CLEAR = true →
    exec (.actCntClear id) s =
      .next { s with ctl := { s.ctl with power := { s.ctl.power with acts := [] }, regRdata := 0 } }))

/-- A read of CNT_GRANT_LO captures the sums of the selected KIND and requester in all four counter registers, so that the
other three belong to the same moment (R288). -/
def Obligations.CounterReadCaptures : Prop :=
  (∀ (s : State) (n : Nat) (id : Byte), s.reaches (.cntGrantLoRead false n id) id (rCNT_GRANT_LO n) = true →
    ∃ t v, v = s.ctl.counterSum (sliceArbs n (s.ctl.rf (rARB_SEL n) 8 2)) (s.ctl.rf (rARB_SEL n) 12 4) ∧
      exec (.cntGrantLoRead false n id) s = .next t ∧
      s.setsRegs t [rCNT_GRANT_LO n, rCNT_GRANT_HI n, rCNT_WAIT_LO n, rCNT_WAIT_HI n] (word v.1) ∧
      t.ctl.reg (rCNT_GRANT_HI n) = word (v.1 / 2 ^ 32 + v.2.2 * 2 ^ 16) ∧
      t.ctl.reg (rCNT_WAIT_LO n) = word v.2.1 ∧ t.ctl.reg (rCNT_WAIT_HI n) = word (v.2.1 / 2 ^ 32)) ∧
  ∀ (s : State) (n : Nat) (id : Byte), s.reaches (.cntGrantLoRead true n id) id rBCNT_GRANT_LO = true →
    ∃ t v, v = s.ctl.counterSum (s.ctl.blockArbs (s.ctl.rf rARB_BSEL 8 2) (s.ctl.rf rARB_BSEL 0 3)) (s.ctl.rf rARB_BSEL 12 4) ∧
      exec (.cntGrantLoRead true n id) s = .next t ∧
      s.setsRegs t [rBCNT_GRANT_LO, rBCNT_GRANT_HI, rBCNT_WAIT_LO, rBCNT_WAIT_HI] (word v.1) ∧
      t.ctl.reg rBCNT_GRANT_HI = word (v.1 / 2 ^ 32 + v.2.2 * 2 ^ 16) ∧
      t.ctl.reg rBCNT_WAIT_LO = word v.2.1 ∧ t.ctl.reg rBCNT_WAIT_HI = word (v.2.1 / 2 ^ 32)

/-- Reading TICK_LO of a counter answers its low half and latches its upper 16 bits into TICK_HI of the same counter, and a read
of TICK_HI answers the latched value (R34); REF_TICK_LO does so with the counter of the reference slice (R49). The read of TICK_HI
is made here by WX_REGACC, the one command that reads any register. -/
def Obligations.TickLowReadLatchesHigh : Prop :=
  (∀ (s : State) (n : Nat) (dr : BitVec 59), n < s.ctl.slicesN → s.takes (.wxRegacc dr) = true → dr.getLsbD 18 = false →
    4 * (dr.extractLsb' 0 18).toNat = rTICK_HI n → s.ctl.answers (dr.extractLsb' 19 8) (rTICK_HI n) = true →
    ∃ t, exec (.wxRegacc dr) s = .next t ∧ t.ctl.regs = s.ctl.regs ∧ t.ctl.regRdata = s.ctl.reg (rTICK_HI n)) ∧
  (∀ (s : State) (n : Nat) (id : Byte), s.reaches (.tickLoRead n id) id (rTICK_LO n) = true →
    ∃ t, exec (.tickLoRead n id) s = .next t ∧ s.setsRegs t [rTICK_HI n] (word (s.ctl.slice n).ticks) ∧
      t.ctl.reg (rTICK_HI n) = word ((s.ctl.slice n).ticks / 2 ^ 32 % 2 ^ 16)) ∧
  ∀ (s : State) (id : Byte), s.reaches (.refTickLoRead id) id rREF_TICK_LO = true →
    ∃ t, exec (.refTickLoRead id) s = .next t ∧
      s.setsRegs t [rREF_TICK_HI] (word (s.ctl.slice s.ctl.refSlice).ticks) ∧
      t.ctl.reg rREF_TICK_HI = word ((s.ctl.slice s.ctl.refSlice).ticks / 2 ^ 32 % 2 ^ 16)

/-- CONTRACT_SEL (R38): a supported version is taken; an unsupported one leaves the fields and sets SEL_ERR, even where the
same write clears it; under SEL_LOCKED nothing changes and no flag is set. -/
def Obligations.ContractSelection : Prop :=
  ∀ (s : State) (id : Byte) (d : Word), s.reaches (.contractSelWrite id d) id rCONTRACT_SEL = true →
    ∃ t, exec (.contractSelWrite id d) s = .next t ∧ s.setsRegs t [rCONTRACT_SEL] 0 ∧
      (bit (s.ctl.reg rCONTRACT_SEL) 16 = true → t.ctl.reg rCONTRACT_SEL = s.ctl.reg rCONTRACT_SEL) ∧
      (bit (s.ctl.reg rCONTRACT_SEL) 16 = false → s.ctl.supports (fld d 8 8) (fld d 0 8) = true →
        fld (t.ctl.reg rCONTRACT_SEL) 8 8 = fld d 8 8 ∧ fld (t.ctl.reg rCONTRACT_SEL) 0 8 = fld d 0 8 ∧
        bit (t.ctl.reg rCONTRACT_SEL) 17 = (bit (s.ctl.reg rCONTRACT_SEL) 17 && !bit d 17)) ∧
      (bit (s.ctl.reg rCONTRACT_SEL) 16 = false → s.ctl.supports (fld d 8 8) (fld d 0 8) = false →
        fld (t.ctl.reg rCONTRACT_SEL) 0 16 = fld (s.ctl.reg rCONTRACT_SEL) 0 16 ∧ bit (t.ctl.reg rCONTRACT_SEL) 17 = true)

/-- The modulus table (R74): an odd modulus from 3 to 2^31 − 1, or 0, goes to the pending copy; every other value leaves the
entry unchanged and sets MODTAB_ERR, with the whole 32-bit value tested. The active copy changes at a commit alone, to the
pending one. -/
def Obligations.ModulusTableWrite : Prop :=
  (∀ (s : State) (i : Instr) (id : Byte), (i = .genCommit id ∧ s.reaches i id rGEN_COMMIT = true) ∨
      (i = .deferredGenerationCommit ∧ s.takes i = true ∧ s.ctl.deferredCommit = true) → s.ctl.converged = true →
    ∃ t, exec i s = .next t ∧ ∀ k < 64, t.ctl.reg (rMODQ_ACTIVE k) = s.ctl.reg (rMODQ_TABLE k)) ∧
  ∀ (s : State) (k : Nat) (id : Byte) (d : Word), s.reaches (.modqTableWrite k id d) id (rMODQ_TABLE k) = true →
    ∃ t, exec (.modqTableWrite k id d) s = .next t ∧ s.setsRegs t [rMODQ_TABLE k, rMODTAB_STATUS] 0 ∧
      (d = 0 ∨ (d.toNat % 2 = 1 ∧ 3 ≤ d.toNat ∧ d.toNat < 2 ^ 31) →
        t.ctl.reg (rMODQ_TABLE k) = d ∧ t.ctl.reg rMODTAB_STATUS = s.ctl.reg rMODTAB_STATUS) ∧
      ((d ≠ 0 ∧ d.toNat % 2 = 0) ∨ d = 1 ∨ 2 ^ 31 ≤ d.toNat →
        t.ctl.reg (rMODQ_TABLE k) = s.ctl.reg (rMODQ_TABLE k) ∧ bit (t.ctl.reg rMODTAB_STATUS) 16 = true)

/-- The rename reserve (R99): a value from 8 to 32 becomes the pending one; one below 8 or above 32 is ignored at the write and
sets RES_REJECT. At a commit the pending value becomes active where K ≤ C − 2048·V, and else RES_REJECT is set. -/
def Obligations.ReserveWrite : Prop :=
  (∀ (s : State) (i : Instr) (id : Byte), (i = .genCommit id ∧ s.reaches i id rGEN_COMMIT = true) ∨
      (i = .deferredGenerationCommit ∧ s.takes i = true ∧ s.ctl.deferredCommit = true) → s.ctl.converged = true →
    ∃ t, exec i s = .next t ∧
      (s.ctl.claimed + 2048 * fld (s.ctl.reg rKS_RESERVE) 0 6 ≤ s.ctl.capacity →
        fld (t.ctl.reg rKS_RESERVE) 8 6 = fld (s.ctl.reg rKS_RESERVE) 0 6) ∧
      (¬ s.ctl.claimed + 2048 * fld (s.ctl.reg rKS_RESERVE) 0 6 ≤ s.ctl.capacity →
        fld (t.ctl.reg rKS_RESERVE) 8 6 = fld (s.ctl.reg rKS_RESERVE) 8 6 ∧ bit (t.ctl.reg rKS_STATUS) 1 = true ∧
        bit (t.ctl.reg rGEN_STATUS) 0 = true)) ∧
  ∀ (s : State) (id : Byte) (d : Word), s.reaches (.reserveMibWrite id d) id rKS_RESERVE = true →
    ∃ t, exec (.reserveMibWrite id d) s = .next t ∧ s.setsRegs t [rKS_RESERVE, rKS_STATUS] 0 ∧
      (8 ≤ fld d 0 6 ∧ fld d 0 6 ≤ 32 →
        fld (t.ctl.reg rKS_RESERVE) 0 6 = fld d 0 6 ∧ fld (t.ctl.reg rKS_RESERVE) 8 6 = fld (s.ctl.reg rKS_RESERVE) 8 6 ∧
        t.ctl.reg rKS_STATUS = s.ctl.reg rKS_STATUS) ∧
      (fld d 0 6 < 8 ∨ 32 < fld d 0 6 →
        t.ctl.reg rKS_RESERVE = s.ctl.reg rKS_RESERVE ∧ bit (t.ctl.reg rKS_STATUS) 1 = true)

/-- REGISTER_WRITE by access codes (R16, Table 0.4), for a register without a rule of its own: RW and RWL bits take the data,
each 1 clears a W1C bit and sets a W1S bit, and every other bit stays. -/
def Obligations.RegisterWriteByCode : Prop :=
  ∀ (s : State) (off : Nat) (id : Byte) (d : Word) (r : RegRow),
    s.reaches (.registerWrite off id d) id off = true → s.ctl.mayAccess id off true d = true →
    off ≠ rTEST_CTL → off ≠ rTEST_STEP → s.ctl.listed off = some r →
    s.ctl.writeBlock off d = none → s.ctl.writeWindow off d = none →
    r.rw &&& r.w1c = 0 → r.rwl &&& r.w1c = 0 → r.rw &&& r.w1s = 0 → r.rwl &&& r.w1s = 0 → r.w1c &&& r.w1s = 0 →
    ∃ t, exec (.registerWrite off id d) s = .next t ∧ s.setsRegs t [off] 0 ∧
      ∀ j, bit (t.ctl.reg off) j =
        if bit r.rw j || bit r.rwl j then bit d j
        else if bit r.w1c j then bit (s.ctl.reg off) j && !bit d j
        else if bit r.w1s j then bit (s.ctl.reg off) j || bit d j
        else bit (s.ctl.reg off) j

/-! ### Mailboxes and doorbells -/

/-- A sender's write of MB_DATA (R363, R367): while FULL is clear it stores the word, clears ACKED and TIMEOUT and sets FULL, the
timeout starts, and the receiver's doorbell bit is set unless that is the MSQ (whose firmware may itself be the sender, log entry 39); while FULL is set it changes nothing and sets
OVERRUN. A word for an MSQ that takes none is withdrawn at once (R365). A read of MB_DATA changes no flag. -/
def Obligations.MailboxSend : Prop :=
  (∀ (s : State) (ch : Nat) (dr : BitVec 59), ch < 16 → s.takes (.wxRegacc dr) = true → dr.getLsbD 18 = false →
    4 * (dr.extractLsb' 0 18).toNat = rMB_DATA ch →
    ∃ t, exec (.wxRegacc dr) s = .next t ∧ ∀ x < 16, t.ctl.reg (rMB_STATUS x) = s.ctl.reg (rMB_STATUS x)) ∧
  ∀ (s : State) (ch : Nat) (id : Byte) (d : Word),
    s.serves (.mbDataWrite ch id d) id (rMB_DATA ch) = true → s.ctl.mbSender ch = some id.toNat →
    ∃ t, exec (.mbDataWrite ch id d) s = .next t ∧
      t = { s with ctl := { s.ctl with regs := t.ctl.regs, mbDeadline := t.ctl.mbDeadline, regRdata := 0 } } ∧
      s.ctl.keeps t.ctl [rMB_DATA ch, rMB_STATUS ch, rDB_PEND] ∧
      (bit (s.ctl.reg (rMB_STATUS ch)) 0 = true →
        t.ctl.mbDeadline = s.ctl.mbDeadline ∧ t.ctl.reg (rMB_DATA ch) = s.ctl.reg (rMB_DATA ch) ∧
        t.ctl.reg rDB_PEND = s.ctl.reg rDB_PEND ∧
        t.ctl.reg (rMB_STATUS ch) = s.ctl.reg (rMB_STATUS ch) ||| 1#32 <<< 3) ∧
      (bit (s.ctl.reg (rMB_STATUS ch)) 0 = false → s.ctl.mbDeaf ch = false →
        t.ctl.reg (rMB_DATA ch) = d ∧ bit (t.ctl.reg (rMB_STATUS ch)) 0 = true ∧
        bit (t.ctl.reg (rMB_STATUS ch)) 1 = false ∧ bit (t.ctl.reg (rMB_STATUS ch)) 2 = false ∧
        t.ctl.mbDeadline = s.ctl.mbDeadline.set ch (s.ctl.refTicks + max 1 (s.ctl.rf rMB_CFG 0 16) + 1) ∧
        t.ctl.reg rDB_PEND = (if s.ctl.mbReceiver ch = some 0xFF then s.ctl.reg rDB_PEND
          else s.ctl.reg rDB_PEND ||| 1#32 <<< ch)) ∧
      (bit (s.ctl.reg (rMB_STATUS ch)) 0 = false → s.ctl.mbDeaf ch = true →
        t.ctl.reg (rMB_DATA ch) = d ∧ bit (t.ctl.reg (rMB_STATUS ch)) 0 = false ∧
        bit (t.ctl.reg (rMB_STATUS ch)) 2 = true ∧ bit (t.ctl.reg rDB_PEND) ch = true)

/-- A receiver's write of MB_ACK (R364, R367): while FULL is set it stores the 16-bit code, clears FULL, sets ACKED and the
sender's doorbell bit unless that is the MSQ; while FULL is clear it changes nothing and sets LATE_ACK. -/
def Obligations.MailboxAcknowledge : Prop :=
  ∀ (s : State) (ch : Nat) (id : Byte) (d : Word),
    s.serves (.mbAckWrite ch id d) id (rMB_ACK ch) = true → s.ctl.mbReceiver ch = some id.toNat →
    ∃ t, exec (.mbAckWrite ch id d) s = .next t ∧
      t = { s with ctl := { s.ctl with regs := t.ctl.regs, mbDeadline := t.ctl.mbDeadline, regRdata := 0 } } ∧
      s.ctl.keeps t.ctl [rMB_ACK ch, rMB_STATUS ch, rDB_PEND] ∧
      (bit (s.ctl.reg (rMB_STATUS ch)) 0 = true →
        t.ctl.reg (rMB_ACK ch) = d &&& 0xFFFF ∧ bit (t.ctl.reg (rMB_STATUS ch)) 0 = false ∧
        bit (t.ctl.reg (rMB_STATUS ch)) 1 = true ∧ t.ctl.mbDeadline = s.ctl.mbDeadline.del ch ∧
        t.ctl.reg rDB_PEND = (if s.ctl.mbSender ch = some 0xFF then s.ctl.reg rDB_PEND
          else s.ctl.reg rDB_PEND ||| 1#32 <<< ch)) ∧
      (bit (s.ctl.reg (rMB_STATUS ch)) 0 = false →
        t.ctl.reg (rMB_ACK ch) = s.ctl.reg (rMB_ACK ch) ∧ t.ctl.reg rDB_PEND = s.ctl.reg rDB_PEND ∧
        t.ctl.mbDeadline = s.ctl.mbDeadline ∧
        t.ctl.reg (rMB_STATUS ch) = s.ctl.reg (rMB_STATUS ch) ||| 1#32 <<< 4)

/-- Bindings, the lock and the timeout (R365, R366): PRIV_MASTER's write of MB_BIND clears every flag of the channel and
discards its word, unless LOCK is set, when nothing changes; MB_LOCK sets LOCK; a word still FULL when its ticks have passed
is withdrawn: FULL clears and TIMEOUT sets. -/
def Obligations.MailboxBindingAndTimeout : Prop :=
  (∀ (s : State) (ch : Nat) (id : Byte) (d : Word), s.reaches (.mbBindWrite ch id d) id (rMB_BIND ch) = true →
    s.ctl.privMaster = some id.toNat →
    ∃ t, exec (.mbBindWrite ch id d) s = .next t ∧
      t = { s with ctl := { s.ctl with regs := t.ctl.regs, mbDeadline := t.ctl.mbDeadline, regRdata := 0 } } ∧
      s.ctl.keeps t.ctl [rMB_BIND ch, rMB_STATUS ch] ∧
      (bit (s.ctl.reg rMB_LOCK) 0 = false →
        t.ctl.reg (rMB_BIND ch) = d &&& 0x8000FFFF ∧ t.ctl.reg (rMB_STATUS ch) = 0 ∧
        t.ctl.mbDeadline = s.ctl.mbDeadline.del ch) ∧
      (bit (s.ctl.reg rMB_LOCK) 0 = true →
        t.ctl.reg (rMB_BIND ch) = s.ctl.reg (rMB_BIND ch) ∧ t.ctl.reg (rMB_STATUS ch) = s.ctl.reg (rMB_STATUS ch) ∧
        t.ctl.mbDeadline = s.ctl.mbDeadline)) ∧
  (∀ (s : State) (id : Byte), s.reaches (.mbLock id) id rMB_LOCK = true → s.ctl.privMaster = some id.toNat →
    ∃ t, exec (.mbLock id) s = .next t ∧ s.setsRegs t [rMB_LOCK] 0 ∧
      t.ctl.reg rMB_LOCK = s.ctl.reg rMB_LOCK ||| 1) ∧
  ∀ (s : State) (ch e : Nat), s.takes (.mbTimeout ch) = true → s.ctl.mbDeadline.find? (·.1 = ch) = some (ch, e) →
    e ≤ s.ctl.refTicks → s.ctl.pstate ≠ 4 →
    ∃ t, exec (.mbTimeout ch) s = .next t ∧
      t = { s with ctl := { s.ctl with regs := t.ctl.regs, mbDeadline := s.ctl.mbDeadline.del ch } } ∧
      s.ctl.keeps t.ctl [rMB_STATUS ch, rDB_PEND] ∧
      bit (t.ctl.reg (rMB_STATUS ch)) 0 = false ∧ bit (t.ctl.reg (rMB_STATUS ch)) 2 = true ∧
      (s.ctl.mbSender ch ≠ some 0xFF → bit (t.ctl.reg rDB_PEND) ch = true)

/-- Doorbells (R368): a ring of bit 16 to 31 by a master that may ring sets that bit of DB_PEND; one below 16 changes nothing
but RING_ERR; a remote ring goes out on the link of its instance, which must be joined and up, or sets RING_ERR (while the links are gated its word waits, R398); a peer's ring
sets the bit it names and records the sender's instance number in DB_FROM. -/
def Obligations.Doorbells : Prop :=
  (∀ (s : State) (id : Byte) (d : Word), s.serves (.dbRing id d) id rDB_RING = true → s.ctl.dbAllowed id = true →
    bit d 12 = false →
    ∃ t, exec (.dbRing id d) s = .next t ∧ s.setsRegs t [rDB_PEND, rDB_FROM] 0 ∧
      (16 ≤ fld d 0 5 → t.ctl.reg rDB_PEND = s.ctl.reg rDB_PEND ||| 1#32 <<< fld d 0 5 ∧
        t.ctl.reg rDB_FROM = s.ctl.reg rDB_FROM) ∧
      (fld d 0 5 < 16 → t.ctl.reg rDB_PEND = s.ctl.reg rDB_PEND ∧
        t.ctl.reg rDB_FROM = s.ctl.reg rDB_FROM ||| 1#32 <<< 31)) ∧
  (∀ (s : State) (id : Byte) (d : Word), s.serves (.dbRingRemote id d) id rDB_RING = true → s.ctl.dbAllowed id = true →
    bit d 12 = true → 16 ≤ fld d 0 5 →
    ∃ t, exec (.dbRingRemote id d) s = .next t ∧
      (s.ctl.joined = true → s.ctl.linkUp (fld d 8 2) = true → t.ctl.regs = s.ctl.regs ∧
        (s.ctl.linksGated = false → (s.ctl.link (s.ctl.linkTo (fld d 8 2))).owed = [] →
          t.ctl.outbox = s.ctl.outbox ++ [.link (s.ctl.linkTo (fld d 8 2)) 9 0 [word (fld d 0 5)]]) ∧
        (s.ctl.linksGated = true → t.ctl.outbox = s.ctl.outbox ∧ (t.ctl.link (s.ctl.linkTo (fld d 8 2))).owed =
          (s.ctl.link (s.ctl.linkTo (fld d 8 2))).owed ++ [(9, 0, [word (fld d 0 5)])])) ∧
      ((s.ctl.joined && s.ctl.linkUp (fld d 8 2)) = false →
        s.setsRegs t [rDB_FROM] 0 ∧ t.ctl.reg rDB_FROM = s.ctl.reg rDB_FROM ||| 1#32 <<< 31)) ∧
  ∀ (s : State) (l : Nat) (w : Word), s.takes (.ringWord l w) = true → s.ctl.joined = true → 16 ≤ fld w 0 5 →
    ∃ t, exec (.ringWord l w) s = .next t ∧ s.setsRegs t [rDB_PEND, rDB_FROM] s.ctl.regRdata ∧
      t.ctl.reg rDB_PEND = s.ctl.reg rDB_PEND ||| 1#32 <<< fld w 0 5 ∧
      fld (t.ctl.reg rDB_FROM) 0 2 = s.ctl.linkPeer l

/-! ### Power and pace -/

/-- The cap and meter inputs and the window (R333, R334, R425): a CAPM beat is held; a boundary, after the timeouts and the pacer's tick
that come before it (R434), closes the window, opens an empty one and samples CAP; a computation later than the 15th tick is discarded, with LATE_PERIOD and its count. -/
def Obligations.ControlPeriodBoundary : Prop :=
  (∀ (s : State) (cap meas : BitVec 12) (cv mv : Bool), s.takes (.capmBeat cap cv meas mv) = true →
    exec (.capmBeat cap cv meas mv) s = .next { s with ctl := { s.ctl with power := { s.ctl.power with
      cap := cap.toNat, capValid := cv, meas := meas.toNat, measValid := mv } } }) ∧
  (∀ (s : State) (slack : Nat) (c : Ctl), s.takes (.controlPeriod slack) = true → s.ctl.paceInTurn = c →
    c.power.periodDue = true → c.timeoutsDue = false → s.ctl.power.cap < 2 ^ 12 →
    ∃ t, exec (.controlPeriod slack) s = .next t ∧ t.ctl.power.closed = some c.power.win ∧
      t.ctl.power.closedAt = s.ctl.refTicks ∧ t.ctl.power.win = Window.empty ∧ t.ctl.power.periodDue = false ∧
      t.ctl.power.pace = c.power.pace ∧ t.ctl.power.target = c.power.target ∧
      fld (t.ctl.reg rCAP_STATUS) 16 12 = s.ctl.power.cap ∧
      bit (t.ctl.reg rCAP_STATUS) 31 = s.ctl.power.capValid ∧ (s.ctl.func = 4 → t.ctl.func = 0)) ∧
  (∀ (s : State) (w : Window), s.takes .latePeriod = true → s.ctl.power.closed = some w →
    s.ctl.power.closedAt + 16 ≤ s.ctl.refTicks →
    ∃ t, exec .latePeriod s = .next t ∧
      t = { s with ctl := { s.ctl with regs := t.ctl.regs, power := { s.ctl.power with closed := none } } } ∧
      s.ctl.keeps t.ctl [rPWR_EVT, rLATE_PERIODS] ∧ t.ctl.reg rPWR_EVT = s.ctl.reg rPWR_EVT ||| 1#32 <<< 1 ∧
      (t.ctl.reg rLATE_PERIODS).toNat = min ((s.ctl.reg rLATE_PERIODS).toNat + 1) (2 ^ 32 - 1)) ∧
  ∀ (s : State) (w : Window), s.takes .controlComputeDone = true → s.ctl.power.closed = some w →
    s.ctl.refTicks < s.ctl.power.closedAt + 16 →
    ∃ t x, exec .controlComputeDone s = .next t ∧ t.ctl.power.closed = none ∧ t.ctl.power.newTarget = some x ∧
      64 ≤ x.1 ∧ x.1 ≤ 2047 ∧ t.ctl.power.pace = s.ctl.power.pace

/-- Quiet, dawn, dusk, stagger and margin (R341 to R344): after QUIET_TICKS ticks without a paced beat the block is quiet with
g 1; a dawn step, 2^DAWN_LOG2 monitor beats after the one before it, raises g by one up to 16, and the step after that ends the ramp; a dusk step,
2^DUSK_LOG2 beats long, lowers g no further than its level; a stagger's hold ends in a dawn at g 1 with the ramp margin; the margin ends 4 ticks
after g reaches 16. -/
def Obligations.RampSteps : Prop :=
  (∀ s : State, s.takes .quiet = true → s.ctl.power.quiet = false → s.ctl.power.stopped = false →
    s.ctl.power.beatSeen = false → s.ctl.ticksOf rPWR_CTL 0 8 ≤ s.ctl.power.idleTicks →
    (∀ n, s.ctl.power.ramp ≠ .stagger n) →
    ∃ t, exec .quiet s = .next t ∧ t = { s with ctl := { s.ctl with power := t.ctl.power } } ∧
      t.ctl.power.quiet = true ∧ t.ctl.power.gate = 1 ∧ t.ctl.power.ramp = .none) ∧
  (∀ (s : State) (m : Nat), s.takes .dawnStep = true → s.ctl.power.ramp = .dawn →
    m = max s.ctl.power.mon (s.ctl.power.stepAt + 2 ^ max 4 (min 12 (s.ctl.rf rPWR_CTL 24 4))) →
    (s.ctl.power.gate < 16 →
      exec .dawnStep s = .next { s with ctl := { s.ctl with power := { s.ctl.power with
        mon := m, stepAt := m, gate := s.ctl.power.gate + 1,
        marginEnd := if s.ctl.power.gate = 15 then some (s.ctl.refTicks + 5) else s.ctl.power.marginEnd } } }) ∧
    (16 ≤ s.ctl.power.gate →
      exec .dawnStep s = .next { s with ctl := { s.ctl with power := { s.ctl.power with mon := m, stepAt := m, ramp := .none } } })) ∧
  (∀ (s : State) (lv p m : Nat), s.takes .duskStep = true → s.ctl.power.ramp = .dusk lv p →
    m = max s.ctl.power.mon (s.ctl.power.stepAt + 2 ^ max 4 (min 12 (s.ctl.rf rPWR_CTL 20 4))) →
    exec .duskStep s = .next { s with ctl := { s.ctl with power := { s.ctl.power with
      mon := m, stepAt := m, gate := if lv < s.ctl.power.gate then s.ctl.power.gate - 1 else s.ctl.power.gate } } }) ∧
  (∀ (s : State) (n : Nat), s.takes .staggerHoldEnd = true → s.ctl.power.ramp = .stagger n →
    ∃ t, exec .staggerHoldEnd s = .next t ∧ t.ctl.power.gate = 1 ∧ t.ctl.power.ramp = .dawn ∧ t.ctl.power.margin = true ∧
      t.ctl.regs = s.ctl.regs ∧ t.ctl.power.stepAt = max s.ctl.power.mon (s.ctl.power.stepAt + n)) ∧
  ∀ (s : State) (d : Nat), s.takes .rampMarginEnd = true → s.ctl.power.marginEnd = some d → d ≤ s.ctl.refTicks →
    exec .rampMarginEnd s = .next { s with ctl := { s.ctl with power := { s.ctl.power with
      margin := false, marginEnd := none } } }

/-- The regulator (R426): VRQ_ACK lets waiting beats go on, or, where V_req has changed since, sends the latest value; a wait
longer than VREQ_TICKS ends with VREQ_SLOW. -/
def Obligations.RegulatorHandshake : Prop :=
  (∀ s : State, s.takes .vrqAck = true → s.ctl.power.vbusy = true → s.ctl.power.vreq = s.ctl.power.vsent →
    exec .vrqAck s = .next { s with ctl := { s.ctl with power := { s.ctl.power with vbusy := false, vwait := none } } }) ∧
  (∀ s : State, s.takes .vrqAck = true → s.ctl.power.vbusy = true → s.ctl.power.vreq ≠ s.ctl.power.vsent →
    s.ctl.pstate ≠ 4 →
    exec .vrqAck s = .next { s with ctl := { s.ctl with
      power := { s.ctl.power with vsent := s.ctl.power.vreq }, outbox := s.ctl.outbox ++ [.vrq (s.ctl.power.vreq - 600)] } }) ∧
  ∀ (s : State) (d : Nat), s.takes .vreqSlow = true → s.ctl.power.vwait = some d → d ≤ s.ctl.refTicks →
    ∃ t, exec .vreqSlow s = .next t ∧
      t = { s with ctl := { s.ctl with regs := t.ctl.regs, power := { s.ctl.power with vwait := none } } } ∧
      s.ctl.keeps t.ctl [rBND_STATUS] ∧ t.ctl.reg rBND_STATUS = s.ctl.reg rBND_STATUS ||| 1#32 <<< 17

/-! ### Pace groups -/

/-- Pace words and their absence while the die takes part (R348, R350): a child's UP admits it with its value; the parent's DOWN
raises G and J and makes the die a MEMBER; a child's LEAVE removes it; a word that belongs to neither sets GROUP_MISMATCH. A child silent for
SILENT_TICKS is removed and CHILD_LOST set; when the parent is silent the die sets PARENT_LOST and becomes ROOT of its subtree. -/
def Obligations.PaceWordsAndSilence : Prop :=
  ((∀ (s : State) (w0 w1 : Word) (i : Nat), s.takes (.paceUp w0 w1) = true → s.ctl.inGroup = true → fld w1 28 4 = 1 →
    s.ctl.paceFrom w1 = .child i →
    exec (.paceUp w0 w1) s = .next { s with ctl := { s.ctl with group := { s.ctl.group with
      children := s.ctl.group.children.set i (w0.toNat, s.ctl.refTicks + max 1 (s.ctl.rf rGROUP_TIMING 8 8) + 1) } } }) ∧
  (∀ (s : State) (w0 w1 : Word), s.takes (.paceDown w0 w1) = true → s.ctl.inGroup = true → fld w1 28 4 = 2 →
    s.ctl.paceFrom w1 = .parent →
    ∃ t, exec (.paceDown w0 w1) s = .next t ∧ t = { s with ctl := { s.ctl with group := t.ctl.group } } ∧
      t.ctl.group.state = 2 ∧ t.ctl.group.minimum = gMax s.ctl.group.minimum w0.toNat ∧
      t.ctl.group.children = s.ctl.group.children ∧
      (notBelow s.ctl.group.units t.ctl.group.minimum = true → t.ctl.group.progress = s.ctl.group.progress) ∧
      (notBelow s.ctl.group.units t.ctl.group.minimum = false → t.ctl.group.progress = 256 * t.ctl.group.minimum)) ∧
  (∀ (s : State) (w0 w1 : Word) (i : Nat), s.takes (.groupLeave w0 w1) = true → s.ctl.inGroup = true → fld w1 28 4 = 3 →
    s.ctl.paceFrom w1 = .child i →
    exec (.groupLeave w0 w1) s = .next { s with ctl := { s.ctl with group := { s.ctl.group with
      children := s.ctl.group.children.del i } } }) ∧
  ∀ (s : State) (w0 w1 : Word) (i : Instr) (k : Nat),
    (i, k) ∈ [(.paceUp w0 w1, 1), (.paceDown w0 w1, 2), (.groupLeave w0 w1, 3)] → s.takes i = true →
    s.ctl.inGroup = true → fld w1 28 4 = k → s.ctl.paceFrom w1 = .other →
    ∃ t, exec i s = .next t ∧ s.setsRegs t [rPWR_EVT] s.ctl.regRdata ∧
      t.ctl.reg rPWR_EVT = s.ctl.reg rPWR_EVT ||| 1#32 <<< 8) ∧
  ((∀ (s : State) (i v d : Nat), s.takes (.childLost i) = true → s.ctl.inGroup = true →
    s.ctl.group.children.find? (·.1 = i) = some (i, v, d) → d ≤ s.ctl.refTicks →
    ∃ t, exec (.childLost i) s = .next t ∧
      t = { s with ctl := { s.ctl with regs := t.ctl.regs, group := { s.ctl.group with
        children := s.ctl.group.children.del i } } } ∧
      s.ctl.keeps t.ctl [rPWR_EVT] ∧ t.ctl.reg rPWR_EVT = s.ctl.reg rPWR_EVT ||| 1#32 <<< 6) ∧
  ∀ (s : State) (d : Nat), s.takes .parentLost = true → s.ctl.inGroup = true → s.ctl.group.parentDeadline = some d →
    d ≤ s.ctl.refTicks →
    ∃ t, exec .parentLost s = .next t ∧
      t = { s with ctl := { s.ctl with regs := t.ctl.regs, group := { s.ctl.group with
        state := 3, parentDeadline := none } } } ∧
      s.ctl.keeps t.ctl [rPWR_EVT] ∧ t.ctl.reg rPWR_EVT = s.ctl.reg rPWR_EVT ||| 1#32 <<< 7)

/-- Joining and leaving (R347, R348, R350): setting GROUP_EN puts the die in JOINING, or in ROOT without a parent, with J at 0;
clearing it sends one LEAVE to the parent and enters OFF; at each interval a root adopts S, an UP goes to the parent and a DOWN
to each VALID child. -/
def Obligations.PaceGroupMembership : Prop :=
  (∀ (s : State) (id : Byte) (d : Word), s.reaches (.groupEnable id d) id rGROUP_CTL = true → bit d 0 = true →
    bit (s.ctl.reg rGROUP_CTL) 0 = false →
    ∃ t, exec (.groupEnable id d) s = .next t ∧
      t = { s with ctl := { s.ctl with regs := t.ctl.regs, group := t.ctl.group, regRdata := 0 } } ∧
      s.ctl.keeps t.ctl [rGROUP_CTL] ∧ t.ctl.reg rGROUP_CTL = d &&& 0xFFFFFFF3 ∧
      t.ctl.group.state = (if bit d 1 then 1 else 3) ∧ t.ctl.group.progress = 0 ∧ t.ctl.group.children = []) ∧
  (∀ (s : State) (id : Byte) (d : Word), s.reaches (.groupDisable id d) id rGROUP_CTL = true → bit d 0 = false →
    bit (s.ctl.reg rGROUP_CTL) 0 = true →
    ∃ t, exec (.groupDisable id d) s = .next t ∧ s.ctl.keeps t.ctl [rGROUP_CTL] ∧
      bit (t.ctl.reg rGROUP_CTL) 0 = false ∧ t.ctl.group.state = 0 ∧ t.ctl.group.minimum = s.ctl.group.minimum ∧
      t.ctl.outbox = s.ctl.outbox ++ (if s.ctl.hasParent then
        [.paceWord (s.ctl.rf rGROUP_CTL 16 16) 0 (word (3 * 2 ^ 28 + s.ctl.rf rGROUP_CTL 4 12 * 2 ^ 16 + s.ctl.node))]
        else [])) ∧
  ∀ s : State, s.takes .paceWordSend = true → s.ctl.inGroup = true → s.ctl.group.sendDeadline ≤ s.ctl.refTicks →
    ∃ t g, exec .paceWordSend s = .next t ∧
      g = (if s.ctl.group.state = 3 then gMax s.ctl.group.minimum s.ctl.subtree else s.ctl.group.minimum) ∧
      t.ctl.group.minimum = g ∧ t.ctl.regs = s.ctl.regs ∧
      t.ctl.outbox = s.ctl.outbox ++
        (if s.ctl.hasParent then [.paceWord (s.ctl.rf rGROUP_CTL 16 16) (word s.ctl.subtree)
          (word (2 ^ 28 + s.ctl.rf rGROUP_CTL 4 12 * 2 ^ 16 + s.ctl.node))] else []) ++
        s.ctl.childNodes.map fun p => .paceWord p.2 (word g)
          (word (2 * 2 ^ 28 + s.ctl.rf rGROUP_CTL 4 12 * 2 ^ 16 + s.ctl.node))

/-! ### Cooling and power states -/

/-- The coolant input (R356, Table 11.3): a fall stops issue: g 0, every bucket empty, COOL_STOP set and counted, every
descriptor past step 3 that neither completed nor committed completes with COOLANT_STOP; a rise starts the hold; after the hold
COOL_OK is set; RESUME then ends the stop quietly, and without COOL_OK it only sets RESUME_EARLY. -/
def Obligations.CoolantStopAndResume : Prop :=
  (∀ s : State, s.takes .coolantFall = true → s.ctl.coolant = true → s.ctl.power.stopped = false →
    ∃ t, exec .coolantFall s = .next t ∧ t.ctl.power.stopped = true ∧ t.ctl.power.gate = 0 ∧
      t.ctl.coolant = false ∧ t.ctl.buckets = [] ∧ bit (t.ctl.reg rPWR_EVT) 3 = true ∧
      (t.ctl.reg rCOOL_STOPS).toNat = min ((s.ctl.reg rCOOL_STOPS).toNat + 1) (2 ^ 32 - 1) ∧
      ∀ d ∈ s.ctl.descs, d.stage ∉ [.hold, .check] → d.completed = false → d.committed = false → d.key.sub = 0 →
        ∃ e ∈ t.ctl.descs, e.key = d.key ∧ e.completed = true) ∧
  (∀ s : State, s.takes .coolantRise = true → s.ctl.coolant = false → s.ctl.power.stopped = true → s.ctl.inTest = false →
    ∃ t, exec .coolantRise s = .next t ∧
      t = { s with ctl := { s.ctl with regs := t.ctl.regs, power := { s.ctl.power with
        coolDeadline := some (s.ctl.refTicks + max 1 (s.ctl.rf rCOOL_CTL 16 16) + 1) } } } ∧
      s.ctl.keeps t.ctl [rBND_STATUS] ∧ t.ctl.reg rBND_STATUS = s.ctl.reg rBND_STATUS ||| 1#32 <<< 0) ∧
  (∀ (s : State) (d : Nat), s.takes .coolOk = true → s.ctl.power.coolDeadline = some d → d ≤ s.ctl.refTicks →
    s.ctl.power.stopped = true → s.ctl.coolant = true → s.ctl.pstate ≠ 4 →
    ∃ t, exec .coolOk s = .next t ∧ s.setsRegs t [rPWR_EVT] s.ctl.regRdata ∧
      t.ctl.reg rPWR_EVT = s.ctl.reg rPWR_EVT ||| 1#32 <<< 4) ∧
  ∀ (s : State) (id : Byte), s.reaches (.coolResume id) id rCOOL_CTL = true → s.ctl.inTest = false →
    ∃ t, exec (.coolResume id) s = .next t ∧ s.ctl.keeps t.ctl [rPWR_EVT] ∧
      (s.ctl.power.stopped = true → bit (s.ctl.reg rPWR_EVT) 4 = true →
        t.ctl.power.stopped = false ∧ t.ctl.power.quiet = true ∧ t.ctl.power.gate = 1 ∧
        bit (t.ctl.reg rPWR_EVT) 4 = false) ∧
      (bit (s.ctl.reg rPWR_EVT) 4 = false → t.ctl.power = s.ctl.power ∧
        t.ctl.reg rPWR_EVT = s.ctl.reg rPWR_EVT ||| 1#32 <<< 5)

/-! ### Descriptor rings -/

/-- RING_ENABLE (Table 4.2, R38, R129 to R131, R133, R393): a DISABLED ring whose configuration passes goes on from RING_HEAD with its counters at
0, and CONTRACT_SEL is locked; it becomes RUNNING at once unless it still holds records of an earlier enable, which are written first. One whose
configuration fails stays DISABLED with ERR_CAUSE 1. While a function reset of the rings runs, ENABLE reads 1 and nothing else happens. -/
def Obligations.RingEnable : Prop :=
  ∀ (s : State) (k : Nat) (id : Byte), s.reaches (.ringEnable k id) id (rRING_CTL k) = true → s.ctl.ringState k = 0 →
    (s.ctl.ring k).starting = false → s.ctl.calm (s.ctl.ringDomain k) = true → s.ctl.noneWaits k →
    ∃ t, exec (.ringEnable k id) s = .next t ∧
      (s.ctl.func = 1 → s.setsRegs t [rRING_CTL k] 0 ∧ t.ctl.ringState k = 0 ∧ bit (t.ctl.reg (rRING_CTL k)) 0 = true) ∧
      (s.ctl.func ≠ 1 → s.ctl.ringConfigOk k = true →
        t.ctl.ringState k = (if s.ctl.ringDescs k = [] then 1 else 0) ∧
        (t.ctl.ring k).starting = !(s.ctl.ringDescs k).isEmpty ∧
        bit (t.ctl.reg (rRING_CTL k)) 0 = true ∧ bit (t.ctl.reg rCONTRACT_SEL) 16 = true ∧
        t.ctl.piSeen k = s.ctl.reg64 (rRING_HEAD_LO k) (rRING_HEAD_HI k) ∧
        (t.ctl.ring k).nextIdx = s.ctl.reg64 (rRING_HEAD_LO k) (rRING_HEAD_HI k) ∧
        t.ctl.reg (rDONE_COUNT k) = 0 ∧ t.ctl.reg (rFAIL_COUNT k) = 0 ∧ (t.ctl.ring k).recFault = false) ∧
      (s.ctl.func ≠ 1 → s.ctl.ringConfigOk k = false →
        s.setsRegs t [rRING_CTL k, rRING_STATUS k] 0 ∧ t.ctl.ringState k = 0 ∧ bit (t.ctl.reg (rRING_CTL k)) 0 = false ∧
        fld (t.ctl.reg (rRING_STATUS k)) 8 4 = 1)

/-- RING_DISABLE and RING_ABORT (R131, R132): a RUNNING ring drains: ENABLE reads 0; it holds no descriptor that has not reached
step 5; a waiting FENCE has completed with ABORTED, FENCE_CANCEL; it is DISABLED at once where it holds nothing. After an abort every admitted
descriptor of the ring that has not committed has completed. -/
def Obligations.RingDisableAndAbort : Prop :=
  (∀ (s : State) (k : Nat) (id : Byte), s.reaches (.ringDisable k id) id (rRING_CTL k) = true → s.ctl.ringState k = 1 →
    (s.ctl.ring k).starting = false → s.ctl.noneWaits k →
    ∃ t, exec (.ringDisable k id) s = .next t ∧ t.ctl.ringState k ∈ [0, 2] ∧
      bit (t.ctl.reg (rRING_CTL k)) 0 = false ∧ (t.ctl.ring k).watch = .off ∧
      (∀ d ∈ t.ctl.ringDescs k, d.stage ≠ .hold ∧ d.stage ≠ .check) ∧
      (t.ctl.ringState k = 2 → t.ctl.heldCount k ≠ 0) ∧
      ∀ x d, s.ctl.desc? x = some d → x.ring = k → x.sub = 0 → d.kind = 11 → d.stage = .wait →
        ∃ e, t.ctl.desc? x = some e ∧ e.stage = .final ∧ e.status = 0x40 ∧ e.detail = 8) ∧
  (∀ (s : State) (k : Nat) (id : Byte), s.reaches (.ringAbort k id) id (rRING_CTL k) = true → s.ctl.ringState k = 1 →
    s.ctl.noneWaits k →
    ∃ t, exec (.ringAbort k id) s = .next t ∧ t.ctl.ringState k ∈ [0, 2] ∧ bit (t.ctl.reg (rRING_CTL k)) 0 = false ∧
      (∀ d ∈ t.ctl.ringDescs k, d.stage ≠ .hold ∧ d.stage ≠ .check) ∧
      ∀ x d, s.ctl.desc? x = some d → x.ring = k → x.sub = 0 → d.committed = false → d.stage ∉ [.hold, .check] →
        ∃ e, t.ctl.desc? x = some e ∧ e.completed = true)

/-- Looking for new work (R126, R127, R272): a due poll, a due backstop read and a hit each read the producer index of a RUNNING
ring: a ring read is under way or waits for its translation. ACCEPT arms the write-watch; REFUSE, LOST and no answer in time set
WATCH_FALLBACK, clear WATCH_ACTIVE and leave the ring polling. -/
def Obligations.LookingForWork : Prop :=
  (∀ (s : State) (k : Nat) (i : Instr), s.takes i = true → s.ctl.ringState k = 1 → s.ctl.nodeValid = true →
    (s.ctl.ring k).reading = false → s.ctl.calm (s.ctl.ringDomain k) = true →
    (i = .poll k ∧ (s.ctl.ring k).pollDue = true ∧ s.ctl.paceInTurn.mayPoll = true) ∨
      (i = .backstopRead k ∧ (s.ctl.ring k).backDue = true ∧ s.ctl.paceInTurn.mayPoll = true) ∨
      (i = .watchHit k ∧ (s.ctl.ring k).watch = .armed) →
    ∃ t, exec i s = .next t ∧ (t.ctl.ring k).reading = true ∧
      (∃ b ∈ t.ctl.mem.bursts, b.purpose = .index k ∧ b.state ∈ [.need, .walking] ∧
        b.va = BitVec.ofNat 64 (s.ctl.reg64 (rPI_ADDR_LO k) (rPI_ADDR_HI k))) ∧
      (i = .poll k → (t.ctl.ring k).pollDue = false) ∧ (i = .backstopRead k → (t.ctl.ring k).backDue = false)) ∧
  ((∀ (s : State) (k d : Nat), s.takes (.watchAccept k) = true → (s.ctl.ring k).watch = .arming d →
    ∃ t, exec (.watchAccept k) s = .next t ∧ (t.ctl.ring k).watch = .armed ∧
      bit (t.ctl.reg (rRING_STATUS k)) 15 = true) ∧
  ∀ (s : State) (k d : Nat) (i : Instr), s.takes i = true →
    (i = .watchRefuse k ∧ (s.ctl.ring k).watch = .arming d) ∨ (i = .watchLost k ∧ (s.ctl.ring k).watch = .armed) ∨
      (i = .watchTimeout k ∧ (s.ctl.ring k).watch = .arming d ∧ d ≤ s.ctl.refTicks) →
    ∃ t, exec i s = .next t ∧ (t.ctl.ring k).watch = .off ∧ bit (t.ctl.reg (rRING_STATUS k)) 16 = true ∧
      bit (t.ctl.reg (rRING_STATUS k)) 15 = false ∧ t.ctl.ringState k = s.ctl.ringState k)

/-- DESCRIPTOR_FETCH (R125): the next ring in rotating order that has a descriptor available is fetched from, one 64-byte read of
the address of its next index, and the rotation goes on behind it. COMPLETION_RECORD (R133, R142 to R144): the record that is next in its ring
is written, words 1 to 7 first, at its place; after a RECORD_FAULT it is held instead. -/
def Obligations.FetchesAndRecords : Prop :=
  (∀ (s : State) (k : Nat), s.takes .descriptorFetch = true → s.ctl.admitting = true → s.ctl.nodeValid = true →
    (∀ r < 64, (s.ctl.ring r).fetching = false) → s.ctl.calm (s.ctl.ringDomain k) = true →
    ((List.range 64).map fun i => (s.ctl.fetchPtr + i) % 64).find? s.ctl.fetchable = some k →
    ∃ t, exec .descriptorFetch s = .next t ∧ t.ctl.fetchPtr = (k + 1) % 64 ∧ (t.ctl.ring k).fetching = true ∧
      ∃ b ∈ t.ctl.mem.bursts, b.purpose = .fetch k (s.ctl.ring k).nextIdx ∧ b.state ∈ [.need, .walking] ∧
        b.va = s.ctl.descAddr k (s.ctl.ring k).nextIdx) ∧
  (∀ (s : State) (k i : Nat) (d : Desc), s.takes (.completionRecord k i) = true →
    s.ctl.desc? { ring := k, idx := i, sub := 0 } = some d → s.ctl.recordNext d = true → s.ctl.pstate ≠ 4 →
    s.ctl.shadow = false → s.ctl.calm (s.ctl.ringDomain k) = true →
    ∃ t, exec (.completionRecord k i) s = .next t ∧
      ((s.ctl.ring k).recFault = true → d.key ∈ (t.ctl.ring k).held ∧ t.ctl.mem = s.ctl.mem) ∧
      ((s.ctl.ring k).recFault = false →
        (∃ e, t.ctl.desc? d.key = some e ∧ e.stage = .record) ∧
        ∃ b ∈ t.ctl.mem.bursts, b.purpose = .recordHi d.key true ∧ b.va = s.ctl.recordAddr k i ∧
          b.data = lineData (b.va.toNat % 64 + 4) (((d.record true).drop 1).flatMap wordBytes)))

/-- Tokens and FENCE timeouts (R148, R149): a driver's write stores the value, and a FENCE that waits on the token alone and
whose condition (TOKEN_VALUE − WAIT_VALUE) mod 2^32 < 2^31 now holds completes with OK (in a pair once the peer's signature agrees, R317); a FENCE whose timeout has passed
completes with ABORTED, FENCE_TIMEOUT. -/
def Obligations.TokensAndFenceTimeout : Prop :=
  (∀ (s : State) (n : Nat) (id : Byte) (v : Word), s.reaches (.tokenValueWrite n id v) id (rTOKEN_VALUE n) = true →
    ∃ t, exec (.tokenValueWrite n id v) s = .next t ∧ t.ctl.reg (rTOKEN_VALUE n) = v ∧
      ∀ x d, s.ctl.desc? x = some d → d.kind = 11 → d.stage = .wait → bit (d.w 1) 9 = true → bit (d.w 1) 8 = false →
        fld (d.w 2) 0 8 = n → (v.toNat + 2 ^ 32 - (d.w 3).toNat) % 2 ^ 32 < 2 ^ 31 →
        t.ctl.concludes x 0 0) ∧
  ∀ (s : State) (k i dl : Nat) (d : Desc), s.takes (.fenceTimeout k i) = true →
    s.ctl.desc? { ring := k, idx := i, sub := 0 } = some d → d.kind = 11 → d.stage = .wait → d.deadline = some dl →
    dl ≤ s.ctl.refTicks → s.ctl.pstate ≠ 4 →
    ∃ t e, exec (.fenceTimeout k i) s = .next t ∧ t.ctl.desc? d.key = some e ∧ e.stage = .final ∧ e.status = 0x40 ∧
      e.detail = 7

/-! ### The memory path -/

/-- TRANSLATION_RESPONSE and WALK_TIMEOUT (R240, R242, R243): an answer to a walk that has not timed out ends it and leaves nobody
waiting on it; FAULT and SIZE 3 count in WALK_FAULTS, and any other answer is cached as Table 8.1 places it; one that comes too late is
discarded. A walk without an answer in time is counted and acts as FAULT; a later answer will be discarded. -/
def Obligations.Walks : Prop :=
  (∀ (s : State) (tag : Nat) (resp : BitVec 64) (w : Walk), s.takes (.translationResponse tag resp) = true →
    s.ctl.mem.walks.find? (·.tag = tag) = some w → (∀ b ∈ s.ctl.mem.bursts, b.state ≠ .need) →
    (∀ d ∈ s.ctl.descs, d.bad = none) →
    ∃ t, exec (.translationResponse tag resp) s = .next t ∧ (∀ x ∈ t.ctl.mem.walks, x.tag ≠ tag) ∧
      (w.late = true → t.ctl.mem.bursts = s.ctl.mem.bursts ∧ t.ctl.mem.shared = s.ctl.mem.shared) ∧
      (w.late = false → ∀ b ∈ t.ctl.mem.bursts, ¬ (b.state = .walking ∧ b.domain = w.domain ∧ pageOf b.va = w.page)) ∧
      (w.late = false → resp.toNat % 2 = 1 ∨ resp.toNat / 2 ^ 10 % 4 = 3 →
        (t.ctl.reg rWALK_FAULTS).toNat = min ((s.ctl.reg rWALK_FAULTS).toNat + 1) (2 ^ 32 - 1)) ∧
      (w.late = false → resp.toNat % 2 = 0 → resp.toNat / 2 ^ 10 % 4 = 0 →
        ({ domain := w.domain, page := w.page, log2 := 0, frame := resp.toNat / 2 ^ 16,
           perm := BitVec.ofNat 4 (resp.toNat / 2 ^ 4) } : Xlate) ∈ t.ctl.mem.shared)) ∧
  (∀ (s : State) (tag : Nat) (w : Walk), s.takes (.walkTimeout tag) = true →
    s.ctl.mem.walks.find? (·.tag = tag) = some w → w.late = false → w.deadline ≤ s.ctl.refTicks → s.ctl.pstate ≠ 4 →
    (∀ b ∈ s.ctl.mem.bursts, b.state ≠ .need) → (∀ d ∈ s.ctl.descs, d.bad = none) →
    ∃ t, exec (.walkTimeout tag) s = .next t ∧ (∀ x ∈ t.ctl.mem.walks, x.tag = tag → x.late = true) ∧
      (∀ b ∈ t.ctl.mem.bursts, ¬ (b.state = .walking ∧ b.domain = w.domain ∧ pageOf b.va = w.page)) ∧
      (t.ctl.reg rWALK_TIMEOUTS).toNat = min ((s.ctl.reg rWALK_TIMEOUTS).toNat + 1) (2 ^ 32 - 1))

/-- BURST_RESPONSE and BURST_TIMEOUT (R238): the burst ends and its tag is free; ABSENT, a timeout among them, counts in
REMOTE_FAILS and DERR in DATA_ERRS; the 64 bytes of a descriptor fetch become a descriptor held at step 3 (R125), unless the peer of a pair has met its outcome (R318). -/
def Obligations.BurstAnswers : Prop :=
  (∀ (s : State) (m tag code : Nat) (bs : List Byte) (b : Burst), s.takes (.burstResponse m tag code bs) = true →
    s.ctl.outstanding m tag = some b →
    ∃ t, exec (.burstResponse m tag code bs) s = .next t ∧
      (∀ e ∈ t.ctl.mem.bursts, ¬ (e.state = .issued ∧ e.ch = m ∧ e.tag = tag)) ∧
      (code = 1 → t.ctl.reg rREMOTE_FAILS = word (min ((s.ctl.reg rREMOTE_FAILS).toNat + 1) (2 ^ 32 - 1))) ∧
      (code = 2 ∨ code = 3 → t.ctl.reg rDATA_ERRS = word (min ((s.ctl.reg rDATA_ERRS).toNat + 1) (2 ^ 32 - 1))) ∧
      ∀ k i, code = 0 → b.purpose = .fetch k i → b.access = 3 → s.ctl.ringState k = 1 →
        (t.ctl.ring k).nextIdx = i + 1 ∧ (t.ctl.ring k).fetching = false ∧
        ∃ d ∈ t.ctl.descs, d.key = { ring := k, idx := i, sub := 0 } ∧ d.words = bytesWords bs ∧
          ((∀ o ∈ s.ctl.outcomes, ¬ (o.ring = k ∧ o.idx = i)) → d.stage = .hold)) ∧
  ∀ (s : State) (m tag : Nat) (b : Burst), s.takes (.burstTimeout m tag) = true → s.ctl.outstanding m tag = some b →
    b.deadline ≤ s.ctl.refTicks → s.ctl.pstate ≠ 4 →
    ∃ t, exec (.burstTimeout m tag) s = .next t ∧
      (∀ e ∈ t.ctl.mem.bursts, ¬ (e.state = .issued ∧ e.ch = m ∧ e.tag = tag)) ∧
      t.ctl.reg rREMOTE_FAILS = word (min ((s.ctl.reg rREMOTE_FAILS).toNat + 1) (2 ^ 32 - 1))

/-- ATC_INVAL (R244): with GO and SCOPE 0 no translation stays cached, and BUSY reads 1 exactly while a burst that used one is
unanswered; a GO while BUSY is 1 is ignored and sets INVAL_ERR. -/
def Obligations.TranslationInvalidation : Prop :=
  ∀ (s : State) (id : Byte) (d : Word), s.reaches (.atcInval id d) id rATC_INVAL = true → bit d 0 = true →
    ∃ t, exec (.atcInval id d) s = .next t ∧
      (bit (s.ctl.reg rATC_INVAL) 31 = true → bit (t.ctl.reg rATC_INVAL) 30 = true ∧ bit (t.ctl.reg rATC_INVAL) 31 = true ∧
        t.ctl.mem = s.ctl.mem) ∧
      (bit (s.ctl.reg rATC_INVAL) 31 = false → fld d 4 2 = 0 →
        t.ctl.xlates = [] ∧ bit (t.ctl.reg rATC_INVAL) 31 = t.ctl.mem.bursts.any (·.waitInval))

/-! ### Time, test access, resets -/

/-- Time (R26, R30, R31): a tick adds one to the 48-bit counter of its slice and to no other; that of the reference slice is the
reference counter's tick and opens the next 16 sub-ticks; a sub-tick lets every bucket but those of the ports, whose beats may follow at once, gain the sixteenths that the pacer's last tick gives, and
what lies beyond 64 tokens is lost. -/
def Obligations.TimeAdvances : Prop :=
  (∀ (s : State) (n mon : Nat), s.takes (.tick n mon) = true → s.ctl.sequenced = false → s.ctl.pstate ≠ 4 →
    ∃ t, exec (.tick n mon) s = .next t ∧ (t.ctl.slice n).ticks = ((s.ctl.slice n).ticks + 1) % 2 ^ 48 ∧
      (∀ m, m ≠ n → (t.ctl.slice m).ticks = (s.ctl.slice m).ticks) ∧
      (n = s.ctl.refSlice → t.ctl.refTicks = s.ctl.refTicks + 1 ∧ t.ctl.subTick = 0) ∧
      (n ≠ s.ctl.refSlice → t.ctl.refTicks = s.ctl.refTicks ∧ t.ctl.subTick = s.ctl.subTick)) ∧
  ∀ s : State, s.takes .subTick = true → s.ctl.sequenced = false → s.ctl.pstate ≠ 4 → s.ctl.subTick < 16 →
    ∃ t, exec .subTick s = .next t ∧ t.ctl.subTick = s.ctl.subTick + 1 ∧ t.ctl.refTicks = s.ctl.refTicks ∧
      ∀ b ∈ s.ctl.bucketNumbers, 128 ≤ b → Tab.get 0 t.ctl.buckets b =
        min (Tab.get 0 s.ctl.buckets b) 1024 + (if s.ctl.paceNow.passive = true then 0 else s.ctl.paceNow.power.added)

/-- The wrapper's instructions (R428, R429): WS_BYPASS lets the boundary go; WS_EXTEST and WS_INTEST_RING put it in control, with
issue stopped, and act as WS_BYPASS under TEST_LOCK; WX_REGACC makes one register access under its own identity, a read of a
stored register answering its value; WX_SIG captures TEST_SIG. -/
def Obligations.WrapperInstructions : Prop :=
  (∀ s : State, s.takes .wsBypass = true →
    ∃ t, exec .wsBypass s = .next t ∧ t.ctl.wir = 0 ∧ t.ctl.bypass = false ∧ t.ctl.regs = s.ctl.regs ∧
      t.ctl.boundary = s.ctl.boundary) ∧
  (∀ (s : State) (b : List Bool) (i : Instr) (w : Nat), (i, w) ∈ [(.wsExtest b, 1), (.wsIntestRing b, 2)] →
    s.takes i = true →
    ∃ t, exec i s = .next t ∧
      (s.ctl.testLocked = false → t.ctl.wir = w ∧ t.ctl.boundary = b ∧
        (s.ctl.inTest = false → t.ctl.power.stopped = true)) ∧
      (s.ctl.testLocked = true → t.ctl.wir = 0 ∧ t.ctl.boundary = s.ctl.boundary)) ∧
  (∀ (s : State) (dr : BitVec 59), s.takes (.wxRegacc dr) = true → dr.getLsbD 18 = true →
    ∃ t, exec (.wxRegacc dr) s = .next t ∧
      exec (.registerWrite (4 * (dr.extractLsb' 0 18).toNat) (dr.extractLsb' 19 8) (dr.extractLsb' 27 32))
        { s with ctl := s.ctl.setWir 0x10 } = .next t) ∧
  (∀ (s : State) (dr : BitVec 59) (off : Nat) (id : Byte), s.takes (.wxRegacc dr) = true → dr.getLsbD 18 = false →
    off = 4 * (dr.extractLsb' 0 18).toNat → id = dr.extractLsb' 19 8 → s.ctl.answers id off = true →
    s.ctl.mayAccess id off false (dr.extractLsb' 27 32) = true →
    off ∉ [rREF_TICK_LO, rBCNT_GRANT_LO] → (∀ n < 64, off ≠ rCNT_GRANT_LO n) →
    (s.ctl.setWir 0x10).derived off = none →
    ∃ t, exec (.wxRegacc dr) s = .next t ∧ t.ctl.wir = 0x10 ∧ t.ctl.regs = s.ctl.regs ∧
      t.ctl.regRdata = (if (s.ctl.listed off).isSome then s.ctl.reg off else 0)) ∧
  ∀ s : State, s.takes .wxSig = true →
    ∃ t, exec .wxSig s = .next t ∧ t.ctl.wir = 0x12 ∧ t.ctl.outbox = s.ctl.outbox ++ [.testSig s.ctl.testSig]

/-- Sequenced mode (R430, R429): SEQ_EN is accepted in settled deterministic mode only and starts TEST_SIG at 0, otherwise
SEQ_ERR is all that changes; TEST_LOCK sets the lock, clears SEQ_EN and leaves no disabled instruction selected; a step of KIND
0 takes each phase's grants into TEST_SIG and lets as many grants through; one of KIND 1 advances every counter; WX_STEP does
the same. -/
def Obligations.SequencedMode : Prop :=
  (∀ (s : State) (id : Byte), s.reaches (.seqEn id true) id rTEST_CTL = true → s.ctl.privOk id = true →
    s.ctl.sequenced = false → s.ctl.testLocked = false →
    ∃ t, exec (.seqEn id true) s = .next t ∧
      ((s.ctl.det && bit (s.ctl.reg rINT_STATUS) 16) = true →
        t.ctl.sequenced = true ∧ t.ctl.testSig = 0 ∧ t.ctl.stepGrants = 0) ∧
      ((s.ctl.det && bit (s.ctl.reg rINT_STATUS) 16) = false →
        s.setsRegs t [rTEST_STATUS] 0 ∧ t.ctl.reg rTEST_STATUS = s.ctl.reg rTEST_STATUS ||| 1#32 <<< 17)) ∧
  (∀ (s : State) (id : Byte), s.reaches (.seqEn id false) id rTEST_CTL = true → s.ctl.privOk id = true →
    ∃ t, exec (.seqEn id false) s = .next t ∧ s.setsRegs t [rTEST_CTL] 0 ∧ t.ctl.sequenced = false) ∧
  (∀ (s : State) (id : Byte), s.reaches (.testLock id) id rTEST_CTL = true → s.ctl.privOk id = true →
    ∃ t, exec (.testLock id) s = .next t ∧ t.ctl.testLocked = true ∧ t.ctl.sequenced = false ∧ t.ctl.wir ∉ [1, 2, 0x11]) ∧
  (∀ (s : State) (id : Byte) (g : List Nat), s.reaches (.testStepPhases id g) id rTEST_STEP = true → s.ctl.privOk id = true →
    s.ctl.sequenced = true →
    ∃ t, exec (.testStepPhases id g) s = .next t ∧ s.ctl.keeps t.ctl [rTEST_SIG_LO, rTEST_SIG_HI] ∧
      t.ctl.testSig = (g.flatMap (natBytes 4)).foldl crcByte s.ctl.testSig ∧ t.ctl.stepGrants = s.ctl.stepGrants + g.sum) ∧
  (∀ (s : State) (id : Byte) (k : Nat), s.reaches (.testStepTicks id k) id rTEST_STEP = true → s.ctl.privOk id = true →
    s.ctl.sequenced = true → s.ctl.pstate ≠ 4 → (∀ n < s.ctl.slicesN, (s.ctl.slice n).ticks < 2 ^ 48) →
    ∃ t, exec (.testStepTicks id k) s = .next t ∧
      ∀ n < s.ctl.slicesN, (t.ctl.slice n).ticks = ((s.ctl.slice n).ticks + k) % 2 ^ 48) ∧
  ∀ (s : State) (dr : BitVec 18) (g : List Nat), s.takes (.wxStep dr g) = true →
    ∃ t, exec (.wxStep dr g) s = .next t ∧
      (s.ctl.testLocked = true → t.ctl.wir = 0 ∧ t.ctl.testSig = s.ctl.testSig ∧ t.ctl.stepGrants = s.ctl.stepGrants) ∧
      (s.ctl.testLocked = false → s.ctl.sequenced = true → (dr.extractLsb' 16 2).toNat = 0 → t.ctl.wir = 0x11 ∧
        t.ctl.testSig = (g.flatMap (natBytes 4)).foldl crcByte s.ctl.testSig ∧
        t.ctl.stepGrants = s.ctl.stepGrants + g.sum) ∧
      (s.ctl.testLocked = false → s.ctl.sequenced = true → (dr.extractLsb' 16 2).toNat = 1 → s.ctl.pstate ≠ 4 →
        (∀ n < s.ctl.slicesN, (s.ctl.slice n).ticks < 2 ^ 48) →
        ∀ n < s.ctl.slicesN, (t.ctl.slice n).ticks = ((s.ctl.slice n).ticks + (dr.extractLsb' 0 16).toNat) % 2 ^ 48)

/-- Resets (R388 to R390, Tables 13.1, 13.7): a release of the power-on input gives the block as after power-on from any state;
a block reset forgets names, descriptors and service, keeps NODE_ID and the fences asked for, and completes once no burst is
issued; an input held begins it, and under the power-on input no other command acts. The banks keep what they hold. -/
def Obligations.Resets : Prop :=
  (∀ (s : State) (b : Bool), ∃ t, exec (.powerOnReset b) s = .next t ∧ t.cells = s.cells ∧ t.ctl.part = s.ctl.part ∧
    t.ctl.off = false ∧ t.ctl.inReset = none ∧ t.ctl.resetWait = none ∧ t.ctl.inService = [] ∧ t.ctl.names = [] ∧
    t.ctl.descs = [] ∧ t.ctl.slots = [] ∧ t.ctl.refTicks = 0 ∧ t.ctl.pstate = 0 ∧ fld (t.ctl.reg rRESET_STATUS) 0 3 = 1 ∧
    t.ctl.filling ++ t.ctl.fillWait = List.range s.ctl.part.slices ∧ t.ctl.power.stopped = !b) ∧
  (∀ (s : State) (b : Bool) (id : Byte) (i : Instr) (k : Nat), s.takes i = true →
    (i = .blkrstN b ∧ k = 2) ∨ (i = .blockReset id b ∧ k = 3 ∧ id ≠ 0xFF ∧ s.ctl.privOk id = true) →
    ∃ t, exec i s = .next t ∧ t.cells = s.cells ∧ t.ctl.names = [] ∧ t.ctl.descs = [] ∧ t.ctl.slots = [] ∧
      t.ctl.inService = [] ∧ t.ctl.reg rNODE_ID = s.ctl.reg rNODE_ID ∧ t.ctl.reg rFENCE_REQ_LO = s.ctl.reg rFENCE_REQ_LO ∧
      t.ctl.reg rFENCE_REQ_HI = s.ctl.reg rFENCE_REQ_HI ∧
      ((∀ x ∈ s.ctl.mem.bursts, x.state ≠ .issued) → t.ctl.resetWait = none ∧ t.ctl.refTicks = 0 ∧
        fld (t.ctl.reg rRESET_STATUS) 0 3 = k ∧ t.ctl.filling ++ t.ctl.fillWait = s.ctl.fillers) ∧
      ((∃ x ∈ s.ctl.mem.bursts, x.state = .issued) → t.ctl.resetWait = some k ∧ t.ctl.filling = [])) ∧
  (∀ s : State, s.takes (.resetInputAsserted true) = true →
    exec (.resetInputAsserted true) s = .next { s with ctl := { s.ctl with inReset := some true } }) ∧
  (∀ s : State, s.takes (.resetInputAsserted false) = true →
    ∃ t, exec (.resetInputAsserted false) s = .next t ∧ t.cells = s.cells ∧ t.ctl.inReset = some false ∧ t.ctl.names = [] ∧
      t.ctl.descs = [] ∧ t.ctl.inService = [] ∧ t.ctl.reg rNODE_ID = s.ctl.reg rNODE_ID) ∧
  ∀ (i : Instr) (s : State), s.ctl.inReset = some true → (∀ b, i ≠ .powerOnReset b) → i ≠ .supplyLoss → exec i s = .next s

/-- Function resets (R391, Table 13.2) by a privileged identity while none runs: RINGS aborts every RUNNING ring and clears
NOTIFY_PEND; TRANSLATION empties the caches and times out every walk; MSQ ends a firmware service and restarts the firmware,
or enters BOOT; POWER sets T to E_pref, before the first boundary at most 600 (R396), which P takes at the next tick (R28, R342), and forgets every
k_p; COUNTERS clears counters and accounts. While one runs, FUNC_GO only sets RESET_ERR. -/
def Obligations.FunctionResets : Prop :=
  (∀ (s : State) (id : Byte), s.reaches (.funcRings id) id rRESET_CTL = true → s.ctl.privOk id = true → s.ctl.func = 0 →
    ∃ t, exec (.funcRings id) s = .next t ∧ t.ctl.reg rNOTIFY_PEND_LO = 0 ∧ t.ctl.reg rNOTIFY_PEND_HI = 0 ∧
      (∀ k < 64, s.ctl.ringState k = 1 → t.ctl.ringState k ∈ [0, 2]) ∧
      ∀ x d, s.ctl.desc? x = some d → x.ring < 64 → s.ctl.ringState x.ring = 1 → x.sub = 0 → d.committed = false →
        d.stage ∉ [.hold, .check] → ∃ e, t.ctl.desc? x = some e ∧ e.completed = true) ∧
  (∀ (s : State) (id : Byte), s.reaches (.funcTranslation id) id rRESET_CTL = true → s.ctl.privOk id = true →
    s.ctl.func = 0 →
    ∃ t, exec (.funcTranslation id) s = .next t ∧ t.ctl.xlates = [] ∧ t.ctl.func ∈ [0, 2] ∧
      s.ctl.counted t.ctl rWALK_TIMEOUTS (s.ctl.mem.walks.filter fun w => !w.late).length ∧
      ∀ w ∈ s.ctl.mem.walks, w.late = false → ∀ b ∈ t.ctl.mem.bursts, b.state = .walking → b.domain = w.domain →
        pageOf b.va = w.page → ∃ k, b.purpose = .watch k) ∧
  (∀ (s : State) (id : Byte), s.reaches (.funcMsq id) id rRESET_CTL = true → s.ctl.privOk id = true → s.ctl.func = 0 →
    ∃ t, exec (.funcMsq id) s = .next t ∧ (s.ctl.svcFirmware = true → t.ctl.msq.svc = none) ∧
      t.ctl.msq.state = (if bit (s.ctl.reg rFW_INFO) 31 then 2 else 1)) ∧
  (∀ (s : State) (id : Byte), s.reaches (.funcPower id) id rRESET_CTL = true → s.ctl.privOk id = true → s.ctl.func = 0 →
    ∃ t, exec (.funcPower id) s = .next t ∧ t.ctl.power.pace = s.ctl.power.pace ∧
      t.ctl.power.target = (if s.ctl.power.first then min s.ctl.ePref 600 else s.ctl.ePref) ∧
      t.ctl.power.newTarget = some (t.ctl.power.target, 0) ∧
      (∀ p < 16, t.ctl.reg (rPHASE_K p) = 0) ∧ t.ctl.func = 4) ∧
  (∀ (s : State) (id : Byte), s.reaches (.funcCounters id) id rRESET_CTL = true → s.ctl.privOk id = true → s.ctl.func = 0 →
    ∃ t, exec (.funcCounters id) s = .next t ∧ t.ctl.power.accounts = [] ∧ t.ctl.power.acts = [] ∧ t.ctl.func = 0 ∧
      t.ctl.names = s.ctl.names ∧ t.ctl.descs = s.ctl.descs ∧
      ∀ i j jd offs, i.clears s.ctl.part = some (j, jd, offs) → s.takes i = true → ∀ o ∈ offs, t.ctl.reg o = 0) ∧
  ∀ (s : State) (id : Byte) (i : Instr), i ∈ [.funcRings id, .funcTranslation id, .funcMsq id, .funcPower id, .funcCounters id] →
    s.reaches i id rRESET_CTL = true → s.ctl.privOk id = true → s.ctl.func ≠ 0 →
    ∃ t, exec i s = .next t ∧ s.setsRegs t [rRESET_STATUS] 0 ∧
      t.ctl.reg rRESET_STATUS = s.ctl.reg rRESET_STATUS ||| 1#32 <<< 17

/-- Bring-up (R394, R308, R299, R361, R422): the end of a slice's zero-fill leaves every word of the banks it fills zero (after a reset those that are
not dead, on a return those in use) and no other word changed, and puts the slice in service; the end of a spare bank's fill, every row
of which has been written by then, lets the slots of its rows be allocated; a whole trust item
replaces its value and sets its valid bit; a malformed run of beats only sets the error bit. -/
def Obligations.BringUp : Prop :=
  (∀ (s : State) (n : Nat), s.takes (.zeroFillDone n) = true →
    (s.ctl.filling.contains n || decide ((s.ctl.slice n).fstate = .returning)) = true → s.ctl.pstate ≠ 4 →
    s.ctl.serviceLost = false →
    ∃ t, exec (.zeroFillDone n) s = .next t ∧ t.ctl.isIn n = true ∧ (t.ctl.slice n).fstate = .normal ∧
      (∀ b ∈ s.ctl.fillBanks n, ∀ r < 2080, ∀ w < 16, t.cells.read (cellAddr n b r w) = 0) ∧
      ((s.ctl.slice n).fstate ≠ .returning → ∀ b < 34, b ∈ s.ctl.fillBanks n ↔ s.ctl.isDead n b = false) ∧
      ((s.ctl.slice n).fstate = .returning → ∀ b < 32, s.ctl.physBank n b < 34 → s.ctl.physBank n b ∈ s.ctl.fillBanks n) ∧
      ∀ m b r w, b < 34 → r < 2080 → w < 16 → m ≠ n ∨ b ∉ s.ctl.fillBanks n →
        t.cells.read (cellAddr m b r w) = s.cells.read (cellAddr m b r w)) ∧
  (∀ (s : State) (n b : Nat), s.takes (.spareBankZeroFillDone n b) = true → s.ctl.integ.spareFills.contains (n, b) = true →
    (s.ctl.slice n).fstate ∉ [.fenced, .returning] →
    (∀ j ∈ s.ctl.jobs, ¬ (j.purpose = .zeroRow ∧ j.slice = n ∧ j.phys = some b)) →
    ∃ t, exec (.spareBankZeroFillDone n b) s = .next t ∧ t.ctl.integ.spareFills.contains (n, b) = false ∧
      ∀ q k, s.ctl.bankOf n b = some q → slotSlice k = n → slotQ k = q / 8 →
        (∀ h ∈ s.ctl.integ.hard, ¬ (h.1 = n ∧ rowSlot n h.2.1 h.2.2.1 = k)) → (t.ctl.slot k).condemned = false) ∧
  (∀ (s : State) (w : Word), s.takes (.trustDelivery [(1, w)]) = true →
    ∃ t, exec (.trustDelivery [(1, w)]) s = .next t ∧ t.ctl.reg rNODE_ID = word (2 ^ 31 + fld w 0 16)) ∧
  (∀ (s : State) (w : Word), s.takes (.trustDelivery [(2, w)]) = true →
    ∃ t, exec (.trustDelivery [(2, w)]) s = .next t ∧ s.setsRegs t [rTRUST_STATUS] s.ctl.regRdata ∧
      t.ctl.privMaster = some (fld w 0 8)) ∧
  (∀ (s : State) (i : Nat) (ws : List Word), 1 ≤ i → i ≤ 3 → ws.length = 12 →
    s.takes (.trustDelivery (ws.map fun w => (BitVec.ofNat 8 (0x10 + i), w))) = true →
    ∃ t, exec (.trustDelivery (ws.map fun w => (BitVec.ofNat 8 (0x10 + i), w))) s = .next t ∧
      s.setsRegs t (rTRUST_STATUS :: (List.range 12).map (rKeyHash i)) s.ctl.regRdata ∧
      (∀ j < 12, t.ctl.reg (rKeyHash i j) = ws.getD j 0) ∧ bit (t.ctl.reg rTRUST_STATUS) (i - 1) = true) ∧
  (∀ (s : State) (i : Nat) (w : Word), 1 ≤ i → i ≤ 3 → s.takes (.trustDelivery [(BitVec.ofNat 8 (0x20 + i), w)]) = true →
    ∃ t, exec (.trustDelivery [(BitVec.ofNat 8 (0x20 + i), w)]) s = .next t ∧
      s.setsRegs t [rMIN_SVN (i - 1), rTRUST_STATUS] s.ctl.regRdata ∧ t.ctl.reg (rMIN_SVN (i - 1)) = w ∧
      bit (t.ctl.reg rTRUST_STATUS) (3 + i) = true) ∧
  ∀ (s : State) (c : Byte) (w : Word) (bs : List (Byte × Word)), s.takes (.trustDelivery ((c, w) :: bs)) = true →
    trustBeats c.toNat ≠ some (bs.length + 1) ∨ (∃ b ∈ bs, b.1 ≠ c) →
    ∃ t, exec (.trustDelivery ((c, w) :: bs)) s = .next t ∧ s.setsRegs t [rBND_STATUS] s.ctl.regRdata ∧
      t.ctl.reg rBND_STATUS = s.ctl.reg rBND_STATUS ||| 1#32 <<< 16

/-! ### Generations, integrity, fences -/

/-- A generation commit (R408, R411): GENERATION counts up modulo 2^16 and CONVERGED clears; Keystone control, integrity control
and the energy coefficients become active (with the modulus table and the rename reserve, stated above). GO while the last one
has not converged only sets GEN_BUSY; a commit the MSQ asked for waits for that. -/
def Obligations.GenerationCommit : Prop :=
  (∀ (s : State) (i : Instr) (id : Byte), (i = .genCommit id ∧ s.reaches i id rGEN_COMMIT = true) ∨
      (i = .deferredGenerationCommit ∧ s.takes i = true ∧ s.ctl.deferredCommit = true) → s.ctl.converged = true →
    ∃ t, exec i s = .next t ∧ fld (t.ctl.reg rGEN_STATUS) 16 16 = (fld (s.ctl.reg rGEN_STATUS) 16 16 + 1) % 2 ^ 16 ∧
      t.ctl.converged = false ∧ t.ctl.arbGen = s.ctl.arbGen + 1 ∧ (i = .deferredGenerationCommit → t.ctl.deferredCommit = false) ∧
      t.ctl.reg rKS_CTL_ACT = s.ctl.reg rKS_CTL ∧ t.ctl.reg rINT_CTL_ACT = s.ctl.reg rINT_CTL ∧
      ∀ k < 10, t.ctl.reg (rEC_ACT k) = s.ctl.reg (rEC k)) ∧
  (∀ (s : State) (id : Byte), s.reaches (.genCommit id) id rGEN_COMMIT = true → s.ctl.converged = false →
    ∃ t, exec (.genCommit id) s = .next t ∧ s.setsRegs t [rGEN_STATUS] 0 ∧
      t.ctl.reg rGEN_STATUS = s.ctl.reg rGEN_STATUS ||| 1#32 <<< 9) ∧
  ∀ s : State, s.ctl.converged = false → exec .deferredGenerationCommit s = .next s

/-- Integrity (R291 to R294, R298, R299, R324): a pop drops the oldest entry of the error log; a scrub visit that is alone at its bank, and
whose first read loses no word, writes the row back exactly when it corrected something and nothing else wrote it meanwhile; a bank
copy whose last row is written puts the spare bank in the bank's place; a dead bank is recorded and flagged. -/
def Obligations.IntegrityCommands : Prop :=
  (∀ (s : State) (id : Byte), s.reaches (.errLogPop id) id rERR_LOG_CTL = true →
    exec (.errLogPop id) s = .next { s with ctl := { s.ctl with
      integ := { s.ctl.integ with log := s.ctl.integ.log.drop 1 }, regRdata := 0 } }) ∧
  (∀ (s : State) (n pr pb : Nat) (vs : List (Nat × Nat)) (noise reread verify : List Codeword) (ow : Bool) (j : Job),
    s.takes (.scrubVisit n noise reread verify ow) = true → (s.ctl.slice n).scrubWait = (pr, pb) :: vs →
    s.ctl.power.stopped = false → s.ctl.pstate ≠ 4 → s.ctl.toNight = false → s.ctl.sequenced = false →
    s.ctl.visitAlone n pb pr j → (∀ b r, s.ctl.logical n pb pr = some (b, r) → (n, b, r) ∉ s.ctl.integ.lost) →
    (decodeRow (withNoise (s.cells.readRow n pb pr) noise) []).2.1 = [] →
    ∃ t x, exec (.scrubVisit n noise reread verify ow) s = .next t ∧
      x = decodeRow (withNoise (s.cells.readRow n pb pr) noise) [] ∧ (t.ctl.slice n).scrubWait = vs ∧
      (x.2.2 = 0 ∨ ow = true → t.cells = s.cells ∧ s.ctl.counted t.ctl (rCE_COUNT n) x.2.2) ∧
      (x.2.2 ≠ 0 → ow = false → t.cells = s.cells.writeRow n pb pr x.1)) ∧
  (∀ (s : State) (n b : Nat) (k : BankCopy), s.takes (.bankCopyDone n b) = true →
    s.ctl.integ.copies.find? (fun x => x.slice = n && x.bank = b) = some k → s.ctl.issuing = true → 2048 ≤ k.row →
    (∀ j ∈ s.ctl.jobs, ¬ (j.slice = n ∧ j.purpose = .copyWrite b k.spare)) →
    ∃ t, exec (.bankCopyDone n b) s = .next t ∧ t.ctl.physBank n b = k.spare ∧ k ∉ t.ctl.integ.copies ∧
      bit (t.ctl.reg rINT_EVT) 2 = true) ∧
  ∀ (s : State) (n pb : Nat), s.takes (.deadBank n pb) = true → s.ctl.isDead n pb = false → s.ctl.pstate ≠ 4 →
    ∃ t, exec (.deadBank n pb) s = .next t ∧ t.ctl.isDead n pb = true ∧ bit (t.ctl.reg rINT_EVT) 3 = true ∧
      bit (t.ctl.reg (rSLICE_HEALTH n)) 22 = true ∧ fld (t.ctl.reg (rSLICE_HEALTH n)) 16 6 = pb

/-- Slice fences (R304, R307, R308): a bit newly set takes its slice out of service and starts the evacuation, unless no slice
would be left, when the write only sets FENCE_REJECT; an evacuated slice becomes FENCED with every slot forgotten; a cleared
bit lets a FENCED slice that can return begin its zero-fill, its FENCED bit clear; not once service is lost (R307, log entry 89). -/
def Obligations.SliceFences : Prop :=
  (∀ (s : State) (hi : Bool) (id : Byte) (d : Word) (off : Nat), off = (if hi then rFENCE_REQ_HI else rFENCE_REQ_LO) →
    s.reaches (.sliceFence hi id d) id off = true → s.ctl.fenceChange hi d true = true →
    (∃ m ∈ s.ctl.inService, m ∉ s.ctl.fenceBits hi d ∨ m ∈ s.ctl.fenceBits hi (s.ctl.reg off)) →
    ∃ t, exec (.sliceFence hi id d) s = .next t ∧
      ∀ n ∈ s.ctl.fenceBits hi d, n ∉ s.ctl.fenceBits hi (s.ctl.reg off) → s.ctl.isIn n = true →
        t.ctl.isIn n = false ∧ (t.ctl.slice n).fstate = .fencing ∧ t.ctl.mask rFENCE_REQ_LO rFENCE_REQ_HI n = true ∧
        t.ctl.mask rFENCED_LO rFENCED_HI n = true ∧ bit (t.ctl.reg rINT_EVT) 4 = true) ∧
  (∀ (s : State) (hi : Bool) (id : Byte) (d : Word) (off : Nat), off = (if hi then rFENCE_REQ_HI else rFENCE_REQ_LO) →
    s.reaches (.sliceFence hi id d) id off = true → s.ctl.fenceChange hi d true = true → s.ctl.inService ≠ [] →
    (∀ m ∈ s.ctl.inService, m ∈ s.ctl.fenceBits hi d ∧ m ∉ s.ctl.fenceBits hi (s.ctl.reg off)) →
    ∃ t, exec (.sliceFence hi id d) s = .next t ∧ s.setsRegs t [rINT_EVT] 0 ∧
      t.ctl.reg rINT_EVT = s.ctl.reg rINT_EVT ||| 1#32 <<< 8) ∧
  (∀ (s : State) (n : Nat), s.takes (.sliceFenced n) = true → (s.ctl.slice n).fstate = .fencing →
    (s.ctl.slice n).clearAsked = false → s.ctl.evacuated n = true → s.ctl.issuing = true →
    ∃ t, exec (.sliceFenced n) s = .next t ∧ (t.ctl.slice n).fstate = .fenced ∧ bit (t.ctl.reg rINT_EVT) 5 = true ∧
      ∀ p ∈ t.ctl.slots, slotSlice p.1 ≠ n) ∧
  ∀ (s : State) (hi : Bool) (id : Byte) (d : Word) (off : Nat), off = (if hi then rFENCE_REQ_HI else rFENCE_REQ_LO) →
    s.reaches (.sliceUnfence hi id d) id off = true → s.ctl.fenceChange hi d false = true →
    s.ctl.fenceChange hi d true = false →
    ∃ t, exec (.sliceUnfence hi id d) s = .next t ∧
      ∀ n ∈ s.ctl.fenceBits hi (s.ctl.reg off), n ∉ s.ctl.fenceBits hi d → (s.ctl.slice n).fstate = .fenced →
        (s.ctl.serviceLost = true → (t.ctl.slice n).fstate = .fenced) ∧
        (s.ctl.serviceLost = false → s.ctl.cannotReturn n = false → (t.ctl.slice n).fstate = .returning ∧
          t.ctl.mask rFENCE_REQ_LO rFENCE_REQ_HI n = false ∧ t.ctl.mask rFENCED_LO rFENCED_HI n = false)

/-! ### Descriptors -/

/-- Step 4 for the kinds that go on to step 5 (R134, R139, Table 1.1): the first check that fails completes the descriptor with
its status and detail (in a pair once the peer's signature agrees, R317); one that passes reaches step 5, having sampled the modulus table (R75) and captured the incarnation of
every name it reads or writes (R53). -/
def Obligations.AdmissionOfKinds : Prop :=
  ∀ (s : State) (k : Nat) (i : Instr) (kind : Nat) (d d' : Desc),
    (i, kind) ∈ [(.tileOp k, 1), (.load k, 2), (.store k, 3), (.relayout k, 4), (.gather k, 5), (.scatter k, 6),
      (.scatterAdd k, 7), (.permute k, 8), (.keystream k, 9), (.reduce k, 10)] →
    s.takes i = true → s.ctl.admits k kind d → (s.ctl.atStep4 d).desc? d.key = some d' → s.ctl.calm d.domain = true →
    (kind = 8 → (d.dRef.bind fun t => s.ctl.quoinEntry t.name) = none) →
    ∃ t, exec i s = .next t ∧
      (∀ st de, (s.ctl.atStep4 d).kindChecks d' = some (st, de) → t.ctl.concludes d.key st de) ∧
      ((s.ctl.atStep4 d).kindChecks d' = none →
        ∃ e, t.ctl.desc? d.key = some e ∧ e.stage ∉ [.hold, .check] ∧ e.started = s.ctl.refTicks ∧
          e.mods = ((List.range 64).map fun j => s.ctl.reg (rMODQ_ACTIVE j)) ∧
          e.caps = ((d.reads ++ d.writes).eraseDups).map fun n => (n, (s.ctl.name n).inc))

/-- The kinds that only act on Keystone or wait (R54, R98 to R100, R115, R116, R134, R147, R149, R395): NOP completes; FENCE completes
where its conditions hold and else waits with its timeout; ALLOC is granted its claim, or completes with NO_ROOM or SHORTAGE, or waits untested where only slices that still fill leave it short; FREE
waits for its commit; PIN needs EXPERT, and then records or removes the pin. What completes with OK does so in a pair once the
peer's signature agrees (R317). -/
def Obligations.SimpleKinds : Prop :=
  (∀ (s : State) (k : Nat) (d : Desc), s.takes (.nop k) = true → s.ctl.admits k 0 d → s.ctl.formCheck d = none →
    ∃ t, exec (.nop k) s = .next t ∧ t.ctl.concludes d.key 0 0) ∧
  (∀ (s : State) (k : Nat) (d : Desc), s.takes (.fence k) = true → s.ctl.admits k 11 d → s.ctl.formCheck d = none →
    (∀ e ∈ s.ctl.descs, e.kind = 11 → e.stage = .wait → s.ctl.fenceMet e = false) →
    ∃ t, exec (.fence k) s = .next t ∧ (s.ctl.fenceMet d = true → t.ctl.concludes d.key 0 0) ∧
      (s.ctl.fenceMet d = false → ∃ e, t.ctl.desc? d.key = some e ∧ e.stage = .wait ∧
        e.deadline = if (d.w 4).toNat = 0 then none else some (s.ctl.refTicks + (d.w 4).toNat + 1))) ∧
  (∀ (s : State) (k : Nat) (d : Desc), s.takes (.alloc k) = true → s.ctl.admits k 12 d →
    (s.ctl.formCheck d <|> s.ctl.tileChecks d) = none → d.granted = false →
    (∀ e ∈ s.ctl.descs, e.kind = 12 → e.stage = .wait → e.granted = true) →
    ∃ t, exec (.alloc k) s = .next t ∧ (s.ctl.shortage = true → t.ctl.endsWith d.key 0x40 2) ∧
      (s.ctl.shortage = false → (s.ctl.fillsOn && s.ctl.scarce) = true →
        ∃ e, t.ctl.desc? d.key = some e ∧ e.stage = .wait ∧ e.granted = false) ∧
      (s.ctl.shortage = false → (s.ctl.fillsOn && s.ctl.scarce) = false →
        (s.ctl.claimed + shapeClaim (d.w 4) + 2048 * fld (s.ctl.reg rKS_RESERVE) 8 6 ≤ s.ctl.capacity →
          ∃ e, t.ctl.desc? d.key = some e ∧ e.stage = .wait ∧ e.granted = true) ∧
        (s.ctl.capacity < s.ctl.claimed + shapeClaim (d.w 4) + 2048 * fld (s.ctl.reg rKS_RESERVE) 8 6 →
          t.ctl.endsWith d.key 0x40 1 ∧ bit (t.ctl.reg rKS_STATUS) 0 = true))) ∧
  (∀ (s : State) (k : Nat) (d : Desc), s.takes (.freeName k) = true → s.ctl.admits k 13 d →
    (s.ctl.formCheck d <|> s.ctl.tileChecks d) = none →
    ∃ t e, exec (.freeName k) s = .next t ∧ t.ctl.desc? d.key = some e ∧ e.stage = .written) ∧
  ∀ (s : State) (k n : Nat) (d : Desc), s.takes (.pin k) = true → s.ctl.admits k 14 d →
    (s.ctl.formCheck d <|> s.ctl.check12 d d.tiles) = none → n = fld (d.w 2) 0 14 →
    ∃ t, exec (.pin k) s = .next t ∧
      (bit (s.ctl.reg rKS_CTL_ACT) 0 = false → t.ctl.endsWith d.key 0x40 4 ∧ t.ctl.names = s.ctl.names) ∧
      (bit (s.ctl.reg rKS_CTL_ACT) 0 = true → bit (d.w 1) 8 = true →
        t.ctl.concludes d.key 0 0 ∧ (t.ctl.name n).pin = none) ∧
      (bit (s.ctl.reg rKS_CTL_ACT) 0 = true → bit (d.w 1) 8 = false →
        (s.ctl.pinList { mask := d.addr 4, offset := none, broken := false }
          ((s.ctl.name n).table.span / s.ctl.foldFor (s.ctl.name n).table.span)).isSome = true →
        t.ctl.concludes d.key 0 0 ∧ (t.ctl.name n).pin = some
          { mask := d.addr 4, offset := if bit (d.w 1) 9 then some (fld (d.w 1) 10 5) else none, broken := false })

/-- Holding, slots and commits (R139, R101, R94, R53, R97, R317): the oldest held descriptor that nothing older blocks goes to its
checks; the oldest that waits for slots gets them at its placement (those of an ALLOC stay FREE, promised to it, until its commit maps them, R97); a commit whose incarnations stand publishes what it wrote
and completes, one whose name has changed completes with TILE_NAME; in a pair it first waits for the peer's signature. -/
def Obligations.GrantsAndCommits : Prop :=
  (∀ (s : State) (k : Nat) (d : Desc), s.takes (.dependencyRelease k) = true → s.ctl.admitting = true →
    (s.ctl.ringDescs k).find? (·.stage = .hold) = some d → s.ctl.desc? d.key = some d →
    (∀ e ∈ s.ctl.ringDescs k, e.key.idx < d.key.idx → s.ctl.waitsFor d e = false) →
    ∃ t e, exec (.dependencyRelease k) s = .next t ∧ t.ctl.desc? d.key = some e ∧ e = { d with stage := .check }) ∧
  (∀ (s : State) (d : Desc) (r : TileRef) (x : FragTable), s.takes .freshSlotGrant = true → s.ctl.issuing = true →
    s.ctl.wanted = [] → (∀ e ∈ s.ctl.descs, e.waits5 = true → e.dRef.isSome = true) →
    (∀ e ∈ s.ctl.descs, e.kind = 12 → e.stage = .wait → e.granted = true) →
    (sortBy (fun a b => a.order ≤ b.order) (s.ctl.descs.filter (·.waits5))).find?
      (fun e => e.dRef.isSome && !s.ctl.classHeld e && (e.kind ≠ 12 || e.granted)) = some d →
    s.ctl.desc? d.key = some d → d.dRef = some r → s.ctl.shortage = false → s.ctl.sourcesStand d = true →
    s.ctl.poisonCheck d = none → s.ctl.mustRefold d = [] → d.need ≤ s.ctl.freeSlots →
    s.ctl.place r.name (shRows d.dShape) (shSpan d.dShape) (d.placeOrder (s.ctl.resolved d)) = some x →
    s.ctl.calm d.domain = true →
    ∃ t e, exec .freshSlotGrant s = .next t ∧ t.ctl.desc? d.key = some e ∧ e.srcs = s.ctl.resolved d ∧
      (d.kind ≠ 1 → e.admitted = true) ∧
      (d.kind = 12 → e.stage = .written ∧ e.dst = some x ∧
        ∀ j ∈ x.slots, (t.ctl.slot j).state = .free ∧ (t.ctl.slot j).owner = .desc d.key)) ∧
  (∀ (s : State) (k i : Nat) (d : Desc), s.takes (.commit k i) = true → s.ctl.commitDesc k i = some d →
    s.ctl.desc? d.key = some d → s.ctl.paired = false ∨ d.writes.all (s.ctl.incarnationOk d) = false →
    ∃ t, exec (.commit k i) s = .next t ∧
      (d.writes.all (s.ctl.incarnationOk d) = false → t.ctl.concludes d.key 0x13 0 ∧ t.ctl.names = s.ctl.names) ∧
      (d.writes.all (s.ctl.incarnationOk d) = true → t.ctl.endsWith d.key d.goodStatus 0 ∧
        ∀ n, d.writes.head? = some n →
          (d.kind = 13 → (t.ctl.name n).live = false) ∧
          (d.kind ≠ 13 → ∀ x, d.dst = some x → (t.ctl.name n).table = x ∧ (t.ctl.name n).poison = none) ∧
          (d.kind = 12 → d.dst.isSome = true → (t.ctl.name n).live = true ∧ (t.ctl.name n).shape = d.w 4 ∧
            (t.ctl.name n).inc = (s.ctl.name n).inc + 1))) ∧
  ∀ (s : State) (k i : Nat) (d : Desc), s.takes (.commit k i) = true → s.ctl.commitDesc k i = some d →
    s.ctl.desc? d.key = some d → s.ctl.paired = true → d.writes.all (s.ctl.incarnationOk d) = true →
    (s.ctl.sigFor d.key.ring d.key.idx none).peer = none → s.ctl.linksGated = false →
    (s.ctl.link s.ctl.pairLink).owed = [] →
    ∃ t e, exec (.commit k i) s = .next t ∧ t.ctl.desc? d.key = some e ∧ e.stage = .peer ∧ e.sigWait = true ∧
      t.ctl.outbox = s.ctl.outbox ++ [.link s.ctl.pairLink 10 0
        (sigWords d.key.ring d.key.idx none (s.ctl.signature s.cells d))]

/-- Keystone's own moves (R90, R108, R113, Table 3.3): a slot whose clearing is done is FREE; a due review halves every score; a
migration whose copy is whole and whose name has not been committed since is published, any other that ends is abandoned (a required one that is still needed starts again, R114). -/
def Obligations.KeystoneMoves : Prop :=
  (∀ (s : State) (n r q : Nat), s.takes (.clearingDone n r q) = true → s.ctl.wanted = [] → (s.ctl.slot (slotKey n r q)).state = .clearing →
    (∀ j ∈ s.ctl.jobs, j.purpose ≠ .clear (slotKey n r q)) →
    ∃ t, exec (.clearingDone n r q) s = .next t ∧ (t.ctl.slot (slotKey n r q)).state = .free) ∧
  (∀ s : State, s.takes .review = true → s.ctl.power.reviewDue = true → s.ctl.power.periodDue = false →
    s.ctl.paceInTurn.timeoutsDue = false →
    ∃ t, exec .review s = .next t ∧ t.ctl.power.reviewDue = false ∧
      (s.ctl.reviewing = true → ∀ n, (t.ctl.name n).score = (s.ctl.name n).score / 2) ∧
      (s.ctl.reviewing = false → t.ctl.names = s.ctl.names)) ∧
  ∀ (s : State) (n : Nat) (m : Mig), s.takes (.migrationCommit n) = true → s.ctl.wanted = [] → s.ctl.migs.find? (·.name = n) = some m →
    ∃ t, exec (.migrationCommit n) s = .next t ∧
      ((s.ctl.name n).live = true → (s.ctl.name n).commits = m.commits → m.failed = false → m.dest.count ≤ m.copied.length →
        (t.ctl.name n).table = m.dest ∧ s.ctl.counted t.ctl rMIG_DONE 1 ∧ ∀ x ∈ t.ctl.migs, x.name ≠ n) ∧
      (m.failed = true ∨ (s.ctl.name n).commits ≠ m.commits →
        t.ctl.names = s.ctl.names ∧ s.ctl.counted t.ctl rMIG_ABANDON 1 ∧ m ∉ t.ctl.migs ∧
          (m.required = false → ∀ x ∈ t.ctl.migs, x.name ≠ n))

/-- Parking and restarts (R145, R245, R247, R45): a descriptor whose lowest failed row parks is PARKED at that row; RESUME lets it
run again and ABANDON ends it with ABANDONED; either with nothing parked at the entry only sets RESUME_ERR; a descriptor that a
fence abandoned goes back to step 5 once its tiles lie on slices in service. -/
def Obligations.ParkingAndRestarts : Prop :=
  (∀ (s : State) (k i : Nat) (d : Desc) (b : RowFail), s.takes (.park k i) = true →
    s.ctl.desc? { ring := k, idx := i, sub := 0 } = some d → d.bad = some b → d.stage = .run → b.parks = true →
    s.ctl.belowDone d b.row = true → s.ctl.calm (s.ctl.ringDomain k) = true →
    ∃ t e, exec (.park k i) s = .next t ∧ t.ctl.desc? d.key = some e ∧ e.stage = .parked ∧ e.cursor = b.row ∧
      e.status = 0x20 ∧ e.detail = b.detail) ∧
  (∀ (s : State) (k i : Nat) (id : Byte) (d : Desc), s.reaches (.ringResume k i id) id (rRING_RESUME k) = true →
    s.ctl.pstate ∉ [1, 2, 5] → s.ctl.parkedAt k i = some d → s.ctl.desc? d.key = some d → d.mustRestart = false →
    s.ctl.calm d.domain = true → d.bad = none →
    ∃ t e, exec (.ringResume k i id) s = .next t ∧ t.ctl.desc? d.key = some e ∧ e.stage ≠ .parked) ∧
  (∀ (s : State) (k i : Nat) (id : Byte) (d : Desc), s.reaches (.ringAbandon k i id) id (rRING_RESUME k) = true →
    s.ctl.pstate ∉ [1, 2, 5] → s.ctl.parkedAt k i = some d → s.ctl.desc? d.key = some d →
    ∃ t, exec (.ringAbandon k i id) s = .next t ∧ t.ctl.endsWith d.key 0x40 6) ∧
  (∀ (s : State) (k i : Nat) (id : Byte) (c : Instr), c ∈ [.ringResume k i id, .ringAbandon k i id] →
    s.reaches c id (rRING_RESUME k) = true → s.ctl.pstate ∉ [1, 2] → s.ctl.parkedAt k i = none →
    ∃ t, exec c s = .next t ∧ s.setsRegs t [rRING_STATUS k] 0 ∧
      t.ctl.reg (rRING_STATUS k) = s.ctl.reg (rRING_STATUS k) ||| 1#32 <<< 17) ∧
  ∀ (s : State) (k i : Nat) (d : Desc), s.takes (.restart k i) = true →
    s.ctl.descs.find? (fun d => d.key.ring = k && d.key.idx = i && d.stage = .fenced) = some d →
    s.ctl.desc? d.key = some d → s.ctl.inService ≠ [] →
    (∀ n ∈ d.reads ++ d.writes, (s.ctl.name n).live = true → ∀ m ∈ (s.ctl.name n).table.list, s.ctl.isIn m = true) →
    ∃ t, exec (.restart k i) s = .next t ∧ t.ctl.desc? d.key = some { d with stage := .wait } ∧
      s.ctl.counted t.ctl rRESTARTS 1

/-- Key streams and route programs (R197, R263, R264, R268, R269, R271): a prefetch window that ends drops the prefetch; a stream
that nobody took ends with KEY_ORPHAN; a lane that nothing holds back, or whose last permutation has its token, delivers its
fragment's 128 words; a fetched program is checked by its CRC, then for bijectivity, and then becomes the map. -/
def Obligations.KeysAndPrograms : Prop :=
  (∀ (s : State) (k i : Nat) (d : Desc), s.takes (.prefetchDrop k i) = true →
    s.ctl.desc? { ring := k, idx := i, sub := 0 } = some d → d.prefetchOpen = true → d.phase ≤ s.ctl.refTicks →
    ∃ t e, exec (.prefetchDrop k i) s = .next t ∧ t.ctl.desc? d.key = some e ∧ e.prefetched = false ∧ e.dst = none ∧
      e.stage = d.stage ∧ s.ctl.counted t.ctl rPF_DROPPED 1) ∧
  (∀ (s : State) (k i dl : Nat) (d : Desc), s.takes (.keyOrphan k i) = true →
    s.ctl.desc? { ring := k, idx := i, sub := 0 } = some d → d.isStream = true → d.stage = .run → d.partner = none →
    d.deadline = some dl → dl ≤ s.ctl.refTicks →
    ∃ t, exec (.keyOrphan k i) s = .next t ∧ t.ctl.endsWith d.key 0x40 9) ∧
  (∀ (s : State) (n : Nat) (a : Assign) (as : List Assign) (d : Desc), s.takes (.keyFragmentGenerated n) = true →
    (s.ctl.port n).lane = a :: as → s.ctl.desc? a.key = some d → s.ctl.mayBeat (.lane n) = true →
    s.ctl.power.quiet = false → (s.ctl.power.pace = 2047 ∧ s.ctl.power.gate = 16) ∨
      (d.expand a).2 ≤ (s.ctl.port n).laneBeats + 1 →
    (∀ x ∈ s.ctl.descs, s.ctl.calm x.domain = true) →
    ∃ t, exec (.keyFragmentGenerated n) s = .next t ∧ s.ctl.counted t.ctl rKEY_WORDS 128 ∧
      (d.dst = none → ∃ f ∈ (t.ctl.port n).keyBuf, f.key = d.key ∧ f.row = a.row ∧ f.block = a.block ∧
        f.words = (d.expand a).1.map encodeCw) ∧
      (∀ x, d.dst = some x → (t.ctl.port n).lane = as ∧
        ∃ j ∈ t.ctl.jobs, j.purpose = .put (.dest d.key (a.row * x.span + a.block)) ∧ j.words = (d.expand a).1.map encodeCw)) ∧
  ∀ (s : State) (k : Key) (d : Desc) (prog : List Word), s.takes .routeProgramFetch = true → s.ctl.net.mapOwner = some k →
    s.ctl.desc? k = some d → d.wantsMap = true →
    ((List.range d.segment).mapM fun i => (d.buf.find? (·.1 = i)).map (·.2)) = some prog →
    ∃ t crc want, exec .routeProgramFetch s = .next t ∧ crc = (crc64 (prog.flatMap wordBytes)).toNat ∧
      want = (Tab.get 0 d.aux 3).toNat + 2 ^ 32 * (Tab.get 0 d.aux 4).toNat ∧
      (crc ≠ want → t.ctl.concludes k 0x61 0x20) ∧
      (crc = want → ¬ (prog.map fun w => fld w 0 16).Nodup → t.ctl.concludes k 0x60 8) ∧
      (crc = want → (prog.map fun w => fld w 0 16).Nodup →
        t.ctl.net.mapWords = prog ∧ ∃ e, t.ctl.desc? k = some e ∧ e.phase = 1)

/-! ### Arbiters, the network, ports -/

/-- A round, a pass and the end of a wave (R188, R202, R206, R223, R276, R288): a round grants one of the requesters that take
part, one of tier F where one takes part, and counts the grant; a pass uses up one of those its mode holds; a closed wave's
partials leave the buffers and the next wave becomes the oldest. -/
def Obligations.RoundsPassesWaves : Prop :=
  (∀ (s : State) (a : ArbId) (ks : List Nat) (noise reread : List Codeword), s.takes (.round a ks noise reread) = true →
    ks ≠ [] → (∀ k ∈ ks, s.ctl.requests a k = true) → s.ctl.mayGrant = true →
    (∀ k ∈ ks, k < (s.ctl.arb a).reqs.length) →
    ∃ t w r r', exec (.round a ks noise reread) s = .next t ∧ w ∈ ks ∧
      (∀ n b, a = .bank n b → (∃ k ∈ ks, k ≤ 8) → w ≤ 8) ∧
      (s.ctl.arb a).reqs[w]? = some r ∧ (t.ctl.arb a).reqs[w]? = some r' ∧
      r'.grants = min (r.grants + 1) (2 ^ 48 - 1)) ∧
  (∀ (s : State) (noise : List Codeword) (d : Desc) (x : FragTable), s.takes (.pass noise) = true →
    s.ctl.net.passesLeft ≠ 0 → s.ctl.mayBeat .network = true → s.ctl.net.mode = 1 → s.ctl.permHead = some d →
    d.dst = some x → s.ctl.passReady d = true →
    ∃ t, exec (.pass noise) s = .next t ∧ t.ctl.net.passesLeft < s.ctl.net.passesLeft ∧
      s.ctl.counted t.ctl rPERM_VECTORS 1) ∧
  (∀ (s : State) (noise : List Codeword), s.takes (.pass noise) = true → s.ctl.net.passesLeft ≠ 0 →
    s.ctl.mayBeat .network = true → s.ctl.net.mode ≠ 1 → (∃ f ∈ s.ctl.net.flits, f.injected = true) →
    ∃ t, exec (.pass noise) s = .next t ∧ t.ctl.net.passesLeft < s.ctl.net.passesLeft) ∧
  ∀ (s : State) (k i : Nat) (d : Desc) (x : FragTable), s.takes (.waveClose k i) = true →
    s.ctl.desc? { ring := k, idx := i, sub := 0 } = some d → d.dst = some x → d.kind ∈ [6, 7] → d.stage = .run →
    d.ordered = true → s.ctl.waveClosed d d.prog = true → s.ctl.oldestWave d = d.prog →
    ∃ t e, exec (.waveClose k i) s = .next t ∧ t.ctl.desc? d.key = some e ∧ e.prog = d.prog + 1 ∧
      ∀ w ∈ t.ctl.net.waves, ¬ (w.key = d.key ∧ w.window / 64 = d.prog)

/-- Operand and result beats and their timeouts (R157, R161, R163, R165, R179): an accepted operand beat is outstanding under the
port's SEQ, which counts up modulo 64 and begins anew with the first beat presented after READY; a result beat with the SEQ of the
oldest takes it off, with its token or while issue is stopped; one with another SEQ, and either timeout, mark the unit gone with its
cause. -/
def Obligations.PortBeats : Prop :=
  (∀ (s : State) (n : Nat) (a : Assign) (as : List Assign), s.takes (.operandBeat n) = true →
    (s.ctl.port n).opReq.isSome = true → (s.ctl.port n).queue = a :: as → (∀ x ∈ s.ctl.descs, s.ctl.calm x.domain = true) →
    ∃ t, exec (.operandBeat n) s = .next t ∧
      (t.ctl.port n).outst = (s.ctl.port n).outst ++ [{
        seq := (s.ctl.port n).seq, what := a, fmt := ((s.ctl.desc? a.key).map fun d => shFmt d.dShape).getD 0 }] ∧
      (t.ctl.port n).seq = (if (s.ctl.port n).seqFresh then 0 else ((s.ctl.port n).seq + 1) % 64) ∧ (t.ctl.port n).queue = as ∧
      s.ctl.counted t.ctl (rOP_BEATS n) 1) ∧
  (∀ (s : State) (n : Nat) (wh : Codeword) (lanes : List Codeword) (o : Outst) (os : List Outst) (w : Word),
    s.takes (.resultBeat n wh lanes) = true → (s.ctl.port n).state ∈ [.ready, .quiescing] → (s.ctl.port n).outst = o :: os →
    s.ctl.power.stopped = true ∨ s.ctl.startDawn.mayBeat (.result n) = true →
    (∀ x, (s.ctl.port n).wReq = some x → x = (wh, lanes)) → decodeCw wh = .ok w ∨ decodeCw wh = .corrected w →
    (∀ x ∈ s.ctl.descs, s.ctl.calm x.domain = true) →
    ∃ t, exec (.resultBeat n wh lanes) s = .next t ∧
      (fld w 0 6 = o.seq → (t.ctl.port n).outst.map (·.seq) = os.map (·.seq) ∧ s.ctl.counted t.ctl (rW_BEATS n) 1) ∧
      (fld w 0 6 ≠ o.seq → (t.ctl.port n).state = .gone ∧ (t.ctl.port n).cause = 4)) ∧
  (∀ (s : State) (n dl : Nat), s.takes (.ackTimeout n) = true → (s.ctl.port n).opReq = some dl →
    s.ctl.sliceDue n dl = true →
    ∃ t, exec (.ackTimeout n) s = .next t ∧ (t.ctl.port n).state = .gone ∧ (t.ctl.port n).cause = 1 ∧
      (t.ctl.port n).opReq = none) ∧
  ∀ (s : State) (n dl : Nat), s.takes (.wTimeout n) = true → (s.ctl.port n).wDeadline = some dl →
    (s.ctl.port n).outst ≠ [] → s.ctl.sliceDue n dl = true →
    ∃ t, exec (.wTimeout n) s = .next t ∧ (t.ctl.port n).state = .gone ∧ (t.ctl.port n).cause = 2 ∧
      (t.ctl.port n).outst = []

/-- Roll call and departure (R171 to R176, Tables 5.3, 5.4): PRESENT at an ABSENT port of a slice in service starts the roll call;
each good word is kept and the next asked for, the fourth makes the port READY with its capabilities, or REFUSED where its
class is not one; no word in time is REFUSED; PRESENT low frees an idle port and marks one at work gone. -/
def Obligations.RollCall : Prop :=
  (∀ (s : State) (n : Nat), s.takes (.rollCall n) = true → s.ctl.pstate ∉ [2, 4, 5] → (s.ctl.port n).state = .absent →
    s.ctl.isIn n = true →
    ∃ t, exec (.rollCall n) s = .next t ∧ (t.ctl.port n).state = .rolling ∧ (t.ctl.port n).present = true ∧
      t.ctl.outbox = s.ctl.outbox ++ [.rollCall n 0] ∧ t.ctl.regs = s.ctl.regs) ∧
  (∀ (s : State) (n : Nat) (cw : Codeword) (w : Word), s.takes (.rollCallWord n cw) = true →
    (s.ctl.port n).state = .rolling → decodeCw cw = .ok w ∨ decodeCw cw = .corrected w →
    ∃ t ws, exec (.rollCallWord n cw) s = .next t ∧ ws = (s.ctl.port n).rcWords ++ [w] ∧
      ((s.ctl.port n).rcIdx < 3 → (t.ctl.port n).state = .rolling ∧ (t.ctl.port n).rcWords = ws ∧
        (t.ctl.port n).rcIdx = (s.ctl.port n).rcIdx + 1 ∧
        t.ctl.outbox = s.ctl.outbox ++ [.rollCall n ((s.ctl.port n).rcIdx + 1)]) ∧
      (3 ≤ (s.ctl.port n).rcIdx → fld (ws.getD 0 0) 0 8 ∈ [0, 0xFF] →
        (t.ctl.port n).state = .refused ∧ (t.ctl.port n).cause = 8) ∧
      (3 ≤ (s.ctl.port n).rcIdx → fld (ws.getD 0 0) 0 8 ∉ [0, 0xFF] →
        s.ctl.classPorts (fld (ws.getD 0 0) 0 8) [.ready, .quiescing] = [] →
        (t.ctl.port n).state = .ready ∧ t.ctl.reg (rPORT_CAP0 n) = ws.getD 0 0 ∧
        t.ctl.reg (rPORT_CAP3 n) = ws.getD 3 0)) ∧
  (∀ (s : State) (n : Nat) (cw : Codeword), s.takes (.rollCallWord n cw) = true → (s.ctl.port n).state = .rolling →
    decodeCw cw = .uncorrectable →
    ∃ t, exec (.rollCallWord n cw) s = .next t ∧
      ((s.ctl.port n).rcTries < 2 → (t.ctl.port n).state = .rolling ∧
        t.ctl.outbox = s.ctl.outbox ++ [.rollCall n (s.ctl.port n).rcIdx]) ∧
      (2 ≤ (s.ctl.port n).rcTries → (t.ctl.port n).state = .refused ∧ (t.ctl.port n).cause = 10)) ∧
  (∀ (s : State) (n : Nat), s.takes (.rollTimeout n) = true → (s.ctl.port n).state = .rolling →
    s.ctl.sliceDue n (s.ctl.port n).rcDeadline = true →
    ∃ t, exec (.rollTimeout n) s = .next t ∧ (t.ctl.port n).state = .refused ∧ (t.ctl.port n).cause = 11) ∧
  ∀ (s : State) (n : Nat), s.takes (.presentLow n) = true → s.ctl.pstate ≠ 4 →
    (s.ctl.port n).state ∈ [.ready, .quiescing] →
    ∃ t, exec (.presentLow n) s = .next t ∧ (t.ctl.port n).present = false ∧
      ((s.ctl.port n).outst = [] → (s.ctl.port n).queue = [] → (t.ctl.port n).state = .absent) ∧
      ((s.ctl.port n).outst ≠ [] ∨ (s.ctl.port n).queue ≠ [] → (t.ctl.port n).state = .gone ∧ (t.ctl.port n).cause = 3)

/-- PORT_CTL (R179, R181 to R183, Table 5.3): RESET makes a port ABSENT, but not a FENCED one, nor one that the fence of its slice
marked gone while the slice is out of service; QUIESCE stops a READY port from taking
work, and QUIESCED at once with none left; its clear makes the port READY; FENCE makes any port FENCED and its clear ABSENT. -/
def Obligations.PortControl : Prop :=
  (∀ (s : State) (n : Nat) (id : Byte), s.reaches (.portReset n id) id (rPORT_CTL n) = true →
    ∃ t, exec (.portReset n id) s = .next t ∧ (t.ctl.port n).outst = [] ∧ (t.ctl.port n).opReq = none ∧
      (t.ctl.port n).state = (if (s.ctl.port n).state = .fenced then .fenced
        else if (s.ctl.port n).state = .gone ∧ (s.ctl.port n).cause = 7 ∧ s.ctl.isIn n = false then .gone else .absent)) ∧
  (∀ (s : State) (n : Nat) (id : Byte), s.reaches (.quiesceSet n id) id (rPORT_CTL n) = true → (s.ctl.port n).state = .ready →
    ∃ t, exec (.quiesceSet n id) s = .next t ∧ bit (t.ctl.reg (rPORT_CTL n)) 1 = true ∧
      (t.ctl.port n).state =
        (if (s.ctl.port n).queue = [] ∧ (s.ctl.port n).outst = [] then .quiesced else .quiescing)) ∧
  (∀ (s : State) (n : Nat) (id : Byte), s.reaches (.quiesceClear n id) id (rPORT_CTL n) = true →
    (s.ctl.port n).state ∈ [.quiescing, .quiesced] →
    ∃ t, exec (.quiesceClear n id) s = .next t ∧ bit (t.ctl.reg (rPORT_CTL n)) 1 = false ∧ (t.ctl.port n).state = .ready) ∧
  (∀ (s : State) (n : Nat) (id : Byte), s.reaches (.portFenceSet n id) id (rPORT_CTL n) = true →
    ∃ t, exec (.portFenceSet n id) s = .next t ∧ bit (t.ctl.reg (rPORT_CTL n)) 0 = true ∧ (t.ctl.port n).state = .fenced) ∧
  ∀ (s : State) (n : Nat) (id : Byte), s.reaches (.portFenceClear n id) id (rPORT_CTL n) = true →
    (s.ctl.port n).state = .fenced →
    ∃ t, exec (.portFenceClear n id) s = .next t ∧ s.ctl.keeps t.ctl [rPORT_CTL n] ∧
      bit (t.ctl.reg (rPORT_CTL n)) 0 = false ∧ (t.ctl.port n).state = .absent

/-! ### Services and the management sequencer -/

/-- Services (R369, R371, R373 to R376, R379, R380, R385): the next SERVICE starts when none runs; IMAGE_LOAD reads its envelope,
or ends with MEM_ALIGN; a hashed image goes to the PKE port; IMAGE_DROP takes the valid bit away; KEY_SCHEDULE reads its
header, and ends once its entries are written; RELAYOUT_BULK reads its list, admits image after image and ends; DEFRAG begins
the required migration of the next fragmented name, or ends. -/
def Obligations.ServicesRun : Prop :=
  (∀ (s : State) (k : Nat) (d : Desc), s.takes (.serviceStart k) = true → s.ctl.admits k 15 d → s.ctl.formCheck d = none →
    s.ctl.msq.svc = none → s.ctl.autoDue = false → s.ctl.msq.state ≠ 0 → s.ctl.issuing = true → d.key.sub = 0 →
    (∀ e ∈ s.ctl.descs, ¬ (e.kind = 15 ∧ e.stage = .wait)) →
    ∃ t, exec (.serviceStart k) s = .next t ∧
      (fld (d.w 1) 8 8 < 3 ∨ s.ctl.msq.state = 2 →
        t.ctl.msq.svc = some (Svc.start (some d.key) (fld (d.w 1) 8 8) d.svcCount) ∧
        ∃ e, t.ctl.desc? d.key = some e ∧ e.stage = .run) ∧
      (3 ≤ fld (d.w 1) 8 8 → s.ctl.msq.state ≠ 2 → t.ctl.msq.svc = none ∧ t.ctl.concludes d.key 0x61 0x01)) ∧
  (∀ (s : State) (v : Svc) (d : Desc), s.takes .imageLoad = true → s.ctl.runsService 1 v d → v.phase = 0 →
    s.ctl.calm d.domain = true →
    ∃ t, exec .imageLoad s = .next t ∧
      ((d.addr 2).toNat % 64 = 0 → (∃ u, t.ctl.msq.svc = some u ∧ u.phase = 1) ∧
        ∀ p < 5, ∃ b ∈ t.ctl.mem.bursts, b.purpose = .svcRd p ∧ b.va = d.addr 2 + BitVec.ofNat 64 (64 * p)) ∧
      ((d.addr 2).toNat % 64 ≠ 0 → t.ctl.msq.svc = none ∧ t.ctl.concludes d.key 0x11 0)) ∧
  (∀ (s : State) (v : Svc) (d : Desc), s.takes .imageHashDone = true → s.ctl.runsService 1 v d → v.phase = 2 →
    s.ctl.msq.pkeDeadline = none → s.ctl.msq.pkeOwed = none →
    ∃ t, exec .imageHashDone s = .next t ∧
      (fld (d.w 5) 4 4 = 2 → v.broken = true → t.ctl.msq.svc = none ∧ t.ctl.concludes d.key 0x61 6) ∧
      (fld (d.w 5) 4 4 ≠ 2 ∨ v.broken = false →
        t.ctl.outbox = s.ctl.outbox ++ [.pke (pkeRequest (v.image d).1 (v.image d).2)] ∧
        t.ctl.msq.pkeDeadline = some (s.ctl.refTicks + 16385))) ∧
  (∀ (s : State) (v : Svc) (d : Desc) (off : Nat), s.takes .imageDrop = true → s.ctl.runsService 2 v d →
    off = (if fld (d.w 5) 4 4 = 1 then rFW_INFO else if fld (d.w 5) 4 4 = 2 then rLIB_INFO (fld (d.w 5) 0 4)
      else rPOLICY_INFO) →
    ∃ t, exec .imageDrop s = .next t ∧ bit (t.ctl.reg off) 31 = false ∧ t.ctl.msq.svc = none ∧ t.ctl.concludes d.key 0 0) ∧
  (∀ (s : State) (v : Svc) (d : Desc), s.takes .keySchedule = true → s.ctl.runsService 3 v d →
    s.ctl.calm d.domain = true →
    ∃ t, exec .keySchedule s = .next t ∧
      (v.phase = 0 → (∃ u, t.ctl.msq.svc = some u ∧ u.phase = 1) ∧
        ∃ b ∈ t.ctl.mem.bursts, b.purpose = .svcRd 0) ∧
      (3 ≤ v.phase → t.ctl.msq.svc = none ∧ t.ctl.concludes d.key 0 0 ∧
        ∃ e, t.ctl.desc? d.key = some e ∧ e.rowsDone = v.rows)) ∧
  (∀ (s : State) (v : Svc) (d : Desc), s.takes .relayoutBulk = true → s.ctl.runsService 4 v d → s.ctl.images = [] →
    s.ctl.calm d.domain = true →
    ∃ t, exec .relayoutBulk s = .next t ∧
      (v.phase = 0 → ∃ u, t.ctl.msq.svc = some u ∧ u.phase = 1) ∧
      (v.phase ≠ 0 → v.rows < v.count →
        ∃ e ∈ t.ctl.descs, e.key = { d.key with sub := v.rows + 1 }) ∧
      (v.phase ≠ 0 → v.count ≤ v.rows → t.ctl.msq.svc = none ∧ t.ctl.concludes d.key 0 0 ∧
        ∃ e, t.ctl.desc? d.key = some e ∧ e.rowsDone = v.rows ∧ e.energy = v.sum)) ∧
  ∀ (s : State) (v : Svc) (d : Desc), s.takes .defrag = true → s.ctl.runsService 5 v d → v.phase = 0 → v.tries = [] →
    ∃ t, exec .defrag s = .next t ∧
      (s.ctl.defragVisit v.count = none → bit (d.w 5) 0 = false → t.ctl.msq.svc = none ∧ t.ctl.concludes d.key 0 0) ∧
      ∀ n x, s.ctl.defragVisit v.count = some n → s.ctl.migrating n = false → s.ctl.defragPlace n 0 = some x →
        ∃ m ∈ t.ctl.migs, m.name = n ∧ m.required = true ∧ m.dest = x

/-- Recalibration (R377, R378): a fit of windows too much alike ends with RESULT 2; one whose ratios lie within 0.5 to 2.0 writes
the pending coefficients and asks for a commit; four times the windows' periods without enough of them end with NO_MEAS; a run
that divergence asked for starts by itself when the MSQ is free. -/
def Obligations.Recalibration : Prop :=
  (∀ (s : State) (v : Svc), s.takes .recalibrate = true → s.ctl.msq.svc = some v → v.number = 6 → v.phase = 1 →
    v.count ≤ v.samples.length →
    ∃ t f, exec .recalibrate s = .next t ∧ f = fitOf v.samples ∧
      (spreadOk v.samples = false → t.ctl.msq.svc = none ∧ fld (t.ctl.reg rRECAL_STATUS) 28 4 = 2) ∧
      (spreadOk v.samples = true → (ratioOk f.1 f.2.2 && ratioOk f.2.1 f.2.2) = false →
        t.ctl.msq.svc = none ∧ fld (t.ctl.reg rRECAL_STATUS) 28 4 = 3) ∧
      (spreadOk v.samples = true → (ratioOk f.1 f.2.2 && ratioOk f.2.1 f.2.2) = true →
        fld (t.ctl.reg rRECAL_STATUS) 28 4 = 1 ∧
        (t.ctl.deferredCommit = true ∨ t.ctl.arbGen = s.ctl.arbGen + 1) ∧
        ∀ k < 10, t.ctl.reg (rEC k) =
          word (max 1 (min 0xFFFF (scaleRound (fld (s.ctl.reg (rEC_ACT k)) 0 16) f.1 f.2.2))))) ∧
  (∀ (s : State) (v : Svc), s.takes .recalNoMeas = true → s.ctl.msq.svc = some v → v.number = 6 → v.phase = 1 →
    v.samples.length < v.count → 4 * v.count ≤ v.periods →
    ∃ t, exec .recalNoMeas s = .next t ∧ t.ctl.msq.svc = none ∧ fld (t.ctl.reg rRECAL_STATUS) 28 4 = 4 ∧
      s.ctl.counted t.ctl rSVC_DONE 1) ∧
  ∀ s : State, s.takes .autoRecal = true → s.ctl.autoDue = true →
    exec .autoRecal s = .next { s with ctl := { s.ctl with msq := { s.ctl.msq with
      svc := some { Svc.start none 6 16 with phase := 1 } } } }

/-- The MSQ's states and the PKE port (R370, R380, R381, R421, Table 12.5): RESTART runs halted firmware again; the watchdog halts
running firmware and ends its service; an answer in time decides the load that waits for it; none in time ends it with
PKE_TIMEOUT, and its answer is then owed: that one, or the end of the further wait, frees the port. -/
def Obligations.SequencerAndPke : Prop :=
  (∀ (s : State) (id : Byte), s.reaches (.msqRestart id) id rMSQ_CTL = true → s.ctl.msq.state = 3 →
    ∃ t, exec (.msqRestart id) s = .next t ∧ t.ctl.msq.state = 2 ∧ bit (t.ctl.reg rREADY) 6 = true ∧
      t.ctl.msq.watchdog = some (s.ctl.refTicks + max 1 (s.ctl.rf rMSQ_CTL 16 16) + 1)) ∧
  (∀ (s : State) (w : Nat), s.takes .watchdog = true → s.ctl.msq.watchdog = some w → w ≤ s.ctl.refTicks →
    s.ctl.msq.state = 2 → s.ctl.pstate ≠ 4 →
    ∃ t, exec .watchdog s = .next t ∧ t.ctl.msq.state = 3 ∧ t.ctl.msq.watchdog = none ∧
      (s.ctl.svcFirmware = true → t.ctl.msq.svc = none)) ∧
  (∀ (s : State) (code w : Nat), s.takes (.pkeOutcome code) = true → s.ctl.msq.pkeOwed = some w →
    ∃ t, exec (.pkeOutcome code) s = .next t ∧ t.ctl.msq.pkeOwed = none ∧ bit (t.ctl.reg rBND_STATUS) 18 = true ∧
      t.ctl.descs = s.ctl.descs) ∧
  (∀ (s : State) (code w : Nat) (v : Svc) (d : Desc), s.takes (.pkeOutcome code) = true → s.ctl.msq.pkeOwed = none →
    s.ctl.msq.pkeDeadline = some w → s.ctl.runsService 1 v d → v.phase = 4 →
    ∃ t, exec (.pkeOutcome code) s = .next t ∧ t.ctl.msq.pkeDeadline = none ∧ t.ctl.msq.svc = none ∧
      (code = 0 → fld (d.w 5) 4 4 = 2 → directoryOk (v.image d).2 = false → t.ctl.concludes d.key 0x61 6) ∧
      (code = 0 → fld (d.w 5) 4 4 = 1 → t.ctl.concludes d.key 0 0 ∧ t.ctl.msq.state = 2 ∧
        t.ctl.msq.firmware = (v.image d).2 ∧ bit (t.ctl.reg rFW_INFO) 31 = true) ∧
      (code = 0 → fld (d.w 5) 4 4 = 3 → t.ctl.concludes d.key 0 0 ∧ t.ctl.msq.policy = (v.image d).2 ∧
        bit (t.ctl.reg rPOLICY_INFO) 31 = true) ∧
      ∀ c sub, (c, sub) ∈ [(1, 0x10), (2, 0x11), (3, 0x12)] → code = c → t.ctl.concludes d.key 0x61 sub) ∧
  (∀ (s : State) (w : Nat) (v : Svc) (d : Desc), s.takes .pkeTimeout = true → s.ctl.msq.pkeDeadline = some w →
    w ≤ s.ctl.refTicks → s.ctl.pstate ≠ 4 → s.ctl.runsService 1 v d → v.phase = 4 →
    ∃ t, exec .pkeTimeout s = .next t ∧ t.ctl.msq.pkeDeadline = none ∧ t.ctl.msq.pkeOwed = some (s.ctl.refTicks + 16385) ∧
      t.ctl.concludes d.key 0x61 0x13) ∧
  ∀ (s : State) (w : Nat), s.takes .pkeFurtherWaitEnd = true → s.ctl.msq.pkeOwed = some w → w ≤ s.ctl.refTicks →
    s.ctl.pstate ≠ 4 →
    ∃ t, exec .pkeFurtherWaitEnd s = .next t ∧ t.ctl.msq.pkeOwed = none ∧ t.ctl.descs = s.ctl.descs

/-! ### Joined instances and pairs -/

/-- Joining and aliases (R208 to R211, R424): JOIN sends the own word to every named peer, and in pair mode only fails; a peer's
word that names another instance of those asked for brings its link up, and one that clashes leaves JOINED as it is; an alias entry cannot become valid over a LIVE name;
a query is answered with the name's record; the answer lets the alias PERMUTE go to step 5 or ends it; a link that is down
loses its bit, and ends its alias PERMUTEs. -/
def Obligations.JoiningAndAliases : Prop :=
  (∀ (s : State) (id : Byte) (d : Word), s.reaches (.join id d) id rQUOIN_CTL = true → s.ctl.mbPriv id = true →
    bit d 0 = true → s.ctl.joined = false →
    ∃ t, exec (.join id d) s = .next t ∧ t.ctl.reg rQUOIN_CTL = d &&& 0xFF0F0301 ∧
      (bit (s.ctl.reg rPAIR_STATUS) 31 = true → t.ctl.outbox = s.ctl.outbox ∧ bit (t.ctl.reg rQUOIN_STATUS) 1 = true ∧
        fld (t.ctl.reg rQUOIN_STATUS) 8 3 = 1) ∧
      (bit (s.ctl.reg rPAIR_STATUS) 31 = false → s.ctl.linksGated = false →
        (∀ l < 3, (s.ctl.link l).peer = none ∧ (s.ctl.link l).owed = []) → t.ctl.outbox = s.ctl.outbox ++ ((List.range 3).filter fun l => bit d (16 + (fld d 8 2 + 1 + l) % 4)).map
          fun l => .link l 1 0 [word (fld d 8 2 + fld d 16 4 * 2 ^ 4)])) ∧
  (∀ (s : State) (l : Nat) (w : Word), s.takes (.joinWord l w) = true → s.ctl.linksGated = false →
    ∃ t, exec (.joinWord l w) s = .next t ∧ (t.ctl.link l).peer = some w.toNat ∧ (t.ctl.link l).alive = true ∧
      (bit (s.ctl.reg rQUOIN_CTL) 0 = true → bit (s.ctl.reg rPAIR_STATUS) 31 = false →
        (fld w 0 2 ≠ fld (s.ctl.reg rQUOIN_CTL) 8 2 → bit (s.ctl.reg rQUOIN_CTL) (16 + fld w 0 2) = true →
          (∀ p ∈ s.ctl.joinWords, p.1 ≠ l → s.ctl.wordClashes p.2 = false) →
          t.ctl.joined = true ∧ t.ctl.linkUp (fld w 0 2) = true) ∧
        (fld w 0 2 = fld (s.ctl.reg rQUOIN_CTL) 8 2 ∨ bit (s.ctl.reg rQUOIN_CTL) (16 + fld w 0 2) = false →
          t.ctl.joined = s.ctl.joined ∧ bit (t.ctl.reg rQUOIN_STATUS) 1 = true ∧
          fld (t.ctl.reg rQUOIN_STATUS) 8 3 = 2))) ∧
  (∀ (s : State) (a : Nat) (second : Bool) (id : Byte) (d : Word) (off : Nat),
    off = (if second then rQUOIN_ALIAS_B a else rQUOIN_ALIAS_A a) →
    s.reaches (.quoinAliasWrite a second id d) id off = true → s.ctl.aliasAllowed id = true →
    ∃ t, exec (.quoinAliasWrite a second id d) s = .next t ∧ s.setsRegs t [off] 0 ∧
      t.ctl.reg off =
        (if second then d &&& 0x003F3FFF else if bit d 31 && (s.ctl.name (fld d 0 14)).live then s.ctl.reg off
          else d &&& 0xBF033FFF)) ∧
  (∀ (s : State) (l : Nat) (w : Word), s.takes (.aliasQuery l w) = true → s.ctl.joined = true →
    s.ctl.linksGated = false → (s.ctl.link l).owed = [] →
    ∃ t r, exec (.aliasQuery l w) s = .next t ∧ r = s.ctl.name (fld w 0 14) ∧
      t.ctl.outbox = s.ctl.outbox ++ [.link l 4 0
        [word ((if r.live then 2 ^ 31 + r.domain * 2 ^ 24 else 0) + r.inc.toNat), r.shape, r.modulus]]) ∧
  (∀ (s : State) (l a : Nat) (w0 w1 w2 : Word) (d : Desc) (r : TileRef) (f : TileRef → Option (Word × Word)),
    s.takes (.aliasAnswer l w0 w1 w2) = true → (s.ctl.link l).asked = true →
    s.ctl.descs.find? (fun d => d.stage = .check && d.viaLink = some l) = some d → s.ctl.desc? d.key = some d →
    d.dRef = some r → s.ctl.quoinEntry r.name = some a → f = (fun t => if t.role = 9 then some (w1, w2) else s.ctl.recorded t) →
    ∃ t, exec (.aliasAnswer l w0 w1 w2) s = .next t ∧
      (bit w0 31 = false → t.ctl.concludes d.key 0x13 0) ∧
      (bit w0 31 = true → fld w0 24 6 ≠ s.ctl.rf (rQUOIN_ALIAS_B a) 16 6 → t.ctl.concludes d.key 0x14 1) ∧
      (bit w0 31 = true → fld w0 24 6 = s.ctl.rf (rQUOIN_ALIAS_B a) 16 6 →
        (s.ctl.check3 d (fun t => (f t).map (·.1)) <|> s.ctl.check4 d f <|> s.ctl.routeChecks d <|> s.ctl.poisonCheck d) = none →
        ∃ e, t.ctl.desc? d.key = some e ∧ e.stage = .wait)) ∧
  ∀ (s : State) (l : Nat) (i : Instr), s.takes i = true →
    i = .linkDown l ∨ (i = .linkHandshakeTimeout l ∧ ∃ dl, (s.ctl.link l).deadline = some dl ∧ dl ≤ s.ctl.refTicks) →
    ∃ t, exec i s = .next t ∧ t.ctl.linkUp (s.ctl.linkPeer l) = false ∧ (i = .linkDown l → (t.ctl.link l).alive = false) ∧
      (∀ x d, s.ctl.desc? x = some d → d.kind = 8 → d.viaLink = some l → ∃ e, t.ctl.desc? x = some e ∧ e.completed = true) ∧
      (s.ctl.paired = true → l = s.ctl.pairLink → t.ctl.halted = true)

/-- Transfers to an alias (R212, R213): a DATA beat in its order goes into the network, one whose turn it is not changes nothing;
READY makes the sender commit; COMMIT publishes the transfer if the name still has the incarnation the query saw; its
acknowledgement completes the sender's descriptor; RESEND starts the transfer over. -/
def Obligations.AliasTransfers : Prop :=
  (∀ (s : State) (l unit : Nat) (ws : List Codeword) (x : Incoming) (y : FragTable),
    s.takes (.quoinData l unit ws) = true → s.ctl.net.incoming.find? (·.1 = l) = some (l, x) → x.table = some y →
    y.frags ≠ [] →
    ∃ t, exec (.quoinData l unit ws) s = .next t ∧
      (unit % 4096 = x.units % 4096 →
        t.ctl.net.incoming.find? (·.1 = l) = some (l, { x with units := x.units + 1 }) ∧
        t.ctl.net.flits.length = s.ctl.net.flits.length +
          (ws.zipIdx.filter fun p => x.units * s.ctl.beatWords + p.2 < 128 * y.count).length) ∧
      (unit % 4096 ≠ x.units % 4096 → t = s)) ∧
  (∀ (s : State) (l : Nat) (d : Desc), s.takes (.ready l) = true → s.ctl.aliasSent l = some d → s.ctl.desc? d.key = some d →
    s.ctl.linksGated = false → (s.ctl.link l).owed = [] →
    ∃ t, exec (.ready l) s = .next t ∧ t.ctl.outbox = s.ctl.outbox ++ [.link l 7 0 []] ∧
      t.ctl.desc? d.key = some { d with sigWait := true }) ∧
  (∀ (s : State) (l : Nat) (x : Incoming) (y : FragTable), s.takes (.commitWord l) = true →
    s.ctl.net.incoming.find? (·.1 = l) = some (l, x) → x.table = some y → y.frags ≠ [] → y.count ≤ x.doneFrags.length →
    ∃ t, exec (.commitWord l) s = .next t ∧ t.ctl.net.incoming.find? (·.1 = l) = none ∧
      ((s.ctl.name x.name).live = true → (s.ctl.name x.name).inc = x.inc →
        (t.ctl.name x.name).table = y ∧ s.ctl.counted t.ctl rQUOIN_IN_COMMITS 1 ∧
        t.ctl.reg rQUOIN_LAST_IN = word (s.ctl.linkPeer l * 2 ^ 24 + x.name)) ∧
      ((s.ctl.name x.name).live = false ∨ (s.ctl.name x.name).inc ≠ x.inc →
        t.ctl.names = s.ctl.names ∧ t.ctl.regs = s.ctl.regs)) ∧
  (∀ (s : State) (l : Nat) (d : Desc), s.takes (.quoinCommitAck l) = true → s.ctl.aliasSent l = some d →
    s.ctl.desc? d.key = some d → d.sigWait = true → s.ctl.paired = false →
    ∃ t, exec (.quoinCommitAck l) s = .next t ∧ t.ctl.endsWith d.key d.goodStatus 0) ∧
  ∀ (s : State) (l : Nat) (d : Desc), s.takes (.resend l) = true → s.ctl.aliasSent l = some d →
    s.ctl.desc? d.key = some d → d.sigWait = false → s.ctl.linksGated = false → (s.ctl.link l).owed = [] →
    ∃ t e, exec (.resend l) s = .next t ∧ t.ctl.desc? d.key = some e ∧ e.restarted = true ∧ e.stage = .peer ∧
      s.ctl.counted t.ctl rRESTARTS 1 ∧
      t.ctl.outbox = s.ctl.outbox ++ ((chunksOf s.ctl.beatWords (shLen d.dShape) d.aliasWords).zipIdx.map
        fun b => .link l 5 (b.2 % 4096) b.1)

/-- Forming a pair (R314, Table 10.5): PAIR_CTL fails once the contract is locked or the instance is joined, and otherwise takes
the fields and sends the own word; the peer's word makes a PAIR with the other role, the same slices and the same contract. -/
def Obligations.PairForming : Prop :=
  (∀ (s : State) (id : Byte) (d : Word), s.reaches (.pairCtlWrite id d) id rPAIR_CTL = true →
    bit (s.ctl.reg rPAIR_STATUS) 31 = false →
    ∃ t, exec (.pairCtlWrite id d) s = .next t ∧ s.ctl.keeps t.ctl [rPAIR_CTL, rPAIR_STATUS] ∧
      (bit (s.ctl.reg rCONTRACT_SEL) 16 = true → s.setsRegs t [rPAIR_STATUS] 0 ∧ bit (t.ctl.reg rPAIR_STATUS) 0 = true ∧
        fld (t.ctl.reg rPAIR_STATUS) 8 3 = 1) ∧
      (bit (s.ctl.reg rCONTRACT_SEL) 16 = false → s.ctl.joined = true → s.setsRegs t [rPAIR_STATUS] 0 ∧
        bit (t.ctl.reg rPAIR_STATUS) 0 = true ∧ fld (t.ctl.reg rPAIR_STATUS) 8 3 = 2) ∧
      (bit (s.ctl.reg rCONTRACT_SEL) 16 = false → s.ctl.joined = false → t.ctl.reg rPAIR_CTL = d &&& 0x333 ∧
        (s.ctl.linksGated = false → (∀ l < 3, (s.ctl.link l).owed = []) → t.ctl.outbox = s.ctl.outbox ++ (if bit d 0 && (fld d 8 2 + 3 - fld d 4 2) % 4 < 3 then
          [.link ((fld d 8 2 + 3 - fld d 4 2) % 4) 2 0
            [word ((bit d 1).toNat + s.ctl.slicesN * 2 ^ 8), word (fld (s.ctl.reg rCONTRACT_SEL) 0 16)]] else [])))) ∧
  ∀ (s : State) (w0 w1 : Word), s.takes (.pairWord s.ctl.pairLink w0 w1) = true → bit (s.ctl.reg rPAIR_CTL) 0 = true →
    bit (s.ctl.reg rPAIR_STATUS) 31 = false → s.ctl.linksGated = false →
    ∃ t, exec (.pairWord s.ctl.pairLink w0 w1) s = .next t ∧ s.ctl.keeps t.ctl [rPAIR_STATUS] ∧
      (bit (t.ctl.reg rPAIR_STATUS) 31 = true ↔ bit w0 0 ≠ bit (s.ctl.reg rPAIR_CTL) 1 ∧ s.ctl.slicesN = 64 ∧
        fld w0 8 7 = 64 ∧ fld w1 0 16 = fld (s.ctl.reg rCONTRACT_SEL) 0 16) ∧
      (bit (t.ctl.reg rPAIR_STATUS) 31 = false → bit (t.ctl.reg rPAIR_STATUS) 0 = true ∧
        fld (t.ctl.reg rPAIR_STATUS) 8 3 ∈ [3, 4, 5])

/-- Running as a pair (R317 to R321): differing signatures halt the pair, equal ones let the commit go on; the peer's outcome of a
descriptor that has none is taken; the peer's HALT and its silence halt this instance too; RETRY and SOLO end the halt. -/
def Obligations.PairRunning : Prop :=
  (∀ (s : State) (w0 w1 w2 w3 w4 : Word) (g : Sig) (a b : BitVec 64),
    s.takes (.signature s.ctl.pairLink w0 w1 w2 w3 w4) = true → s.ctl.paired = true → s.ctl.halted = false →
    g = s.ctl.sigFor (fld w0 0 6) (w1.toNat + 2 ^ 32 * w2.toNat) (if bit w0 31 then some (fld w0 16 10) else none) →
    s.ctl.gone g.ring g.idx = false → g.local_ = some a → b = BitVec.ofNat 64 (w3.toNat + 2 ^ 32 * w4.toNat) →
    ∃ t, exec (.signature s.ctl.pairLink w0 w1 w2 w3 w4) s = .next t ∧
      (a ≠ b → t.ctl.halted = true ∧ bit (t.ctl.reg rINT_EVT) 9 = true) ∧
      (a = b → bit w0 31 = true → s.ctl.rowOwner g.ring g.idx = none → s.ctl.counted t.ctl rPAIR_COMPARED 1) ∧
      (a = b → bit w0 31 = false → ∀ d,
        s.ctl.descs.find? (fun e => e.key.ring = g.ring && e.key.idx = g.idx && e.stage = .peer && e.sigWait) = some d →
        s.ctl.desc? d.key = some d →
        (d.proposed = true → t.ctl.endsWith d.key d.status d.detail) ∧
        (d.proposed = false → d.writes.all (s.ctl.incarnationOk d) = true → t.ctl.endsWith d.key d.goodStatus 0))) ∧
  (∀ (s : State) (w0 w1 w2 w3 : Word) (d : Desc), s.takes (.outcome s.ctl.pairLink w0 w1 w2 w3) = true →
    s.ctl.paired = true →
    s.ctl.desc? { ring := fld w3 0 6, idx := w1.toNat + 2 ^ 32 * w2.toNat, sub := 0 } = some d → d.completed = false →
    reconciled (fld w0 0 8) = true → fld w0 0 8 ≠ 0x20 →
    ∃ t, exec (.outcome s.ctl.pairLink w0 w1 w2 w3) s = .next t ∧ t.ctl.endsWith d.key (fld w0 0 8) (fld w0 8 8)) ∧
  (∀ (s : State) (w0 : Word), s.takes (.halt s.ctl.pairLink w0) = true → s.ctl.paired = true → s.ctl.halted = false →
    ∃ t, exec (.halt s.ctl.pairLink w0) s = .next t ∧ s.setsRegs t [rPAIR_STATUS, rINT_EVT] s.ctl.regRdata ∧
      t.ctl.halted = true ∧ fld (t.ctl.reg rPAIR_STATUS) 16 3 = fld w0 0 3 ∧ bit (t.ctl.reg rINT_EVT) 9 = true) ∧
  (∀ (s : State) (g : Sig), s.takes .peerSilent = true → s.ctl.paired = true → s.ctl.halted = false → s.ctl.pstate ≠ 4 →
    g ∈ s.ctl.sigs → g.peer = none → g.deadline ≤ s.ctl.refTicks → s.ctl.linksGated = false →
    (s.ctl.link s.ctl.pairLink).owed = [] →
    ∃ t, exec .peerSilent s = .next t ∧ t.ctl.halted = true ∧ fld (t.ctl.reg rPAIR_STATUS) 16 3 = 2 ∧
      t.ctl.outbox = s.ctl.outbox ++ [.link s.ctl.pairLink 12 0 [2]]) ∧
  (∀ (s : State) (id : Byte), s.reaches (.pairRetry id) id rPAIR_CMD = true → s.ctl.paired = true → s.ctl.halted = true →
    ∃ t, exec (.pairRetry id) s = .next t ∧ t.ctl.halted = false ∧ t.ctl.paired = true ∧ (∀ g ∈ t.ctl.sigs, g.peer = none) ∧
      s.ctl.counted t.ctl rPAIR_RETRIES 1) ∧
  ∀ (s : State) (id : Byte), s.reaches (.pairSolo id) id rPAIR_CMD = true → s.ctl.paired = true → s.ctl.halted = true →
    ∃ t, exec (.pairSolo id) s = .next t ∧ t.ctl.halted = false ∧ t.ctl.paired = false ∧ t.ctl.sigs = []

/-! ### Power states -/

/-- Evening and Night (R399 to R402, Tables 13.6, 13.9): requests move an ACTIVE block to its entry and are refused while it is
paired or joined; a request for ACTIVE, and a rise of the wake input, wake it; an entry whose work has drained goes on by a
dusk, to EVENING, or to NIGHT with its caches empty; the end of a wake makes it ACTIVE once the regulator has acknowledged. -/
def Obligations.PowerStates : Prop :=
  (∀ (s : State) (id : Byte) (i : Instr) (st : Nat), (i, st) ∈ [(.reqEvening id, 1), (.reqNight id, 3)] →
    s.reaches i id rPSTATE_CTL = true →
    ∃ t, exec i s = .next t ∧ (st = 3 ∨ s.ctl.toNight = false → s.setsRegs t [rPSTATE_CTL, rPSTATE_STATUS] 0) ∧
      (bit (s.ctl.reg rPAIR_STATUS) 31 = false → s.ctl.joined = false → s.ctl.pstate = 0 → t.ctl.pstate = st) ∧
      (bit (s.ctl.reg rPAIR_STATUS) 31 = true ∨ s.ctl.joined = true → t.ctl.pstate = s.ctl.pstate ∧
        bit (t.ctl.reg rPSTATE_STATUS) 17 = true ∧ fld (t.ctl.reg rPSTATE_STATUS) 12 4 = 1)) ∧
  (∀ (s : State) (id : Byte) (i : Instr), (i = .reqActive id ∧ s.reaches i id rPSTATE_CTL = true) ∨
      (i = .wake ∧ s.takes i = true) →
    ∃ t, exec i s = .next t ∧ (s.ctl.pstate ∈ [1, 2, 3, 4] → t.ctl.pstate = 5) ∧
      (s.ctl.pstate ∉ [1, 2, 3, 4] → t.ctl.pstate = s.ctl.pstate ∧ t.ctl.power = s.ctl.power) ∧
      (i = .wake → bit (t.ctl.reg rBND_STATUS) 1 = true)) ∧
  (∀ s : State, s.takes .entryDrained = true → s.ctl.pstate ∈ [1, 3] → s.ctl.drained = true →
    ∃ t, exec .entryDrained s = .next t ∧
      (s.ctl.power.quiet = false → s.ctl.power.stopped = false → 1 < s.ctl.power.gate →
        t.ctl.pstate = s.ctl.pstate ∧ ∃ p, t.ctl.power.ramp = .dusk 1 p) ∧
      (s.ctl.power.quiet = true → s.ctl.pstate = 1 → t.ctl.pstate = 2) ∧
      (s.ctl.power.quiet = true → s.ctl.pstate = 3 → s.ctl.memBusy = false → (∀ k < 64, (s.ctl.ring k).watch = .off) →
        t.ctl.pstate = 4 ∧ t.ctl.mem.shared = [] ∧ t.ctl.mem.micro = [])) ∧
  ∀ (s : State) (es : List RowErr), s.takes (.wakeComplete es) = true → s.ctl.pstate = 5 →
    ∃ t, exec (.wakeComplete es) s = .next t ∧
      (s.ctl.power.fromNight = false ∨ s.ctl.power.vbusy = false → t.ctl.pstate = 0) ∧
      (s.ctl.power.fromNight = true → s.ctl.power.vbusy = true → t = s)

/-! ### Codes and maps -/

/-- The SECDED code (R81, R82, Table 2.10): an intact codeword decodes to its data, one with any single bit wrong is corrected,
and one with any two bits wrong is uncorrectable. -/
def Obligations.SecdedCorrectsOneDetectsTwo : Prop :=
  (∀ d : Word, decodeCw (encodeCw d) = .ok d) ∧
  (∀ (d : Word) (i : Nat), i < 39 → decodeCw (encodeCw d ^^^ 1#39 <<< i) = .corrected d) ∧
  ∀ (d : Word) (i j : Nat), i < j → j < 39 → decodeCw (encodeCw d ^^^ 1#39 <<< i ^^^ 1#39 <<< j) = .uncorrectable

/-- The index maps of a PERMUTE are bijections of a segment (R190, R194, R195): BIT_MAP a permutation of 0 to n − 1, or G odd. -/
def Obligations.IndexMapsAreBijections : Prop :=
  (∀ (d : Desc) (prog : List Word) (u v : Nat), d.routeKind = 0 →
    ((List.range d.log2n).map d.bitMap).Perm (List.range d.log2n) → u < d.segment → v < d.segment →
    (d.mapOf prog u).1 = (d.mapOf prog v).1 → u = v) ∧
  (∀ (d : Desc) (prog : List Word) (u v : Nat), d.routeKind = 1 → bit (d.w 8) 0 = true → u < d.segment → v < d.segment →
    (d.mapOf prog u).1 = (d.mapOf prog v).1 → u = v) ∧
  ∀ (d : Desc) (prog : List Word) (u : Nat), d.routeKind ∈ [0, 1] → (d.mapOf prog u).1 < d.segment
end

