-- ==== Sys2Proof/Laws/State.lean ====
section
/-!
SUPPORT. What each named update of the state leaves and what it changes: one lemma per field and update, so that no proof
unfolds a record update; tables, stored registers and the guards of commands.
-/
namespace Sys2Proof.Machine

/-! ### Tables -/

@[simp] theorem Tab.get_set_self {α : Type} (d : α) (t : Tab α) (k : Nat) (v : α) : Tab.get d (t.set k v) k = v := by
  induction t with
  | nil => simp [Tab.set, Tab.get]
  | cons p t ih =>
    obtain ⟨a, w⟩ := p
    unfold Tab.set
    by_cases h1 : k < a
    · simp [h1, Tab.get]
    · by_cases h2 : k = a
      · simp [h2, Tab.get]
      · simp [h1, h2, Tab.get, Ne.symm h2, ih]

theorem Tab.get_set_ne {α : Type} (d : α) (t : Tab α) {k j : Nat} (v : α) (h : k ≠ j) :
    Tab.get d (t.set k v) j = Tab.get d t j := by
  induction t with
  | nil => simp [Tab.set, Tab.get, h]
  | cons p t ih =>
    obtain ⟨a, w⟩ := p
    unfold Tab.set
    by_cases h1 : k < a
    · simp [h1, Tab.get, h]
    · by_cases h2 : k = a
      · subst h2
        simp [Tab.get, h]
      · simp only [h1, h2, if_false, Tab.get, ih]

theorem Tab.get_set {α : Type} (d : α) (t : Tab α) (k j : Nat) (v : α) :
    Tab.get d (t.set k v) j = if k = j then v else Tab.get d t j := by
  by_cases h : k = j
  · subst h; simp
  · simp [h, Tab.get_set_ne d t v h]

/-! ### Named updates, field by field -/

@[simp] theorem Ctl.setReg_part (c : Ctl) (off : Nat) (v : Word) : (c.setReg off v).part = c.part := rfl
@[simp] theorem Ctl.setReg_refTicks (c : Ctl) (off : Nat) (v : Word) : (c.setReg off v).refTicks = c.refTicks := rfl
@[simp] theorem Ctl.setReg_subTick (c : Ctl) (off : Nat) (v : Word) : (c.setReg off v).subTick = c.subTick := rfl
@[simp] theorem Ctl.setReg_inService (c : Ctl) (off : Nat) (v : Word) : (c.setReg off v).inService = c.inService := rfl
@[simp] theorem Ctl.setReg_filling (c : Ctl) (off : Nat) (v : Word) : (c.setReg off v).filling = c.filling := rfl
@[simp] theorem Ctl.setReg_fillWait (c : Ctl) (off : Nat) (v : Word) : (c.setReg off v).fillWait = c.fillWait := rfl
@[simp] theorem Ctl.setReg_slices (c : Ctl) (off : Nat) (v : Word) : (c.setReg off v).slices = c.slices := rfl
@[simp] theorem Ctl.setReg_classes (c : Ctl) (off : Nat) (v : Word) : (c.setReg off v).classes = c.classes := rfl
@[simp] theorem Ctl.setReg_buckets (c : Ctl) (off : Nat) (v : Word) : (c.setReg off v).buckets = c.buckets := rfl
@[simp] theorem Ctl.setReg_names (c : Ctl) (off : Nat) (v : Word) : (c.setReg off v).names = c.names := rfl
@[simp] theorem Ctl.setReg_slots (c : Ctl) (off : Nat) (v : Word) : (c.setReg off v).slots = c.slots := rfl
@[simp] theorem Ctl.setReg_migs (c : Ctl) (off : Nat) (v : Word) : (c.setReg off v).migs = c.migs := rfl
@[simp] theorem Ctl.setReg_wanted (c : Ctl) (off : Nat) (v : Word) : (c.setReg off v).wanted = c.wanted := rfl
@[simp] theorem Ctl.setReg_outcomes (c : Ctl) (off : Nat) (v : Word) : (c.setReg off v).outcomes = c.outcomes := rfl
@[simp] theorem Ctl.setReg_rings (c : Ctl) (off : Nat) (v : Word) : (c.setReg off v).rings = c.rings := rfl
@[simp] theorem Ctl.setReg_fetchPtr (c : Ctl) (off : Nat) (v : Word) : (c.setReg off v).fetchPtr = c.fetchPtr := rfl
@[simp] theorem Ctl.setReg_descs (c : Ctl) (off : Nat) (v : Word) : (c.setReg off v).descs = c.descs := rfl
@[simp] theorem Ctl.setReg_nextOrder (c : Ctl) (off : Nat) (v : Word) : (c.setReg off v).nextOrder = c.nextOrder := rfl
@[simp] theorem Ctl.setReg_jobs (c : Ctl) (off : Nat) (v : Word) : (c.setReg off v).jobs = c.jobs := rfl
@[simp] theorem Ctl.setReg_arbs (c : Ctl) (off : Nat) (v : Word) : (c.setReg off v).arbs = c.arbs := rfl
@[simp] theorem Ctl.setReg_arbGen (c : Ctl) (off : Nat) (v : Word) : (c.setReg off v).arbGen = c.arbGen := rfl
@[simp] theorem Ctl.setReg_net (c : Ctl) (off : Nat) (v : Word) : (c.setReg off v).net = c.net := rfl
@[simp] theorem Ctl.setReg_mem (c : Ctl) (off : Nat) (v : Word) : (c.setReg off v).mem = c.mem := rfl
@[simp] theorem Ctl.setReg_integ (c : Ctl) (off : Nat) (v : Word) : (c.setReg off v).integ = c.integ := rfl
@[simp] theorem Ctl.setReg_sigs (c : Ctl) (off : Nat) (v : Word) : (c.setReg off v).sigs = c.sigs := rfl
@[simp] theorem Ctl.setReg_power (c : Ctl) (off : Nat) (v : Word) : (c.setReg off v).power = c.power := rfl
@[simp] theorem Ctl.setReg_group (c : Ctl) (off : Nat) (v : Word) : (c.setReg off v).group = c.group := rfl
@[simp] theorem Ctl.setReg_mbDeadline (c : Ctl) (off : Nat) (v : Word) : (c.setReg off v).mbDeadline = c.mbDeadline := rfl
@[simp] theorem Ctl.setReg_msq (c : Ctl) (off : Nat) (v : Word) : (c.setReg off v).msq = c.msq := rfl
@[simp] theorem Ctl.setReg_deferredCommit (c : Ctl) (off : Nat) (v : Word) : (c.setReg off v).deferredCommit = c.deferredCommit := rfl
@[simp] theorem Ctl.setReg_resetWait (c : Ctl) (off : Nat) (v : Word) : (c.setReg off v).resetWait = c.resetWait := rfl
@[simp] theorem Ctl.setReg_func (c : Ctl) (off : Nat) (v : Word) : (c.setReg off v).func = c.func := rfl
@[simp] theorem Ctl.setReg_resumes (c : Ctl) (off : Nat) (v : Word) : (c.setReg off v).resumes = c.resumes := rfl
@[simp] theorem Ctl.setReg_inReset (c : Ctl) (off : Nat) (v : Word) : (c.setReg off v).inReset = c.inReset := rfl
@[simp] theorem Ctl.setReg_off (c : Ctl) (off : Nat) (v : Word) : (c.setReg off v).off = c.off := rfl
@[simp] theorem Ctl.setReg_stepGrants (c : Ctl) (off : Nat) (v : Word) : (c.setReg off v).stepGrants = c.stepGrants := rfl
@[simp] theorem Ctl.setReg_wir (c : Ctl) (off : Nat) (v : Word) : (c.setReg off v).wir = c.wir := rfl
@[simp] theorem Ctl.setReg_boundary (c : Ctl) (off : Nat) (v : Word) : (c.setReg off v).boundary = c.boundary := rfl
@[simp] theorem Ctl.setReg_bypass (c : Ctl) (off : Nat) (v : Word) : (c.setReg off v).bypass = c.bypass := rfl
@[simp] theorem Ctl.setReg_regRdata (c : Ctl) (off : Nat) (v : Word) : (c.setReg off v).regRdata = c.regRdata := rfl
@[simp] theorem Ctl.setReg_outbox (c : Ctl) (off : Nat) (v : Word) : (c.setReg off v).outbox = c.outbox := rfl
@[simp] theorem Ctl.setReg_freeCount (c : Ctl) (off : Nat) (v : Word) : (c.setReg off v).freeCount = c.freeCount := rfl

@[simp] theorem Ctl.emit_part (c : Ctl) (o : Out) : (c.emit o).part = c.part := rfl
@[simp] theorem Ctl.emit_regs (c : Ctl) (o : Out) : (c.emit o).regs = c.regs := rfl
@[simp] theorem Ctl.emit_refTicks (c : Ctl) (o : Out) : (c.emit o).refTicks = c.refTicks := rfl
@[simp] theorem Ctl.emit_subTick (c : Ctl) (o : Out) : (c.emit o).subTick = c.subTick := rfl
@[simp] theorem Ctl.emit_inService (c : Ctl) (o : Out) : (c.emit o).inService = c.inService := rfl
@[simp] theorem Ctl.emit_filling (c : Ctl) (o : Out) : (c.emit o).filling = c.filling := rfl
@[simp] theorem Ctl.emit_fillWait (c : Ctl) (o : Out) : (c.emit o).fillWait = c.fillWait := rfl
@[simp] theorem Ctl.emit_slices (c : Ctl) (o : Out) : (c.emit o).slices = c.slices := rfl
@[simp] theorem Ctl.emit_classes (c : Ctl) (o : Out) : (c.emit o).classes = c.classes := rfl
@[simp] theorem Ctl.emit_buckets (c : Ctl) (o : Out) : (c.emit o).buckets = c.buckets := rfl
@[simp] theorem Ctl.emit_names (c : Ctl) (o : Out) : (c.emit o).names = c.names := rfl
@[simp] theorem Ctl.emit_slots (c : Ctl) (o : Out) : (c.emit o).slots = c.slots := rfl
@[simp] theorem Ctl.emit_migs (c : Ctl) (o : Out) : (c.emit o).migs = c.migs := rfl
@[simp] theorem Ctl.emit_wanted (c : Ctl) (o : Out) : (c.emit o).wanted = c.wanted := rfl
@[simp] theorem Ctl.emit_outcomes (c : Ctl) (o : Out) : (c.emit o).outcomes = c.outcomes := rfl
@[simp] theorem Ctl.emit_rings (c : Ctl) (o : Out) : (c.emit o).rings = c.rings := rfl
@[simp] theorem Ctl.emit_fetchPtr (c : Ctl) (o : Out) : (c.emit o).fetchPtr = c.fetchPtr := rfl
@[simp] theorem Ctl.emit_descs (c : Ctl) (o : Out) : (c.emit o).descs = c.descs := rfl
@[simp] theorem Ctl.emit_nextOrder (c : Ctl) (o : Out) : (c.emit o).nextOrder = c.nextOrder := rfl
@[simp] theorem Ctl.emit_jobs (c : Ctl) (o : Out) : (c.emit o).jobs = c.jobs := rfl
@[simp] theorem Ctl.emit_arbs (c : Ctl) (o : Out) : (c.emit o).arbs = c.arbs := rfl
@[simp] theorem Ctl.emit_arbGen (c : Ctl) (o : Out) : (c.emit o).arbGen = c.arbGen := rfl
@[simp] theorem Ctl.emit_net (c : Ctl) (o : Out) : (c.emit o).net = c.net := rfl
@[simp] theorem Ctl.emit_mem (c : Ctl) (o : Out) : (c.emit o).mem = c.mem := rfl
@[simp] theorem Ctl.emit_integ (c : Ctl) (o : Out) : (c.emit o).integ = c.integ := rfl
@[simp] theorem Ctl.emit_sigs (c : Ctl) (o : Out) : (c.emit o).sigs = c.sigs := rfl
@[simp] theorem Ctl.emit_power (c : Ctl) (o : Out) : (c.emit o).power = c.power := rfl
@[simp] theorem Ctl.emit_group (c : Ctl) (o : Out) : (c.emit o).group = c.group := rfl
@[simp] theorem Ctl.emit_mbDeadline (c : Ctl) (o : Out) : (c.emit o).mbDeadline = c.mbDeadline := rfl
@[simp] theorem Ctl.emit_msq (c : Ctl) (o : Out) : (c.emit o).msq = c.msq := rfl
@[simp] theorem Ctl.emit_deferredCommit (c : Ctl) (o : Out) : (c.emit o).deferredCommit = c.deferredCommit := rfl
@[simp] theorem Ctl.emit_resetWait (c : Ctl) (o : Out) : (c.emit o).resetWait = c.resetWait := rfl
@[simp] theorem Ctl.emit_func (c : Ctl) (o : Out) : (c.emit o).func = c.func := rfl
@[simp] theorem Ctl.emit_resumes (c : Ctl) (o : Out) : (c.emit o).resumes = c.resumes := rfl
@[simp] theorem Ctl.emit_inReset (c : Ctl) (o : Out) : (c.emit o).inReset = c.inReset := rfl
@[simp] theorem Ctl.emit_off (c : Ctl) (o : Out) : (c.emit o).off = c.off := rfl
@[simp] theorem Ctl.emit_stepGrants (c : Ctl) (o : Out) : (c.emit o).stepGrants = c.stepGrants := rfl
@[simp] theorem Ctl.emit_wir (c : Ctl) (o : Out) : (c.emit o).wir = c.wir := rfl
@[simp] theorem Ctl.emit_boundary (c : Ctl) (o : Out) : (c.emit o).boundary = c.boundary := rfl
@[simp] theorem Ctl.emit_bypass (c : Ctl) (o : Out) : (c.emit o).bypass = c.bypass := rfl
@[simp] theorem Ctl.emit_regRdata (c : Ctl) (o : Out) : (c.emit o).regRdata = c.regRdata := rfl
@[simp] theorem Ctl.emit_freeCount (c : Ctl) (o : Out) : (c.emit o).freeCount = c.freeCount := rfl

@[simp] theorem Ctl.modSlice_part (c : Ctl) (n : Nat) (f : Slice → Slice) : (c.modSlice n f).part = c.part := rfl
@[simp] theorem Ctl.modSlice_regs (c : Ctl) (n : Nat) (f : Slice → Slice) : (c.modSlice n f).regs = c.regs := rfl
@[simp] theorem Ctl.modSlice_refTicks (c : Ctl) (n : Nat) (f : Slice → Slice) : (c.modSlice n f).refTicks = c.refTicks := rfl
@[simp] theorem Ctl.modSlice_subTick (c : Ctl) (n : Nat) (f : Slice → Slice) : (c.modSlice n f).subTick = c.subTick := rfl
@[simp] theorem Ctl.modSlice_inService (c : Ctl) (n : Nat) (f : Slice → Slice) : (c.modSlice n f).inService = c.inService := rfl
@[simp] theorem Ctl.modSlice_filling (c : Ctl) (n : Nat) (f : Slice → Slice) : (c.modSlice n f).filling = c.filling := rfl
@[simp] theorem Ctl.modSlice_fillWait (c : Ctl) (n : Nat) (f : Slice → Slice) : (c.modSlice n f).fillWait = c.fillWait := rfl
@[simp] theorem Ctl.modSlice_classes (c : Ctl) (n : Nat) (f : Slice → Slice) : (c.modSlice n f).classes = c.classes := rfl
@[simp] theorem Ctl.modSlice_buckets (c : Ctl) (n : Nat) (f : Slice → Slice) : (c.modSlice n f).buckets = c.buckets := rfl
@[simp] theorem Ctl.modSlice_names (c : Ctl) (n : Nat) (f : Slice → Slice) : (c.modSlice n f).names = c.names := rfl
@[simp] theorem Ctl.modSlice_slots (c : Ctl) (n : Nat) (f : Slice → Slice) : (c.modSlice n f).slots = c.slots := rfl
@[simp] theorem Ctl.modSlice_migs (c : Ctl) (n : Nat) (f : Slice → Slice) : (c.modSlice n f).migs = c.migs := rfl
@[simp] theorem Ctl.modSlice_wanted (c : Ctl) (n : Nat) (f : Slice → Slice) : (c.modSlice n f).wanted = c.wanted := rfl
@[simp] theorem Ctl.modSlice_outcomes (c : Ctl) (n : Nat) (f : Slice → Slice) : (c.modSlice n f).outcomes = c.outcomes := rfl
@[simp] theorem Ctl.modSlice_rings (c : Ctl) (n : Nat) (f : Slice → Slice) : (c.modSlice n f).rings = c.rings := rfl
@[simp] theorem Ctl.modSlice_fetchPtr (c : Ctl) (n : Nat) (f : Slice → Slice) : (c.modSlice n f).fetchPtr = c.fetchPtr := rfl
@[simp] theorem Ctl.modSlice_descs (c : Ctl) (n : Nat) (f : Slice → Slice) : (c.modSlice n f).descs = c.descs := rfl
@[simp] theorem Ctl.modSlice_nextOrder (c : Ctl) (n : Nat) (f : Slice → Slice) : (c.modSlice n f).nextOrder = c.nextOrder := rfl
@[simp] theorem Ctl.modSlice_jobs (c : Ctl) (n : Nat) (f : Slice → Slice) : (c.modSlice n f).jobs = c.jobs := rfl
@[simp] theorem Ctl.modSlice_arbs (c : Ctl) (n : Nat) (f : Slice → Slice) : (c.modSlice n f).arbs = c.arbs := rfl
@[simp] theorem Ctl.modSlice_arbGen (c : Ctl) (n : Nat) (f : Slice → Slice) : (c.modSlice n f).arbGen = c.arbGen := rfl
@[simp] theorem Ctl.modSlice_net (c : Ctl) (n : Nat) (f : Slice → Slice) : (c.modSlice n f).net = c.net := rfl
@[simp] theorem Ctl.modSlice_mem (c : Ctl) (n : Nat) (f : Slice → Slice) : (c.modSlice n f).mem = c.mem := rfl
@[simp] theorem Ctl.modSlice_integ (c : Ctl) (n : Nat) (f : Slice → Slice) : (c.modSlice n f).integ = c.integ := rfl
@[simp] theorem Ctl.modSlice_sigs (c : Ctl) (n : Nat) (f : Slice → Slice) : (c.modSlice n f).sigs = c.sigs := rfl
@[simp] theorem Ctl.modSlice_power (c : Ctl) (n : Nat) (f : Slice → Slice) : (c.modSlice n f).power = c.power := rfl
@[simp] theorem Ctl.modSlice_group (c : Ctl) (n : Nat) (f : Slice → Slice) : (c.modSlice n f).group = c.group := rfl
@[simp] theorem Ctl.modSlice_mbDeadline (c : Ctl) (n : Nat) (f : Slice → Slice) : (c.modSlice n f).mbDeadline = c.mbDeadline := rfl
@[simp] theorem Ctl.modSlice_msq (c : Ctl) (n : Nat) (f : Slice → Slice) : (c.modSlice n f).msq = c.msq := rfl
@[simp] theorem Ctl.modSlice_deferredCommit (c : Ctl) (n : Nat) (f : Slice → Slice) : (c.modSlice n f).deferredCommit = c.deferredCommit := rfl
@[simp] theorem Ctl.modSlice_resetWait (c : Ctl) (n : Nat) (f : Slice → Slice) : (c.modSlice n f).resetWait = c.resetWait := rfl
@[simp] theorem Ctl.modSlice_func (c : Ctl) (n : Nat) (f : Slice → Slice) : (c.modSlice n f).func = c.func := rfl
@[simp] theorem Ctl.modSlice_resumes (c : Ctl) (n : Nat) (f : Slice → Slice) : (c.modSlice n f).resumes = c.resumes := rfl
@[simp] theorem Ctl.modSlice_inReset (c : Ctl) (n : Nat) (f : Slice → Slice) : (c.modSlice n f).inReset = c.inReset := rfl
@[simp] theorem Ctl.modSlice_off (c : Ctl) (n : Nat) (f : Slice → Slice) : (c.modSlice n f).off = c.off := rfl
@[simp] theorem Ctl.modSlice_stepGrants (c : Ctl) (n : Nat) (f : Slice → Slice) : (c.modSlice n f).stepGrants = c.stepGrants := rfl
@[simp] theorem Ctl.modSlice_wir (c : Ctl) (n : Nat) (f : Slice → Slice) : (c.modSlice n f).wir = c.wir := rfl
@[simp] theorem Ctl.modSlice_boundary (c : Ctl) (n : Nat) (f : Slice → Slice) : (c.modSlice n f).boundary = c.boundary := rfl
@[simp] theorem Ctl.modSlice_bypass (c : Ctl) (n : Nat) (f : Slice → Slice) : (c.modSlice n f).bypass = c.bypass := rfl
@[simp] theorem Ctl.modSlice_regRdata (c : Ctl) (n : Nat) (f : Slice → Slice) : (c.modSlice n f).regRdata = c.regRdata := rfl
@[simp] theorem Ctl.modSlice_outbox (c : Ctl) (n : Nat) (f : Slice → Slice) : (c.modSlice n f).outbox = c.outbox := rfl
@[simp] theorem Ctl.modSlice_freeCount (c : Ctl) (n : Nat) (f : Slice → Slice) : (c.modSlice n f).freeCount = c.freeCount := rfl

@[simp] theorem Ctl.modPort_part (c : Ctl) (n : Nat) (f : Port → Port) : (c.modPort n f).part = c.part := rfl
@[simp] theorem Ctl.modPort_regs (c : Ctl) (n : Nat) (f : Port → Port) : (c.modPort n f).regs = c.regs := rfl
@[simp] theorem Ctl.modPort_refTicks (c : Ctl) (n : Nat) (f : Port → Port) : (c.modPort n f).refTicks = c.refTicks := rfl
@[simp] theorem Ctl.modPort_subTick (c : Ctl) (n : Nat) (f : Port → Port) : (c.modPort n f).subTick = c.subTick := rfl
@[simp] theorem Ctl.modPort_inService (c : Ctl) (n : Nat) (f : Port → Port) : (c.modPort n f).inService = c.inService := rfl
@[simp] theorem Ctl.modPort_filling (c : Ctl) (n : Nat) (f : Port → Port) : (c.modPort n f).filling = c.filling := rfl
@[simp] theorem Ctl.modPort_fillWait (c : Ctl) (n : Nat) (f : Port → Port) : (c.modPort n f).fillWait = c.fillWait := rfl
@[simp] theorem Ctl.modPort_classes (c : Ctl) (n : Nat) (f : Port → Port) : (c.modPort n f).classes = c.classes := rfl
@[simp] theorem Ctl.modPort_buckets (c : Ctl) (n : Nat) (f : Port → Port) : (c.modPort n f).buckets = c.buckets := rfl
@[simp] theorem Ctl.modPort_names (c : Ctl) (n : Nat) (f : Port → Port) : (c.modPort n f).names = c.names := rfl
@[simp] theorem Ctl.modPort_slots (c : Ctl) (n : Nat) (f : Port → Port) : (c.modPort n f).slots = c.slots := rfl
@[simp] theorem Ctl.modPort_migs (c : Ctl) (n : Nat) (f : Port → Port) : (c.modPort n f).migs = c.migs := rfl
@[simp] theorem Ctl.modPort_wanted (c : Ctl) (n : Nat) (f : Port → Port) : (c.modPort n f).wanted = c.wanted := rfl
@[simp] theorem Ctl.modPort_outcomes (c : Ctl) (n : Nat) (f : Port → Port) : (c.modPort n f).outcomes = c.outcomes := rfl
@[simp] theorem Ctl.modPort_rings (c : Ctl) (n : Nat) (f : Port → Port) : (c.modPort n f).rings = c.rings := rfl
@[simp] theorem Ctl.modPort_fetchPtr (c : Ctl) (n : Nat) (f : Port → Port) : (c.modPort n f).fetchPtr = c.fetchPtr := rfl
@[simp] theorem Ctl.modPort_descs (c : Ctl) (n : Nat) (f : Port → Port) : (c.modPort n f).descs = c.descs := rfl
@[simp] theorem Ctl.modPort_nextOrder (c : Ctl) (n : Nat) (f : Port → Port) : (c.modPort n f).nextOrder = c.nextOrder := rfl
@[simp] theorem Ctl.modPort_jobs (c : Ctl) (n : Nat) (f : Port → Port) : (c.modPort n f).jobs = c.jobs := rfl
@[simp] theorem Ctl.modPort_arbs (c : Ctl) (n : Nat) (f : Port → Port) : (c.modPort n f).arbs = c.arbs := rfl
@[simp] theorem Ctl.modPort_arbGen (c : Ctl) (n : Nat) (f : Port → Port) : (c.modPort n f).arbGen = c.arbGen := rfl
@[simp] theorem Ctl.modPort_net (c : Ctl) (n : Nat) (f : Port → Port) : (c.modPort n f).net = c.net := rfl
@[simp] theorem Ctl.modPort_mem (c : Ctl) (n : Nat) (f : Port → Port) : (c.modPort n f).mem = c.mem := rfl
@[simp] theorem Ctl.modPort_integ (c : Ctl) (n : Nat) (f : Port → Port) : (c.modPort n f).integ = c.integ := rfl
@[simp] theorem Ctl.modPort_sigs (c : Ctl) (n : Nat) (f : Port → Port) : (c.modPort n f).sigs = c.sigs := rfl
@[simp] theorem Ctl.modPort_power (c : Ctl) (n : Nat) (f : Port → Port) : (c.modPort n f).power = c.power := rfl
@[simp] theorem Ctl.modPort_group (c : Ctl) (n : Nat) (f : Port → Port) : (c.modPort n f).group = c.group := rfl
@[simp] theorem Ctl.modPort_mbDeadline (c : Ctl) (n : Nat) (f : Port → Port) : (c.modPort n f).mbDeadline = c.mbDeadline := rfl
@[simp] theorem Ctl.modPort_msq (c : Ctl) (n : Nat) (f : Port → Port) : (c.modPort n f).msq = c.msq := rfl
@[simp] theorem Ctl.modPort_deferredCommit (c : Ctl) (n : Nat) (f : Port → Port) : (c.modPort n f).deferredCommit = c.deferredCommit := rfl
@[simp] theorem Ctl.modPort_resetWait (c : Ctl) (n : Nat) (f : Port → Port) : (c.modPort n f).resetWait = c.resetWait := rfl
@[simp] theorem Ctl.modPort_func (c : Ctl) (n : Nat) (f : Port → Port) : (c.modPort n f).func = c.func := rfl
@[simp] theorem Ctl.modPort_resumes (c : Ctl) (n : Nat) (f : Port → Port) : (c.modPort n f).resumes = c.resumes := rfl
@[simp] theorem Ctl.modPort_inReset (c : Ctl) (n : Nat) (f : Port → Port) : (c.modPort n f).inReset = c.inReset := rfl
@[simp] theorem Ctl.modPort_off (c : Ctl) (n : Nat) (f : Port → Port) : (c.modPort n f).off = c.off := rfl
@[simp] theorem Ctl.modPort_stepGrants (c : Ctl) (n : Nat) (f : Port → Port) : (c.modPort n f).stepGrants = c.stepGrants := rfl
@[simp] theorem Ctl.modPort_wir (c : Ctl) (n : Nat) (f : Port → Port) : (c.modPort n f).wir = c.wir := rfl
@[simp] theorem Ctl.modPort_boundary (c : Ctl) (n : Nat) (f : Port → Port) : (c.modPort n f).boundary = c.boundary := rfl
@[simp] theorem Ctl.modPort_bypass (c : Ctl) (n : Nat) (f : Port → Port) : (c.modPort n f).bypass = c.bypass := rfl
@[simp] theorem Ctl.modPort_regRdata (c : Ctl) (n : Nat) (f : Port → Port) : (c.modPort n f).regRdata = c.regRdata := rfl
@[simp] theorem Ctl.modPort_outbox (c : Ctl) (n : Nat) (f : Port → Port) : (c.modPort n f).outbox = c.outbox := rfl
@[simp] theorem Ctl.modPort_freeCount (c : Ctl) (n : Nat) (f : Port → Port) : (c.modPort n f).freeCount = c.freeCount := rfl

@[simp] theorem Ctl.modRing_part (c : Ctl) (k : Nat) (f : Ring → Ring) : (c.modRing k f).part = c.part := rfl
@[simp] theorem Ctl.modRing_regs (c : Ctl) (k : Nat) (f : Ring → Ring) : (c.modRing k f).regs = c.regs := rfl
@[simp] theorem Ctl.modRing_refTicks (c : Ctl) (k : Nat) (f : Ring → Ring) : (c.modRing k f).refTicks = c.refTicks := rfl
@[simp] theorem Ctl.modRing_subTick (c : Ctl) (k : Nat) (f : Ring → Ring) : (c.modRing k f).subTick = c.subTick := rfl
@[simp] theorem Ctl.modRing_inService (c : Ctl) (k : Nat) (f : Ring → Ring) : (c.modRing k f).inService = c.inService := rfl
@[simp] theorem Ctl.modRing_filling (c : Ctl) (k : Nat) (f : Ring → Ring) : (c.modRing k f).filling = c.filling := rfl
@[simp] theorem Ctl.modRing_fillWait (c : Ctl) (k : Nat) (f : Ring → Ring) : (c.modRing k f).fillWait = c.fillWait := rfl
@[simp] theorem Ctl.modRing_slices (c : Ctl) (k : Nat) (f : Ring → Ring) : (c.modRing k f).slices = c.slices := rfl
@[simp] theorem Ctl.modRing_classes (c : Ctl) (k : Nat) (f : Ring → Ring) : (c.modRing k f).classes = c.classes := rfl
@[simp] theorem Ctl.modRing_buckets (c : Ctl) (k : Nat) (f : Ring → Ring) : (c.modRing k f).buckets = c.buckets := rfl
@[simp] theorem Ctl.modRing_names (c : Ctl) (k : Nat) (f : Ring → Ring) : (c.modRing k f).names = c.names := rfl
@[simp] theorem Ctl.modRing_slots (c : Ctl) (k : Nat) (f : Ring → Ring) : (c.modRing k f).slots = c.slots := rfl
@[simp] theorem Ctl.modRing_migs (c : Ctl) (k : Nat) (f : Ring → Ring) : (c.modRing k f).migs = c.migs := rfl
@[simp] theorem Ctl.modRing_wanted (c : Ctl) (k : Nat) (f : Ring → Ring) : (c.modRing k f).wanted = c.wanted := rfl
@[simp] theorem Ctl.modRing_outcomes (c : Ctl) (k : Nat) (f : Ring → Ring) : (c.modRing k f).outcomes = c.outcomes := rfl
@[simp] theorem Ctl.modRing_fetchPtr (c : Ctl) (k : Nat) (f : Ring → Ring) : (c.modRing k f).fetchPtr = c.fetchPtr := rfl
@[simp] theorem Ctl.modRing_descs (c : Ctl) (k : Nat) (f : Ring → Ring) : (c.modRing k f).descs = c.descs := rfl
@[simp] theorem Ctl.modRing_nextOrder (c : Ctl) (k : Nat) (f : Ring → Ring) : (c.modRing k f).nextOrder = c.nextOrder := rfl
@[simp] theorem Ctl.modRing_jobs (c : Ctl) (k : Nat) (f : Ring → Ring) : (c.modRing k f).jobs = c.jobs := rfl
@[simp] theorem Ctl.modRing_arbs (c : Ctl) (k : Nat) (f : Ring → Ring) : (c.modRing k f).arbs = c.arbs := rfl
@[simp] theorem Ctl.modRing_arbGen (c : Ctl) (k : Nat) (f : Ring → Ring) : (c.modRing k f).arbGen = c.arbGen := rfl
@[simp] theorem Ctl.modRing_net (c : Ctl) (k : Nat) (f : Ring → Ring) : (c.modRing k f).net = c.net := rfl
@[simp] theorem Ctl.modRing_mem (c : Ctl) (k : Nat) (f : Ring → Ring) : (c.modRing k f).mem = c.mem := rfl
@[simp] theorem Ctl.modRing_integ (c : Ctl) (k : Nat) (f : Ring → Ring) : (c.modRing k f).integ = c.integ := rfl
@[simp] theorem Ctl.modRing_sigs (c : Ctl) (k : Nat) (f : Ring → Ring) : (c.modRing k f).sigs = c.sigs := rfl
@[simp] theorem Ctl.modRing_power (c : Ctl) (k : Nat) (f : Ring → Ring) : (c.modRing k f).power = c.power := rfl
@[simp] theorem Ctl.modRing_group (c : Ctl) (k : Nat) (f : Ring → Ring) : (c.modRing k f).group = c.group := rfl
@[simp] theorem Ctl.modRing_mbDeadline (c : Ctl) (k : Nat) (f : Ring → Ring) : (c.modRing k f).mbDeadline = c.mbDeadline := rfl
@[simp] theorem Ctl.modRing_msq (c : Ctl) (k : Nat) (f : Ring → Ring) : (c.modRing k f).msq = c.msq := rfl
@[simp] theorem Ctl.modRing_deferredCommit (c : Ctl) (k : Nat) (f : Ring → Ring) : (c.modRing k f).deferredCommit = c.deferredCommit := rfl
@[simp] theorem Ctl.modRing_resetWait (c : Ctl) (k : Nat) (f : Ring → Ring) : (c.modRing k f).resetWait = c.resetWait := rfl
@[simp] theorem Ctl.modRing_func (c : Ctl) (k : Nat) (f : Ring → Ring) : (c.modRing k f).func = c.func := rfl
@[simp] theorem Ctl.modRing_resumes (c : Ctl) (k : Nat) (f : Ring → Ring) : (c.modRing k f).resumes = c.resumes := rfl
@[simp] theorem Ctl.modRing_inReset (c : Ctl) (k : Nat) (f : Ring → Ring) : (c.modRing k f).inReset = c.inReset := rfl
@[simp] theorem Ctl.modRing_off (c : Ctl) (k : Nat) (f : Ring → Ring) : (c.modRing k f).off = c.off := rfl
@[simp] theorem Ctl.modRing_stepGrants (c : Ctl) (k : Nat) (f : Ring → Ring) : (c.modRing k f).stepGrants = c.stepGrants := rfl
@[simp] theorem Ctl.modRing_wir (c : Ctl) (k : Nat) (f : Ring → Ring) : (c.modRing k f).wir = c.wir := rfl
@[simp] theorem Ctl.modRing_boundary (c : Ctl) (k : Nat) (f : Ring → Ring) : (c.modRing k f).boundary = c.boundary := rfl
@[simp] theorem Ctl.modRing_bypass (c : Ctl) (k : Nat) (f : Ring → Ring) : (c.modRing k f).bypass = c.bypass := rfl
@[simp] theorem Ctl.modRing_regRdata (c : Ctl) (k : Nat) (f : Ring → Ring) : (c.modRing k f).regRdata = c.regRdata := rfl
@[simp] theorem Ctl.modRing_outbox (c : Ctl) (k : Nat) (f : Ring → Ring) : (c.modRing k f).outbox = c.outbox := rfl
@[simp] theorem Ctl.modRing_freeCount (c : Ctl) (k : Nat) (f : Ring → Ring) : (c.modRing k f).freeCount = c.freeCount := rfl

@[simp] theorem Ctl.modName_part (c : Ctl) (n : Nat) (f : NameRec → NameRec) : (c.modName n f).part = c.part := rfl
@[simp] theorem Ctl.modName_regs (c : Ctl) (n : Nat) (f : NameRec → NameRec) : (c.modName n f).regs = c.regs := rfl
@[simp] theorem Ctl.modName_refTicks (c : Ctl) (n : Nat) (f : NameRec → NameRec) : (c.modName n f).refTicks = c.refTicks := rfl
@[simp] theorem Ctl.modName_subTick (c : Ctl) (n : Nat) (f : NameRec → NameRec) : (c.modName n f).subTick = c.subTick := rfl
@[simp] theorem Ctl.modName_inService (c : Ctl) (n : Nat) (f : NameRec → NameRec) : (c.modName n f).inService = c.inService := rfl
@[simp] theorem Ctl.modName_filling (c : Ctl) (n : Nat) (f : NameRec → NameRec) : (c.modName n f).filling = c.filling := rfl
@[simp] theorem Ctl.modName_fillWait (c : Ctl) (n : Nat) (f : NameRec → NameRec) : (c.modName n f).fillWait = c.fillWait := rfl
@[simp] theorem Ctl.modName_slices (c : Ctl) (n : Nat) (f : NameRec → NameRec) : (c.modName n f).slices = c.slices := rfl
@[simp] theorem Ctl.modName_classes (c : Ctl) (n : Nat) (f : NameRec → NameRec) : (c.modName n f).classes = c.classes := rfl
@[simp] theorem Ctl.modName_buckets (c : Ctl) (n : Nat) (f : NameRec → NameRec) : (c.modName n f).buckets = c.buckets := rfl
@[simp] theorem Ctl.modName_slots (c : Ctl) (n : Nat) (f : NameRec → NameRec) : (c.modName n f).slots = c.slots := rfl
@[simp] theorem Ctl.modName_migs (c : Ctl) (n : Nat) (f : NameRec → NameRec) : (c.modName n f).migs = c.migs := rfl
@[simp] theorem Ctl.modName_wanted (c : Ctl) (n : Nat) (f : NameRec → NameRec) : (c.modName n f).wanted = c.wanted := rfl
@[simp] theorem Ctl.modName_outcomes (c : Ctl) (n : Nat) (f : NameRec → NameRec) : (c.modName n f).outcomes = c.outcomes := rfl
@[simp] theorem Ctl.modName_rings (c : Ctl) (n : Nat) (f : NameRec → NameRec) : (c.modName n f).rings = c.rings := rfl
@[simp] theorem Ctl.modName_fetchPtr (c : Ctl) (n : Nat) (f : NameRec → NameRec) : (c.modName n f).fetchPtr = c.fetchPtr := rfl
@[simp] theorem Ctl.modName_descs (c : Ctl) (n : Nat) (f : NameRec → NameRec) : (c.modName n f).descs = c.descs := rfl
@[simp] theorem Ctl.modName_nextOrder (c : Ctl) (n : Nat) (f : NameRec → NameRec) : (c.modName n f).nextOrder = c.nextOrder := rfl
@[simp] theorem Ctl.modName_jobs (c : Ctl) (n : Nat) (f : NameRec → NameRec) : (c.modName n f).jobs = c.jobs := rfl
@[simp] theorem Ctl.modName_arbs (c : Ctl) (n : Nat) (f : NameRec → NameRec) : (c.modName n f).arbs = c.arbs := rfl
@[simp] theorem Ctl.modName_arbGen (c : Ctl) (n : Nat) (f : NameRec → NameRec) : (c.modName n f).arbGen = c.arbGen := rfl
@[simp] theorem Ctl.modName_net (c : Ctl) (n : Nat) (f : NameRec → NameRec) : (c.modName n f).net = c.net := rfl
@[simp] theorem Ctl.modName_mem (c : Ctl) (n : Nat) (f : NameRec → NameRec) : (c.modName n f).mem = c.mem := rfl
@[simp] theorem Ctl.modName_integ (c : Ctl) (n : Nat) (f : NameRec → NameRec) : (c.modName n f).integ = c.integ := rfl
@[simp] theorem Ctl.modName_sigs (c : Ctl) (n : Nat) (f : NameRec → NameRec) : (c.modName n f).sigs = c.sigs := rfl
@[simp] theorem Ctl.modName_power (c : Ctl) (n : Nat) (f : NameRec → NameRec) : (c.modName n f).power = c.power := rfl
@[simp] theorem Ctl.modName_group (c : Ctl) (n : Nat) (f : NameRec → NameRec) : (c.modName n f).group = c.group := rfl
@[simp] theorem Ctl.modName_mbDeadline (c : Ctl) (n : Nat) (f : NameRec → NameRec) : (c.modName n f).mbDeadline = c.mbDeadline := rfl
@[simp] theorem Ctl.modName_msq (c : Ctl) (n : Nat) (f : NameRec → NameRec) : (c.modName n f).msq = c.msq := rfl
@[simp] theorem Ctl.modName_deferredCommit (c : Ctl) (n : Nat) (f : NameRec → NameRec) : (c.modName n f).deferredCommit = c.deferredCommit := rfl
@[simp] theorem Ctl.modName_resetWait (c : Ctl) (n : Nat) (f : NameRec → NameRec) : (c.modName n f).resetWait = c.resetWait := rfl
@[simp] theorem Ctl.modName_func (c : Ctl) (n : Nat) (f : NameRec → NameRec) : (c.modName n f).func = c.func := rfl
@[simp] theorem Ctl.modName_resumes (c : Ctl) (n : Nat) (f : NameRec → NameRec) : (c.modName n f).resumes = c.resumes := rfl
@[simp] theorem Ctl.modName_inReset (c : Ctl) (n : Nat) (f : NameRec → NameRec) : (c.modName n f).inReset = c.inReset := rfl
@[simp] theorem Ctl.modName_off (c : Ctl) (n : Nat) (f : NameRec → NameRec) : (c.modName n f).off = c.off := rfl
@[simp] theorem Ctl.modName_stepGrants (c : Ctl) (n : Nat) (f : NameRec → NameRec) : (c.modName n f).stepGrants = c.stepGrants := rfl
@[simp] theorem Ctl.modName_wir (c : Ctl) (n : Nat) (f : NameRec → NameRec) : (c.modName n f).wir = c.wir := rfl
@[simp] theorem Ctl.modName_boundary (c : Ctl) (n : Nat) (f : NameRec → NameRec) : (c.modName n f).boundary = c.boundary := rfl
@[simp] theorem Ctl.modName_bypass (c : Ctl) (n : Nat) (f : NameRec → NameRec) : (c.modName n f).bypass = c.bypass := rfl
@[simp] theorem Ctl.modName_regRdata (c : Ctl) (n : Nat) (f : NameRec → NameRec) : (c.modName n f).regRdata = c.regRdata := rfl
@[simp] theorem Ctl.modName_outbox (c : Ctl) (n : Nat) (f : NameRec → NameRec) : (c.modName n f).outbox = c.outbox := rfl
@[simp] theorem Ctl.modName_freeCount (c : Ctl) (n : Nat) (f : NameRec → NameRec) : (c.modName n f).freeCount = c.freeCount := rfl

@[simp] theorem Ctl.modSlot_part (c : Ctl) (k : Nat) (f : Slot → Slot) : (c.modSlot k f).part = c.part := rfl
@[simp] theorem Ctl.modSlot_regs (c : Ctl) (k : Nat) (f : Slot → Slot) : (c.modSlot k f).regs = c.regs := rfl
@[simp] theorem Ctl.modSlot_refTicks (c : Ctl) (k : Nat) (f : Slot → Slot) : (c.modSlot k f).refTicks = c.refTicks := rfl
@[simp] theorem Ctl.modSlot_subTick (c : Ctl) (k : Nat) (f : Slot → Slot) : (c.modSlot k f).subTick = c.subTick := rfl
@[simp] theorem Ctl.modSlot_inService (c : Ctl) (k : Nat) (f : Slot → Slot) : (c.modSlot k f).inService = c.inService := rfl
@[simp] theorem Ctl.modSlot_filling (c : Ctl) (k : Nat) (f : Slot → Slot) : (c.modSlot k f).filling = c.filling := rfl
@[simp] theorem Ctl.modSlot_fillWait (c : Ctl) (k : Nat) (f : Slot → Slot) : (c.modSlot k f).fillWait = c.fillWait := rfl
@[simp] theorem Ctl.modSlot_slices (c : Ctl) (k : Nat) (f : Slot → Slot) : (c.modSlot k f).slices = c.slices := rfl
@[simp] theorem Ctl.modSlot_classes (c : Ctl) (k : Nat) (f : Slot → Slot) : (c.modSlot k f).classes = c.classes := rfl
@[simp] theorem Ctl.modSlot_buckets (c : Ctl) (k : Nat) (f : Slot → Slot) : (c.modSlot k f).buckets = c.buckets := rfl
@[simp] theorem Ctl.modSlot_names (c : Ctl) (k : Nat) (f : Slot → Slot) : (c.modSlot k f).names = c.names := rfl
@[simp] theorem Ctl.modSlot_migs (c : Ctl) (k : Nat) (f : Slot → Slot) : (c.modSlot k f).migs = c.migs := rfl
@[simp] theorem Ctl.modSlot_wanted (c : Ctl) (k : Nat) (f : Slot → Slot) : (c.modSlot k f).wanted = c.wanted := rfl
@[simp] theorem Ctl.modSlot_outcomes (c : Ctl) (k : Nat) (f : Slot → Slot) : (c.modSlot k f).outcomes = c.outcomes := rfl
@[simp] theorem Ctl.modSlot_rings (c : Ctl) (k : Nat) (f : Slot → Slot) : (c.modSlot k f).rings = c.rings := rfl
@[simp] theorem Ctl.modSlot_fetchPtr (c : Ctl) (k : Nat) (f : Slot → Slot) : (c.modSlot k f).fetchPtr = c.fetchPtr := rfl
@[simp] theorem Ctl.modSlot_descs (c : Ctl) (k : Nat) (f : Slot → Slot) : (c.modSlot k f).descs = c.descs := rfl
@[simp] theorem Ctl.modSlot_nextOrder (c : Ctl) (k : Nat) (f : Slot → Slot) : (c.modSlot k f).nextOrder = c.nextOrder := rfl
@[simp] theorem Ctl.modSlot_jobs (c : Ctl) (k : Nat) (f : Slot → Slot) : (c.modSlot k f).jobs = c.jobs := rfl
@[simp] theorem Ctl.modSlot_arbs (c : Ctl) (k : Nat) (f : Slot → Slot) : (c.modSlot k f).arbs = c.arbs := rfl
@[simp] theorem Ctl.modSlot_arbGen (c : Ctl) (k : Nat) (f : Slot → Slot) : (c.modSlot k f).arbGen = c.arbGen := rfl
@[simp] theorem Ctl.modSlot_net (c : Ctl) (k : Nat) (f : Slot → Slot) : (c.modSlot k f).net = c.net := rfl
@[simp] theorem Ctl.modSlot_mem (c : Ctl) (k : Nat) (f : Slot → Slot) : (c.modSlot k f).mem = c.mem := rfl
@[simp] theorem Ctl.modSlot_integ (c : Ctl) (k : Nat) (f : Slot → Slot) : (c.modSlot k f).integ = c.integ := rfl
@[simp] theorem Ctl.modSlot_sigs (c : Ctl) (k : Nat) (f : Slot → Slot) : (c.modSlot k f).sigs = c.sigs := rfl
@[simp] theorem Ctl.modSlot_power (c : Ctl) (k : Nat) (f : Slot → Slot) : (c.modSlot k f).power = c.power := rfl
@[simp] theorem Ctl.modSlot_group (c : Ctl) (k : Nat) (f : Slot → Slot) : (c.modSlot k f).group = c.group := rfl
@[simp] theorem Ctl.modSlot_mbDeadline (c : Ctl) (k : Nat) (f : Slot → Slot) : (c.modSlot k f).mbDeadline = c.mbDeadline := rfl
@[simp] theorem Ctl.modSlot_msq (c : Ctl) (k : Nat) (f : Slot → Slot) : (c.modSlot k f).msq = c.msq := rfl
@[simp] theorem Ctl.modSlot_deferredCommit (c : Ctl) (k : Nat) (f : Slot → Slot) : (c.modSlot k f).deferredCommit = c.deferredCommit := rfl
@[simp] theorem Ctl.modSlot_resetWait (c : Ctl) (k : Nat) (f : Slot → Slot) : (c.modSlot k f).resetWait = c.resetWait := rfl
@[simp] theorem Ctl.modSlot_func (c : Ctl) (k : Nat) (f : Slot → Slot) : (c.modSlot k f).func = c.func := rfl
@[simp] theorem Ctl.modSlot_resumes (c : Ctl) (k : Nat) (f : Slot → Slot) : (c.modSlot k f).resumes = c.resumes := rfl
@[simp] theorem Ctl.modSlot_inReset (c : Ctl) (k : Nat) (f : Slot → Slot) : (c.modSlot k f).inReset = c.inReset := rfl
@[simp] theorem Ctl.modSlot_off (c : Ctl) (k : Nat) (f : Slot → Slot) : (c.modSlot k f).off = c.off := rfl
@[simp] theorem Ctl.modSlot_stepGrants (c : Ctl) (k : Nat) (f : Slot → Slot) : (c.modSlot k f).stepGrants = c.stepGrants := rfl
@[simp] theorem Ctl.modSlot_wir (c : Ctl) (k : Nat) (f : Slot → Slot) : (c.modSlot k f).wir = c.wir := rfl
@[simp] theorem Ctl.modSlot_boundary (c : Ctl) (k : Nat) (f : Slot → Slot) : (c.modSlot k f).boundary = c.boundary := rfl
@[simp] theorem Ctl.modSlot_bypass (c : Ctl) (k : Nat) (f : Slot → Slot) : (c.modSlot k f).bypass = c.bypass := rfl
@[simp] theorem Ctl.modSlot_regRdata (c : Ctl) (k : Nat) (f : Slot → Slot) : (c.modSlot k f).regRdata = c.regRdata := rfl
@[simp] theorem Ctl.modSlot_outbox (c : Ctl) (k : Nat) (f : Slot → Slot) : (c.modSlot k f).outbox = c.outbox := rfl
@[simp] theorem Ctl.modSlot_freeCount (c : Ctl) (k : Nat) (f : Slot → Slot) : (c.modSlot k f).freeCount = c.freeCount := rfl

@[simp] theorem Ctl.modLink_part (c : Ctl) (l : Nat) (f : Link → Link) : (c.modLink l f).part = c.part := rfl
@[simp] theorem Ctl.modLink_regs (c : Ctl) (l : Nat) (f : Link → Link) : (c.modLink l f).regs = c.regs := rfl
@[simp] theorem Ctl.modLink_refTicks (c : Ctl) (l : Nat) (f : Link → Link) : (c.modLink l f).refTicks = c.refTicks := rfl
@[simp] theorem Ctl.modLink_subTick (c : Ctl) (l : Nat) (f : Link → Link) : (c.modLink l f).subTick = c.subTick := rfl
@[simp] theorem Ctl.modLink_inService (c : Ctl) (l : Nat) (f : Link → Link) : (c.modLink l f).inService = c.inService := rfl
@[simp] theorem Ctl.modLink_filling (c : Ctl) (l : Nat) (f : Link → Link) : (c.modLink l f).filling = c.filling := rfl
@[simp] theorem Ctl.modLink_fillWait (c : Ctl) (l : Nat) (f : Link → Link) : (c.modLink l f).fillWait = c.fillWait := rfl
@[simp] theorem Ctl.modLink_slices (c : Ctl) (l : Nat) (f : Link → Link) : (c.modLink l f).slices = c.slices := rfl
@[simp] theorem Ctl.modLink_classes (c : Ctl) (l : Nat) (f : Link → Link) : (c.modLink l f).classes = c.classes := rfl
@[simp] theorem Ctl.modLink_buckets (c : Ctl) (l : Nat) (f : Link → Link) : (c.modLink l f).buckets = c.buckets := rfl
@[simp] theorem Ctl.modLink_names (c : Ctl) (l : Nat) (f : Link → Link) : (c.modLink l f).names = c.names := rfl
@[simp] theorem Ctl.modLink_slots (c : Ctl) (l : Nat) (f : Link → Link) : (c.modLink l f).slots = c.slots := rfl
@[simp] theorem Ctl.modLink_migs (c : Ctl) (l : Nat) (f : Link → Link) : (c.modLink l f).migs = c.migs := rfl
@[simp] theorem Ctl.modLink_wanted (c : Ctl) (l : Nat) (f : Link → Link) : (c.modLink l f).wanted = c.wanted := rfl
@[simp] theorem Ctl.modLink_outcomes (c : Ctl) (l : Nat) (f : Link → Link) : (c.modLink l f).outcomes = c.outcomes := rfl
@[simp] theorem Ctl.modLink_rings (c : Ctl) (l : Nat) (f : Link → Link) : (c.modLink l f).rings = c.rings := rfl
@[simp] theorem Ctl.modLink_fetchPtr (c : Ctl) (l : Nat) (f : Link → Link) : (c.modLink l f).fetchPtr = c.fetchPtr := rfl
@[simp] theorem Ctl.modLink_descs (c : Ctl) (l : Nat) (f : Link → Link) : (c.modLink l f).descs = c.descs := rfl
@[simp] theorem Ctl.modLink_nextOrder (c : Ctl) (l : Nat) (f : Link → Link) : (c.modLink l f).nextOrder = c.nextOrder := rfl
@[simp] theorem Ctl.modLink_jobs (c : Ctl) (l : Nat) (f : Link → Link) : (c.modLink l f).jobs = c.jobs := rfl
@[simp] theorem Ctl.modLink_arbs (c : Ctl) (l : Nat) (f : Link → Link) : (c.modLink l f).arbs = c.arbs := rfl
@[simp] theorem Ctl.modLink_arbGen (c : Ctl) (l : Nat) (f : Link → Link) : (c.modLink l f).arbGen = c.arbGen := rfl
@[simp] theorem Ctl.modLink_mem (c : Ctl) (l : Nat) (f : Link → Link) : (c.modLink l f).mem = c.mem := rfl
@[simp] theorem Ctl.modLink_integ (c : Ctl) (l : Nat) (f : Link → Link) : (c.modLink l f).integ = c.integ := rfl
@[simp] theorem Ctl.modLink_sigs (c : Ctl) (l : Nat) (f : Link → Link) : (c.modLink l f).sigs = c.sigs := rfl
@[simp] theorem Ctl.modLink_power (c : Ctl) (l : Nat) (f : Link → Link) : (c.modLink l f).power = c.power := rfl
@[simp] theorem Ctl.modLink_group (c : Ctl) (l : Nat) (f : Link → Link) : (c.modLink l f).group = c.group := rfl
@[simp] theorem Ctl.modLink_mbDeadline (c : Ctl) (l : Nat) (f : Link → Link) : (c.modLink l f).mbDeadline = c.mbDeadline := rfl
@[simp] theorem Ctl.modLink_msq (c : Ctl) (l : Nat) (f : Link → Link) : (c.modLink l f).msq = c.msq := rfl
@[simp] theorem Ctl.modLink_deferredCommit (c : Ctl) (l : Nat) (f : Link → Link) : (c.modLink l f).deferredCommit = c.deferredCommit := rfl
@[simp] theorem Ctl.modLink_resetWait (c : Ctl) (l : Nat) (f : Link → Link) : (c.modLink l f).resetWait = c.resetWait := rfl
@[simp] theorem Ctl.modLink_func (c : Ctl) (l : Nat) (f : Link → Link) : (c.modLink l f).func = c.func := rfl
@[simp] theorem Ctl.modLink_resumes (c : Ctl) (l : Nat) (f : Link → Link) : (c.modLink l f).resumes = c.resumes := rfl
@[simp] theorem Ctl.modLink_inReset (c : Ctl) (l : Nat) (f : Link → Link) : (c.modLink l f).inReset = c.inReset := rfl
@[simp] theorem Ctl.modLink_off (c : Ctl) (l : Nat) (f : Link → Link) : (c.modLink l f).off = c.off := rfl
@[simp] theorem Ctl.modLink_stepGrants (c : Ctl) (l : Nat) (f : Link → Link) : (c.modLink l f).stepGrants = c.stepGrants := rfl
@[simp] theorem Ctl.modLink_wir (c : Ctl) (l : Nat) (f : Link → Link) : (c.modLink l f).wir = c.wir := rfl
@[simp] theorem Ctl.modLink_boundary (c : Ctl) (l : Nat) (f : Link → Link) : (c.modLink l f).boundary = c.boundary := rfl
@[simp] theorem Ctl.modLink_bypass (c : Ctl) (l : Nat) (f : Link → Link) : (c.modLink l f).bypass = c.bypass := rfl
@[simp] theorem Ctl.modLink_regRdata (c : Ctl) (l : Nat) (f : Link → Link) : (c.modLink l f).regRdata = c.regRdata := rfl
@[simp] theorem Ctl.modLink_outbox (c : Ctl) (l : Nat) (f : Link → Link) : (c.modLink l f).outbox = c.outbox := rfl
@[simp] theorem Ctl.modLink_freeCount (c : Ctl) (l : Nat) (f : Link → Link) : (c.modLink l f).freeCount = c.freeCount := rfl

@[simp] theorem Ctl.modNet_part (c : Ctl) (f : Net → Net) : (c.modNet f).part = c.part := rfl
@[simp] theorem Ctl.modNet_regs (c : Ctl) (f : Net → Net) : (c.modNet f).regs = c.regs := rfl
@[simp] theorem Ctl.modNet_refTicks (c : Ctl) (f : Net → Net) : (c.modNet f).refTicks = c.refTicks := rfl
@[simp] theorem Ctl.modNet_subTick (c : Ctl) (f : Net → Net) : (c.modNet f).subTick = c.subTick := rfl
@[simp] theorem Ctl.modNet_inService (c : Ctl) (f : Net → Net) : (c.modNet f).inService = c.inService := rfl
@[simp] theorem Ctl.modNet_filling (c : Ctl) (f : Net → Net) : (c.modNet f).filling = c.filling := rfl
@[simp] theorem Ctl.modNet_fillWait (c : Ctl) (f : Net → Net) : (c.modNet f).fillWait = c.fillWait := rfl
@[simp] theorem Ctl.modNet_slices (c : Ctl) (f : Net → Net) : (c.modNet f).slices = c.slices := rfl
@[simp] theorem Ctl.modNet_classes (c : Ctl) (f : Net → Net) : (c.modNet f).classes = c.classes := rfl
@[simp] theorem Ctl.modNet_buckets (c : Ctl) (f : Net → Net) : (c.modNet f).buckets = c.buckets := rfl
@[simp] theorem Ctl.modNet_names (c : Ctl) (f : Net → Net) : (c.modNet f).names = c.names := rfl
@[simp] theorem Ctl.modNet_slots (c : Ctl) (f : Net → Net) : (c.modNet f).slots = c.slots := rfl
@[simp] theorem Ctl.modNet_migs (c : Ctl) (f : Net → Net) : (c.modNet f).migs = c.migs := rfl
@[simp] theorem Ctl.modNet_wanted (c : Ctl) (f : Net → Net) : (c.modNet f).wanted = c.wanted := rfl
@[simp] theorem Ctl.modNet_outcomes (c : Ctl) (f : Net → Net) : (c.modNet f).outcomes = c.outcomes := rfl
@[simp] theorem Ctl.modNet_rings (c : Ctl) (f : Net → Net) : (c.modNet f).rings = c.rings := rfl
@[simp] theorem Ctl.modNet_fetchPtr (c : Ctl) (f : Net → Net) : (c.modNet f).fetchPtr = c.fetchPtr := rfl
@[simp] theorem Ctl.modNet_descs (c : Ctl) (f : Net → Net) : (c.modNet f).descs = c.descs := rfl
@[simp] theorem Ctl.modNet_nextOrder (c : Ctl) (f : Net → Net) : (c.modNet f).nextOrder = c.nextOrder := rfl
@[simp] theorem Ctl.modNet_jobs (c : Ctl) (f : Net → Net) : (c.modNet f).jobs = c.jobs := rfl
@[simp] theorem Ctl.modNet_arbs (c : Ctl) (f : Net → Net) : (c.modNet f).arbs = c.arbs := rfl
@[simp] theorem Ctl.modNet_arbGen (c : Ctl) (f : Net → Net) : (c.modNet f).arbGen = c.arbGen := rfl
@[simp] theorem Ctl.modNet_mem (c : Ctl) (f : Net → Net) : (c.modNet f).mem = c.mem := rfl
@[simp] theorem Ctl.modNet_integ (c : Ctl) (f : Net → Net) : (c.modNet f).integ = c.integ := rfl
@[simp] theorem Ctl.modNet_sigs (c : Ctl) (f : Net → Net) : (c.modNet f).sigs = c.sigs := rfl
@[simp] theorem Ctl.modNet_power (c : Ctl) (f : Net → Net) : (c.modNet f).power = c.power := rfl
@[simp] theorem Ctl.modNet_group (c : Ctl) (f : Net → Net) : (c.modNet f).group = c.group := rfl
@[simp] theorem Ctl.modNet_mbDeadline (c : Ctl) (f : Net → Net) : (c.modNet f).mbDeadline = c.mbDeadline := rfl
@[simp] theorem Ctl.modNet_msq (c : Ctl) (f : Net → Net) : (c.modNet f).msq = c.msq := rfl
@[simp] theorem Ctl.modNet_deferredCommit (c : Ctl) (f : Net → Net) : (c.modNet f).deferredCommit = c.deferredCommit := rfl
@[simp] theorem Ctl.modNet_resetWait (c : Ctl) (f : Net → Net) : (c.modNet f).resetWait = c.resetWait := rfl
@[simp] theorem Ctl.modNet_func (c : Ctl) (f : Net → Net) : (c.modNet f).func = c.func := rfl
@[simp] theorem Ctl.modNet_resumes (c : Ctl) (f : Net → Net) : (c.modNet f).resumes = c.resumes := rfl
@[simp] theorem Ctl.modNet_inReset (c : Ctl) (f : Net → Net) : (c.modNet f).inReset = c.inReset := rfl
@[simp] theorem Ctl.modNet_off (c : Ctl) (f : Net → Net) : (c.modNet f).off = c.off := rfl
@[simp] theorem Ctl.modNet_stepGrants (c : Ctl) (f : Net → Net) : (c.modNet f).stepGrants = c.stepGrants := rfl
@[simp] theorem Ctl.modNet_wir (c : Ctl) (f : Net → Net) : (c.modNet f).wir = c.wir := rfl
@[simp] theorem Ctl.modNet_boundary (c : Ctl) (f : Net → Net) : (c.modNet f).boundary = c.boundary := rfl
@[simp] theorem Ctl.modNet_bypass (c : Ctl) (f : Net → Net) : (c.modNet f).bypass = c.bypass := rfl
@[simp] theorem Ctl.modNet_regRdata (c : Ctl) (f : Net → Net) : (c.modNet f).regRdata = c.regRdata := rfl
@[simp] theorem Ctl.modNet_outbox (c : Ctl) (f : Net → Net) : (c.modNet f).outbox = c.outbox := rfl
@[simp] theorem Ctl.modNet_freeCount (c : Ctl) (f : Net → Net) : (c.modNet f).freeCount = c.freeCount := rfl

@[simp] theorem Ctl.modMem_part (c : Ctl) (f : Mem → Mem) : (c.modMem f).part = c.part := rfl
@[simp] theorem Ctl.modMem_regs (c : Ctl) (f : Mem → Mem) : (c.modMem f).regs = c.regs := rfl
@[simp] theorem Ctl.modMem_refTicks (c : Ctl) (f : Mem → Mem) : (c.modMem f).refTicks = c.refTicks := rfl
@[simp] theorem Ctl.modMem_subTick (c : Ctl) (f : Mem → Mem) : (c.modMem f).subTick = c.subTick := rfl
@[simp] theorem Ctl.modMem_inService (c : Ctl) (f : Mem → Mem) : (c.modMem f).inService = c.inService := rfl
@[simp] theorem Ctl.modMem_filling (c : Ctl) (f : Mem → Mem) : (c.modMem f).filling = c.filling := rfl
@[simp] theorem Ctl.modMem_fillWait (c : Ctl) (f : Mem → Mem) : (c.modMem f).fillWait = c.fillWait := rfl
@[simp] theorem Ctl.modMem_slices (c : Ctl) (f : Mem → Mem) : (c.modMem f).slices = c.slices := rfl
@[simp] theorem Ctl.modMem_classes (c : Ctl) (f : Mem → Mem) : (c.modMem f).classes = c.classes := rfl
@[simp] theorem Ctl.modMem_buckets (c : Ctl) (f : Mem → Mem) : (c.modMem f).buckets = c.buckets := rfl
@[simp] theorem Ctl.modMem_names (c : Ctl) (f : Mem → Mem) : (c.modMem f).names = c.names := rfl
@[simp] theorem Ctl.modMem_slots (c : Ctl) (f : Mem → Mem) : (c.modMem f).slots = c.slots := rfl
@[simp] theorem Ctl.modMem_migs (c : Ctl) (f : Mem → Mem) : (c.modMem f).migs = c.migs := rfl
@[simp] theorem Ctl.modMem_wanted (c : Ctl) (f : Mem → Mem) : (c.modMem f).wanted = c.wanted := rfl
@[simp] theorem Ctl.modMem_outcomes (c : Ctl) (f : Mem → Mem) : (c.modMem f).outcomes = c.outcomes := rfl
@[simp] theorem Ctl.modMem_rings (c : Ctl) (f : Mem → Mem) : (c.modMem f).rings = c.rings := rfl
@[simp] theorem Ctl.modMem_fetchPtr (c : Ctl) (f : Mem → Mem) : (c.modMem f).fetchPtr = c.fetchPtr := rfl
@[simp] theorem Ctl.modMem_descs (c : Ctl) (f : Mem → Mem) : (c.modMem f).descs = c.descs := rfl
@[simp] theorem Ctl.modMem_nextOrder (c : Ctl) (f : Mem → Mem) : (c.modMem f).nextOrder = c.nextOrder := rfl
@[simp] theorem Ctl.modMem_jobs (c : Ctl) (f : Mem → Mem) : (c.modMem f).jobs = c.jobs := rfl
@[simp] theorem Ctl.modMem_arbs (c : Ctl) (f : Mem → Mem) : (c.modMem f).arbs = c.arbs := rfl
@[simp] theorem Ctl.modMem_arbGen (c : Ctl) (f : Mem → Mem) : (c.modMem f).arbGen = c.arbGen := rfl
@[simp] theorem Ctl.modMem_net (c : Ctl) (f : Mem → Mem) : (c.modMem f).net = c.net := rfl
@[simp] theorem Ctl.modMem_integ (c : Ctl) (f : Mem → Mem) : (c.modMem f).integ = c.integ := rfl
@[simp] theorem Ctl.modMem_sigs (c : Ctl) (f : Mem → Mem) : (c.modMem f).sigs = c.sigs := rfl
@[simp] theorem Ctl.modMem_power (c : Ctl) (f : Mem → Mem) : (c.modMem f).power = c.power := rfl
@[simp] theorem Ctl.modMem_group (c : Ctl) (f : Mem → Mem) : (c.modMem f).group = c.group := rfl
@[simp] theorem Ctl.modMem_mbDeadline (c : Ctl) (f : Mem → Mem) : (c.modMem f).mbDeadline = c.mbDeadline := rfl
@[simp] theorem Ctl.modMem_msq (c : Ctl) (f : Mem → Mem) : (c.modMem f).msq = c.msq := rfl
@[simp] theorem Ctl.modMem_deferredCommit (c : Ctl) (f : Mem → Mem) : (c.modMem f).deferredCommit = c.deferredCommit := rfl
@[simp] theorem Ctl.modMem_resetWait (c : Ctl) (f : Mem → Mem) : (c.modMem f).resetWait = c.resetWait := rfl
@[simp] theorem Ctl.modMem_func (c : Ctl) (f : Mem → Mem) : (c.modMem f).func = c.func := rfl
@[simp] theorem Ctl.modMem_resumes (c : Ctl) (f : Mem → Mem) : (c.modMem f).resumes = c.resumes := rfl
@[simp] theorem Ctl.modMem_inReset (c : Ctl) (f : Mem → Mem) : (c.modMem f).inReset = c.inReset := rfl
@[simp] theorem Ctl.modMem_off (c : Ctl) (f : Mem → Mem) : (c.modMem f).off = c.off := rfl
@[simp] theorem Ctl.modMem_stepGrants (c : Ctl) (f : Mem → Mem) : (c.modMem f).stepGrants = c.stepGrants := rfl
@[simp] theorem Ctl.modMem_wir (c : Ctl) (f : Mem → Mem) : (c.modMem f).wir = c.wir := rfl
@[simp] theorem Ctl.modMem_boundary (c : Ctl) (f : Mem → Mem) : (c.modMem f).boundary = c.boundary := rfl
@[simp] theorem Ctl.modMem_bypass (c : Ctl) (f : Mem → Mem) : (c.modMem f).bypass = c.bypass := rfl
@[simp] theorem Ctl.modMem_regRdata (c : Ctl) (f : Mem → Mem) : (c.modMem f).regRdata = c.regRdata := rfl
@[simp] theorem Ctl.modMem_outbox (c : Ctl) (f : Mem → Mem) : (c.modMem f).outbox = c.outbox := rfl
@[simp] theorem Ctl.modMem_freeCount (c : Ctl) (f : Mem → Mem) : (c.modMem f).freeCount = c.freeCount := rfl

@[simp] theorem Ctl.modPower_part (c : Ctl) (f : Power → Power) : (c.modPower f).part = c.part := rfl
@[simp] theorem Ctl.modPower_regs (c : Ctl) (f : Power → Power) : (c.modPower f).regs = c.regs := rfl
@[simp] theorem Ctl.modPower_refTicks (c : Ctl) (f : Power → Power) : (c.modPower f).refTicks = c.refTicks := rfl
@[simp] theorem Ctl.modPower_subTick (c : Ctl) (f : Power → Power) : (c.modPower f).subTick = c.subTick := rfl
@[simp] theorem Ctl.modPower_inService (c : Ctl) (f : Power → Power) : (c.modPower f).inService = c.inService := rfl
@[simp] theorem Ctl.modPower_filling (c : Ctl) (f : Power → Power) : (c.modPower f).filling = c.filling := rfl
@[simp] theorem Ctl.modPower_fillWait (c : Ctl) (f : Power → Power) : (c.modPower f).fillWait = c.fillWait := rfl
@[simp] theorem Ctl.modPower_slices (c : Ctl) (f : Power → Power) : (c.modPower f).slices = c.slices := rfl
@[simp] theorem Ctl.modPower_classes (c : Ctl) (f : Power → Power) : (c.modPower f).classes = c.classes := rfl
@[simp] theorem Ctl.modPower_buckets (c : Ctl) (f : Power → Power) : (c.modPower f).buckets = c.buckets := rfl
@[simp] theorem Ctl.modPower_names (c : Ctl) (f : Power → Power) : (c.modPower f).names = c.names := rfl
@[simp] theorem Ctl.modPower_slots (c : Ctl) (f : Power → Power) : (c.modPower f).slots = c.slots := rfl
@[simp] theorem Ctl.modPower_migs (c : Ctl) (f : Power → Power) : (c.modPower f).migs = c.migs := rfl
@[simp] theorem Ctl.modPower_wanted (c : Ctl) (f : Power → Power) : (c.modPower f).wanted = c.wanted := rfl
@[simp] theorem Ctl.modPower_outcomes (c : Ctl) (f : Power → Power) : (c.modPower f).outcomes = c.outcomes := rfl
@[simp] theorem Ctl.modPower_rings (c : Ctl) (f : Power → Power) : (c.modPower f).rings = c.rings := rfl
@[simp] theorem Ctl.modPower_fetchPtr (c : Ctl) (f : Power → Power) : (c.modPower f).fetchPtr = c.fetchPtr := rfl
@[simp] theorem Ctl.modPower_descs (c : Ctl) (f : Power → Power) : (c.modPower f).descs = c.descs := rfl
@[simp] theorem Ctl.modPower_nextOrder (c : Ctl) (f : Power → Power) : (c.modPower f).nextOrder = c.nextOrder := rfl
@[simp] theorem Ctl.modPower_jobs (c : Ctl) (f : Power → Power) : (c.modPower f).jobs = c.jobs := rfl
@[simp] theorem Ctl.modPower_arbs (c : Ctl) (f : Power → Power) : (c.modPower f).arbs = c.arbs := rfl
@[simp] theorem Ctl.modPower_arbGen (c : Ctl) (f : Power → Power) : (c.modPower f).arbGen = c.arbGen := rfl
@[simp] theorem Ctl.modPower_net (c : Ctl) (f : Power → Power) : (c.modPower f).net = c.net := rfl
@[simp] theorem Ctl.modPower_mem (c : Ctl) (f : Power → Power) : (c.modPower f).mem = c.mem := rfl
@[simp] theorem Ctl.modPower_integ (c : Ctl) (f : Power → Power) : (c.modPower f).integ = c.integ := rfl
@[simp] theorem Ctl.modPower_sigs (c : Ctl) (f : Power → Power) : (c.modPower f).sigs = c.sigs := rfl
@[simp] theorem Ctl.modPower_group (c : Ctl) (f : Power → Power) : (c.modPower f).group = c.group := rfl
@[simp] theorem Ctl.modPower_mbDeadline (c : Ctl) (f : Power → Power) : (c.modPower f).mbDeadline = c.mbDeadline := rfl
@[simp] theorem Ctl.modPower_msq (c : Ctl) (f : Power → Power) : (c.modPower f).msq = c.msq := rfl
@[simp] theorem Ctl.modPower_deferredCommit (c : Ctl) (f : Power → Power) : (c.modPower f).deferredCommit = c.deferredCommit := rfl
@[simp] theorem Ctl.modPower_resetWait (c : Ctl) (f : Power → Power) : (c.modPower f).resetWait = c.resetWait := rfl
@[simp] theorem Ctl.modPower_func (c : Ctl) (f : Power → Power) : (c.modPower f).func = c.func := rfl
@[simp] theorem Ctl.modPower_resumes (c : Ctl) (f : Power → Power) : (c.modPower f).resumes = c.resumes := rfl
@[simp] theorem Ctl.modPower_inReset (c : Ctl) (f : Power → Power) : (c.modPower f).inReset = c.inReset := rfl
@[simp] theorem Ctl.modPower_off (c : Ctl) (f : Power → Power) : (c.modPower f).off = c.off := rfl
@[simp] theorem Ctl.modPower_stepGrants (c : Ctl) (f : Power → Power) : (c.modPower f).stepGrants = c.stepGrants := rfl
@[simp] theorem Ctl.modPower_wir (c : Ctl) (f : Power → Power) : (c.modPower f).wir = c.wir := rfl
@[simp] theorem Ctl.modPower_boundary (c : Ctl) (f : Power → Power) : (c.modPower f).boundary = c.boundary := rfl
@[simp] theorem Ctl.modPower_bypass (c : Ctl) (f : Power → Power) : (c.modPower f).bypass = c.bypass := rfl
@[simp] theorem Ctl.modPower_regRdata (c : Ctl) (f : Power → Power) : (c.modPower f).regRdata = c.regRdata := rfl
@[simp] theorem Ctl.modPower_outbox (c : Ctl) (f : Power → Power) : (c.modPower f).outbox = c.outbox := rfl
@[simp] theorem Ctl.modPower_freeCount (c : Ctl) (f : Power → Power) : (c.modPower f).freeCount = c.freeCount := rfl

@[simp] theorem Ctl.modGroup_part (c : Ctl) (f : Group → Group) : (c.modGroup f).part = c.part := rfl
@[simp] theorem Ctl.modGroup_regs (c : Ctl) (f : Group → Group) : (c.modGroup f).regs = c.regs := rfl
@[simp] theorem Ctl.modGroup_refTicks (c : Ctl) (f : Group → Group) : (c.modGroup f).refTicks = c.refTicks := rfl
@[simp] theorem Ctl.modGroup_subTick (c : Ctl) (f : Group → Group) : (c.modGroup f).subTick = c.subTick := rfl
@[simp] theorem Ctl.modGroup_inService (c : Ctl) (f : Group → Group) : (c.modGroup f).inService = c.inService := rfl
@[simp] theorem Ctl.modGroup_filling (c : Ctl) (f : Group → Group) : (c.modGroup f).filling = c.filling := rfl
@[simp] theorem Ctl.modGroup_fillWait (c : Ctl) (f : Group → Group) : (c.modGroup f).fillWait = c.fillWait := rfl
@[simp] theorem Ctl.modGroup_slices (c : Ctl) (f : Group → Group) : (c.modGroup f).slices = c.slices := rfl
@[simp] theorem Ctl.modGroup_classes (c : Ctl) (f : Group → Group) : (c.modGroup f).classes = c.classes := rfl
@[simp] theorem Ctl.modGroup_buckets (c : Ctl) (f : Group → Group) : (c.modGroup f).buckets = c.buckets := rfl
@[simp] theorem Ctl.modGroup_names (c : Ctl) (f : Group → Group) : (c.modGroup f).names = c.names := rfl
@[simp] theorem Ctl.modGroup_slots (c : Ctl) (f : Group → Group) : (c.modGroup f).slots = c.slots := rfl
@[simp] theorem Ctl.modGroup_migs (c : Ctl) (f : Group → Group) : (c.modGroup f).migs = c.migs := rfl
@[simp] theorem Ctl.modGroup_wanted (c : Ctl) (f : Group → Group) : (c.modGroup f).wanted = c.wanted := rfl
@[simp] theorem Ctl.modGroup_outcomes (c : Ctl) (f : Group → Group) : (c.modGroup f).outcomes = c.outcomes := rfl
@[simp] theorem Ctl.modGroup_rings (c : Ctl) (f : Group → Group) : (c.modGroup f).rings = c.rings := rfl
@[simp] theorem Ctl.modGroup_fetchPtr (c : Ctl) (f : Group → Group) : (c.modGroup f).fetchPtr = c.fetchPtr := rfl
@[simp] theorem Ctl.modGroup_descs (c : Ctl) (f : Group → Group) : (c.modGroup f).descs = c.descs := rfl
@[simp] theorem Ctl.modGroup_nextOrder (c : Ctl) (f : Group → Group) : (c.modGroup f).nextOrder = c.nextOrder := rfl
@[simp] theorem Ctl.modGroup_jobs (c : Ctl) (f : Group → Group) : (c.modGroup f).jobs = c.jobs := rfl
@[simp] theorem Ctl.modGroup_arbs (c : Ctl) (f : Group → Group) : (c.modGroup f).arbs = c.arbs := rfl
@[simp] theorem Ctl.modGroup_arbGen (c : Ctl) (f : Group → Group) : (c.modGroup f).arbGen = c.arbGen := rfl
@[simp] theorem Ctl.modGroup_net (c : Ctl) (f : Group → Group) : (c.modGroup f).net = c.net := rfl
@[simp] theorem Ctl.modGroup_mem (c : Ctl) (f : Group → Group) : (c.modGroup f).mem = c.mem := rfl
@[simp] theorem Ctl.modGroup_integ (c : Ctl) (f : Group → Group) : (c.modGroup f).integ = c.integ := rfl
@[simp] theorem Ctl.modGroup_sigs (c : Ctl) (f : Group → Group) : (c.modGroup f).sigs = c.sigs := rfl
@[simp] theorem Ctl.modGroup_power (c : Ctl) (f : Group → Group) : (c.modGroup f).power = c.power := rfl
@[simp] theorem Ctl.modGroup_mbDeadline (c : Ctl) (f : Group → Group) : (c.modGroup f).mbDeadline = c.mbDeadline := rfl
@[simp] theorem Ctl.modGroup_msq (c : Ctl) (f : Group → Group) : (c.modGroup f).msq = c.msq := rfl
@[simp] theorem Ctl.modGroup_deferredCommit (c : Ctl) (f : Group → Group) : (c.modGroup f).deferredCommit = c.deferredCommit := rfl
@[simp] theorem Ctl.modGroup_resetWait (c : Ctl) (f : Group → Group) : (c.modGroup f).resetWait = c.resetWait := rfl
@[simp] theorem Ctl.modGroup_func (c : Ctl) (f : Group → Group) : (c.modGroup f).func = c.func := rfl
@[simp] theorem Ctl.modGroup_resumes (c : Ctl) (f : Group → Group) : (c.modGroup f).resumes = c.resumes := rfl
@[simp] theorem Ctl.modGroup_inReset (c : Ctl) (f : Group → Group) : (c.modGroup f).inReset = c.inReset := rfl
@[simp] theorem Ctl.modGroup_off (c : Ctl) (f : Group → Group) : (c.modGroup f).off = c.off := rfl
@[simp] theorem Ctl.modGroup_stepGrants (c : Ctl) (f : Group → Group) : (c.modGroup f).stepGrants = c.stepGrants := rfl
@[simp] theorem Ctl.modGroup_wir (c : Ctl) (f : Group → Group) : (c.modGroup f).wir = c.wir := rfl
@[simp] theorem Ctl.modGroup_boundary (c : Ctl) (f : Group → Group) : (c.modGroup f).boundary = c.boundary := rfl
@[simp] theorem Ctl.modGroup_bypass (c : Ctl) (f : Group → Group) : (c.modGroup f).bypass = c.bypass := rfl
@[simp] theorem Ctl.modGroup_regRdata (c : Ctl) (f : Group → Group) : (c.modGroup f).regRdata = c.regRdata := rfl
@[simp] theorem Ctl.modGroup_outbox (c : Ctl) (f : Group → Group) : (c.modGroup f).outbox = c.outbox := rfl
@[simp] theorem Ctl.modGroup_freeCount (c : Ctl) (f : Group → Group) : (c.modGroup f).freeCount = c.freeCount := rfl

@[simp] theorem Ctl.modMsq_part (c : Ctl) (f : Msq → Msq) : (c.modMsq f).part = c.part := rfl
@[simp] theorem Ctl.modMsq_regs (c : Ctl) (f : Msq → Msq) : (c.modMsq f).regs = c.regs := rfl
@[simp] theorem Ctl.modMsq_refTicks (c : Ctl) (f : Msq → Msq) : (c.modMsq f).refTicks = c.refTicks := rfl
@[simp] theorem Ctl.modMsq_subTick (c : Ctl) (f : Msq → Msq) : (c.modMsq f).subTick = c.subTick := rfl
@[simp] theorem Ctl.modMsq_inService (c : Ctl) (f : Msq → Msq) : (c.modMsq f).inService = c.inService := rfl
@[simp] theorem Ctl.modMsq_filling (c : Ctl) (f : Msq → Msq) : (c.modMsq f).filling = c.filling := rfl
@[simp] theorem Ctl.modMsq_fillWait (c : Ctl) (f : Msq → Msq) : (c.modMsq f).fillWait = c.fillWait := rfl
@[simp] theorem Ctl.modMsq_slices (c : Ctl) (f : Msq → Msq) : (c.modMsq f).slices = c.slices := rfl
@[simp] theorem Ctl.modMsq_classes (c : Ctl) (f : Msq → Msq) : (c.modMsq f).classes = c.classes := rfl
@[simp] theorem Ctl.modMsq_buckets (c : Ctl) (f : Msq → Msq) : (c.modMsq f).buckets = c.buckets := rfl
@[simp] theorem Ctl.modMsq_names (c : Ctl) (f : Msq → Msq) : (c.modMsq f).names = c.names := rfl
@[simp] theorem Ctl.modMsq_slots (c : Ctl) (f : Msq → Msq) : (c.modMsq f).slots = c.slots := rfl
@[simp] theorem Ctl.modMsq_migs (c : Ctl) (f : Msq → Msq) : (c.modMsq f).migs = c.migs := rfl
@[simp] theorem Ctl.modMsq_wanted (c : Ctl) (f : Msq → Msq) : (c.modMsq f).wanted = c.wanted := rfl
@[simp] theorem Ctl.modMsq_outcomes (c : Ctl) (f : Msq → Msq) : (c.modMsq f).outcomes = c.outcomes := rfl
@[simp] theorem Ctl.modMsq_rings (c : Ctl) (f : Msq → Msq) : (c.modMsq f).rings = c.rings := rfl
@[simp] theorem Ctl.modMsq_fetchPtr (c : Ctl) (f : Msq → Msq) : (c.modMsq f).fetchPtr = c.fetchPtr := rfl
@[simp] theorem Ctl.modMsq_descs (c : Ctl) (f : Msq → Msq) : (c.modMsq f).descs = c.descs := rfl
@[simp] theorem Ctl.modMsq_nextOrder (c : Ctl) (f : Msq → Msq) : (c.modMsq f).nextOrder = c.nextOrder := rfl
@[simp] theorem Ctl.modMsq_jobs (c : Ctl) (f : Msq → Msq) : (c.modMsq f).jobs = c.jobs := rfl
@[simp] theorem Ctl.modMsq_arbs (c : Ctl) (f : Msq → Msq) : (c.modMsq f).arbs = c.arbs := rfl
@[simp] theorem Ctl.modMsq_arbGen (c : Ctl) (f : Msq → Msq) : (c.modMsq f).arbGen = c.arbGen := rfl
@[simp] theorem Ctl.modMsq_net (c : Ctl) (f : Msq → Msq) : (c.modMsq f).net = c.net := rfl
@[simp] theorem Ctl.modMsq_mem (c : Ctl) (f : Msq → Msq) : (c.modMsq f).mem = c.mem := rfl
@[simp] theorem Ctl.modMsq_integ (c : Ctl) (f : Msq → Msq) : (c.modMsq f).integ = c.integ := rfl
@[simp] theorem Ctl.modMsq_sigs (c : Ctl) (f : Msq → Msq) : (c.modMsq f).sigs = c.sigs := rfl
@[simp] theorem Ctl.modMsq_power (c : Ctl) (f : Msq → Msq) : (c.modMsq f).power = c.power := rfl
@[simp] theorem Ctl.modMsq_group (c : Ctl) (f : Msq → Msq) : (c.modMsq f).group = c.group := rfl
@[simp] theorem Ctl.modMsq_mbDeadline (c : Ctl) (f : Msq → Msq) : (c.modMsq f).mbDeadline = c.mbDeadline := rfl
@[simp] theorem Ctl.modMsq_deferredCommit (c : Ctl) (f : Msq → Msq) : (c.modMsq f).deferredCommit = c.deferredCommit := rfl
@[simp] theorem Ctl.modMsq_resetWait (c : Ctl) (f : Msq → Msq) : (c.modMsq f).resetWait = c.resetWait := rfl
@[simp] theorem Ctl.modMsq_func (c : Ctl) (f : Msq → Msq) : (c.modMsq f).func = c.func := rfl
@[simp] theorem Ctl.modMsq_resumes (c : Ctl) (f : Msq → Msq) : (c.modMsq f).resumes = c.resumes := rfl
@[simp] theorem Ctl.modMsq_inReset (c : Ctl) (f : Msq → Msq) : (c.modMsq f).inReset = c.inReset := rfl
@[simp] theorem Ctl.modMsq_off (c : Ctl) (f : Msq → Msq) : (c.modMsq f).off = c.off := rfl
@[simp] theorem Ctl.modMsq_stepGrants (c : Ctl) (f : Msq → Msq) : (c.modMsq f).stepGrants = c.stepGrants := rfl
@[simp] theorem Ctl.modMsq_wir (c : Ctl) (f : Msq → Msq) : (c.modMsq f).wir = c.wir := rfl
@[simp] theorem Ctl.modMsq_boundary (c : Ctl) (f : Msq → Msq) : (c.modMsq f).boundary = c.boundary := rfl
@[simp] theorem Ctl.modMsq_bypass (c : Ctl) (f : Msq → Msq) : (c.modMsq f).bypass = c.bypass := rfl
@[simp] theorem Ctl.modMsq_regRdata (c : Ctl) (f : Msq → Msq) : (c.modMsq f).regRdata = c.regRdata := rfl
@[simp] theorem Ctl.modMsq_outbox (c : Ctl) (f : Msq → Msq) : (c.modMsq f).outbox = c.outbox := rfl
@[simp] theorem Ctl.modMsq_freeCount (c : Ctl) (f : Msq → Msq) : (c.modMsq f).freeCount = c.freeCount := rfl

@[simp] theorem Ctl.modInteg_part (c : Ctl) (f : Integ → Integ) : (c.modInteg f).part = c.part := rfl
@[simp] theorem Ctl.modInteg_regs (c : Ctl) (f : Integ → Integ) : (c.modInteg f).regs = c.regs := rfl
@[simp] theorem Ctl.modInteg_refTicks (c : Ctl) (f : Integ → Integ) : (c.modInteg f).refTicks = c.refTicks := rfl
@[simp] theorem Ctl.modInteg_subTick (c : Ctl) (f : Integ → Integ) : (c.modInteg f).subTick = c.subTick := rfl
@[simp] theorem Ctl.modInteg_inService (c : Ctl) (f : Integ → Integ) : (c.modInteg f).inService = c.inService := rfl
@[simp] theorem Ctl.modInteg_filling (c : Ctl) (f : Integ → Integ) : (c.modInteg f).filling = c.filling := rfl
@[simp] theorem Ctl.modInteg_fillWait (c : Ctl) (f : Integ → Integ) : (c.modInteg f).fillWait = c.fillWait := rfl
@[simp] theorem Ctl.modInteg_slices (c : Ctl) (f : Integ → Integ) : (c.modInteg f).slices = c.slices := rfl
@[simp] theorem Ctl.modInteg_classes (c : Ctl) (f : Integ → Integ) : (c.modInteg f).classes = c.classes := rfl
@[simp] theorem Ctl.modInteg_buckets (c : Ctl) (f : Integ → Integ) : (c.modInteg f).buckets = c.buckets := rfl
@[simp] theorem Ctl.modInteg_names (c : Ctl) (f : Integ → Integ) : (c.modInteg f).names = c.names := rfl
@[simp] theorem Ctl.modInteg_slots (c : Ctl) (f : Integ → Integ) : (c.modInteg f).slots = c.slots := rfl
@[simp] theorem Ctl.modInteg_migs (c : Ctl) (f : Integ → Integ) : (c.modInteg f).migs = c.migs := rfl
@[simp] theorem Ctl.modInteg_wanted (c : Ctl) (f : Integ → Integ) : (c.modInteg f).wanted = c.wanted := rfl
@[simp] theorem Ctl.modInteg_outcomes (c : Ctl) (f : Integ → Integ) : (c.modInteg f).outcomes = c.outcomes := rfl
@[simp] theorem Ctl.modInteg_rings (c : Ctl) (f : Integ → Integ) : (c.modInteg f).rings = c.rings := rfl
@[simp] theorem Ctl.modInteg_fetchPtr (c : Ctl) (f : Integ → Integ) : (c.modInteg f).fetchPtr = c.fetchPtr := rfl
@[simp] theorem Ctl.modInteg_descs (c : Ctl) (f : Integ → Integ) : (c.modInteg f).descs = c.descs := rfl
@[simp] theorem Ctl.modInteg_nextOrder (c : Ctl) (f : Integ → Integ) : (c.modInteg f).nextOrder = c.nextOrder := rfl
@[simp] theorem Ctl.modInteg_jobs (c : Ctl) (f : Integ → Integ) : (c.modInteg f).jobs = c.jobs := rfl
@[simp] theorem Ctl.modInteg_arbs (c : Ctl) (f : Integ → Integ) : (c.modInteg f).arbs = c.arbs := rfl
@[simp] theorem Ctl.modInteg_arbGen (c : Ctl) (f : Integ → Integ) : (c.modInteg f).arbGen = c.arbGen := rfl
@[simp] theorem Ctl.modInteg_net (c : Ctl) (f : Integ → Integ) : (c.modInteg f).net = c.net := rfl
@[simp] theorem Ctl.modInteg_mem (c : Ctl) (f : Integ → Integ) : (c.modInteg f).mem = c.mem := rfl
@[simp] theorem Ctl.modInteg_sigs (c : Ctl) (f : Integ → Integ) : (c.modInteg f).sigs = c.sigs := rfl
@[simp] theorem Ctl.modInteg_power (c : Ctl) (f : Integ → Integ) : (c.modInteg f).power = c.power := rfl
@[simp] theorem Ctl.modInteg_group (c : Ctl) (f : Integ → Integ) : (c.modInteg f).group = c.group := rfl
@[simp] theorem Ctl.modInteg_mbDeadline (c : Ctl) (f : Integ → Integ) : (c.modInteg f).mbDeadline = c.mbDeadline := rfl
@[simp] theorem Ctl.modInteg_msq (c : Ctl) (f : Integ → Integ) : (c.modInteg f).msq = c.msq := rfl
@[simp] theorem Ctl.modInteg_deferredCommit (c : Ctl) (f : Integ → Integ) : (c.modInteg f).deferredCommit = c.deferredCommit := rfl
@[simp] theorem Ctl.modInteg_resetWait (c : Ctl) (f : Integ → Integ) : (c.modInteg f).resetWait = c.resetWait := rfl
@[simp] theorem Ctl.modInteg_func (c : Ctl) (f : Integ → Integ) : (c.modInteg f).func = c.func := rfl
@[simp] theorem Ctl.modInteg_resumes (c : Ctl) (f : Integ → Integ) : (c.modInteg f).resumes = c.resumes := rfl
@[simp] theorem Ctl.modInteg_inReset (c : Ctl) (f : Integ → Integ) : (c.modInteg f).inReset = c.inReset := rfl
@[simp] theorem Ctl.modInteg_off (c : Ctl) (f : Integ → Integ) : (c.modInteg f).off = c.off := rfl
@[simp] theorem Ctl.modInteg_stepGrants (c : Ctl) (f : Integ → Integ) : (c.modInteg f).stepGrants = c.stepGrants := rfl
@[simp] theorem Ctl.modInteg_wir (c : Ctl) (f : Integ → Integ) : (c.modInteg f).wir = c.wir := rfl
@[simp] theorem Ctl.modInteg_boundary (c : Ctl) (f : Integ → Integ) : (c.modInteg f).boundary = c.boundary := rfl
@[simp] theorem Ctl.modInteg_bypass (c : Ctl) (f : Integ → Integ) : (c.modInteg f).bypass = c.bypass := rfl
@[simp] theorem Ctl.modInteg_regRdata (c : Ctl) (f : Integ → Integ) : (c.modInteg f).regRdata = c.regRdata := rfl
@[simp] theorem Ctl.modInteg_outbox (c : Ctl) (f : Integ → Integ) : (c.modInteg f).outbox = c.outbox := rfl
@[simp] theorem Ctl.modInteg_freeCount (c : Ctl) (f : Integ → Integ) : (c.modInteg f).freeCount = c.freeCount := rfl

@[simp] theorem Ctl.modDesc_part (c : Ctl) (k : Key) (f : Desc → Desc) : (c.modDesc k f).part = c.part := rfl
@[simp] theorem Ctl.modDesc_regs (c : Ctl) (k : Key) (f : Desc → Desc) : (c.modDesc k f).regs = c.regs := rfl
@[simp] theorem Ctl.modDesc_refTicks (c : Ctl) (k : Key) (f : Desc → Desc) : (c.modDesc k f).refTicks = c.refTicks := rfl
@[simp] theorem Ctl.modDesc_subTick (c : Ctl) (k : Key) (f : Desc → Desc) : (c.modDesc k f).subTick = c.subTick := rfl
@[simp] theorem Ctl.modDesc_inService (c : Ctl) (k : Key) (f : Desc → Desc) : (c.modDesc k f).inService = c.inService := rfl
@[simp] theorem Ctl.modDesc_filling (c : Ctl) (k : Key) (f : Desc → Desc) : (c.modDesc k f).filling = c.filling := rfl
@[simp] theorem Ctl.modDesc_fillWait (c : Ctl) (k : Key) (f : Desc → Desc) : (c.modDesc k f).fillWait = c.fillWait := rfl
@[simp] theorem Ctl.modDesc_slices (c : Ctl) (k : Key) (f : Desc → Desc) : (c.modDesc k f).slices = c.slices := rfl
@[simp] theorem Ctl.modDesc_classes (c : Ctl) (k : Key) (f : Desc → Desc) : (c.modDesc k f).classes = c.classes := rfl
@[simp] theorem Ctl.modDesc_buckets (c : Ctl) (k : Key) (f : Desc → Desc) : (c.modDesc k f).buckets = c.buckets := rfl
@[simp] theorem Ctl.modDesc_names (c : Ctl) (k : Key) (f : Desc → Desc) : (c.modDesc k f).names = c.names := rfl
@[simp] theorem Ctl.modDesc_slots (c : Ctl) (k : Key) (f : Desc → Desc) : (c.modDesc k f).slots = c.slots := rfl
@[simp] theorem Ctl.modDesc_migs (c : Ctl) (k : Key) (f : Desc → Desc) : (c.modDesc k f).migs = c.migs := rfl
@[simp] theorem Ctl.modDesc_wanted (c : Ctl) (k : Key) (f : Desc → Desc) : (c.modDesc k f).wanted = c.wanted := rfl
@[simp] theorem Ctl.modDesc_outcomes (c : Ctl) (k : Key) (f : Desc → Desc) : (c.modDesc k f).outcomes = c.outcomes := rfl
@[simp] theorem Ctl.modDesc_rings (c : Ctl) (k : Key) (f : Desc → Desc) : (c.modDesc k f).rings = c.rings := rfl
@[simp] theorem Ctl.modDesc_fetchPtr (c : Ctl) (k : Key) (f : Desc → Desc) : (c.modDesc k f).fetchPtr = c.fetchPtr := rfl
@[simp] theorem Ctl.modDesc_nextOrder (c : Ctl) (k : Key) (f : Desc → Desc) : (c.modDesc k f).nextOrder = c.nextOrder := rfl
@[simp] theorem Ctl.modDesc_jobs (c : Ctl) (k : Key) (f : Desc → Desc) : (c.modDesc k f).jobs = c.jobs := rfl
@[simp] theorem Ctl.modDesc_arbs (c : Ctl) (k : Key) (f : Desc → Desc) : (c.modDesc k f).arbs = c.arbs := rfl
@[simp] theorem Ctl.modDesc_arbGen (c : Ctl) (k : Key) (f : Desc → Desc) : (c.modDesc k f).arbGen = c.arbGen := rfl
@[simp] theorem Ctl.modDesc_net (c : Ctl) (k : Key) (f : Desc → Desc) : (c.modDesc k f).net = c.net := rfl
@[simp] theorem Ctl.modDesc_mem (c : Ctl) (k : Key) (f : Desc → Desc) : (c.modDesc k f).mem = c.mem := rfl
@[simp] theorem Ctl.modDesc_integ (c : Ctl) (k : Key) (f : Desc → Desc) : (c.modDesc k f).integ = c.integ := rfl
@[simp] theorem Ctl.modDesc_sigs (c : Ctl) (k : Key) (f : Desc → Desc) : (c.modDesc k f).sigs = c.sigs := rfl
@[simp] theorem Ctl.modDesc_power (c : Ctl) (k : Key) (f : Desc → Desc) : (c.modDesc k f).power = c.power := rfl
@[simp] theorem Ctl.modDesc_group (c : Ctl) (k : Key) (f : Desc → Desc) : (c.modDesc k f).group = c.group := rfl
@[simp] theorem Ctl.modDesc_mbDeadline (c : Ctl) (k : Key) (f : Desc → Desc) : (c.modDesc k f).mbDeadline = c.mbDeadline := rfl
@[simp] theorem Ctl.modDesc_msq (c : Ctl) (k : Key) (f : Desc → Desc) : (c.modDesc k f).msq = c.msq := rfl
@[simp] theorem Ctl.modDesc_deferredCommit (c : Ctl) (k : Key) (f : Desc → Desc) : (c.modDesc k f).deferredCommit = c.deferredCommit := rfl
@[simp] theorem Ctl.modDesc_resetWait (c : Ctl) (k : Key) (f : Desc → Desc) : (c.modDesc k f).resetWait = c.resetWait := rfl
@[simp] theorem Ctl.modDesc_func (c : Ctl) (k : Key) (f : Desc → Desc) : (c.modDesc k f).func = c.func := rfl
@[simp] theorem Ctl.modDesc_resumes (c : Ctl) (k : Key) (f : Desc → Desc) : (c.modDesc k f).resumes = c.resumes := rfl
@[simp] theorem Ctl.modDesc_inReset (c : Ctl) (k : Key) (f : Desc → Desc) : (c.modDesc k f).inReset = c.inReset := rfl
@[simp] theorem Ctl.modDesc_off (c : Ctl) (k : Key) (f : Desc → Desc) : (c.modDesc k f).off = c.off := rfl
@[simp] theorem Ctl.modDesc_stepGrants (c : Ctl) (k : Key) (f : Desc → Desc) : (c.modDesc k f).stepGrants = c.stepGrants := rfl
@[simp] theorem Ctl.modDesc_wir (c : Ctl) (k : Key) (f : Desc → Desc) : (c.modDesc k f).wir = c.wir := rfl
@[simp] theorem Ctl.modDesc_boundary (c : Ctl) (k : Key) (f : Desc → Desc) : (c.modDesc k f).boundary = c.boundary := rfl
@[simp] theorem Ctl.modDesc_bypass (c : Ctl) (k : Key) (f : Desc → Desc) : (c.modDesc k f).bypass = c.bypass := rfl
@[simp] theorem Ctl.modDesc_regRdata (c : Ctl) (k : Key) (f : Desc → Desc) : (c.modDesc k f).regRdata = c.regRdata := rfl
@[simp] theorem Ctl.modDesc_outbox (c : Ctl) (k : Key) (f : Desc → Desc) : (c.modDesc k f).outbox = c.outbox := rfl
@[simp] theorem Ctl.modDesc_freeCount (c : Ctl) (k : Key) (f : Desc → Desc) : (c.modDesc k f).freeCount = c.freeCount := rfl

@[simp] theorem Ctl.addJobs_part (c : Ctl) (js : List Job) : (c.addJobs js).part = c.part := rfl
@[simp] theorem Ctl.addJobs_regs (c : Ctl) (js : List Job) : (c.addJobs js).regs = c.regs := rfl
@[simp] theorem Ctl.addJobs_refTicks (c : Ctl) (js : List Job) : (c.addJobs js).refTicks = c.refTicks := rfl
@[simp] theorem Ctl.addJobs_subTick (c : Ctl) (js : List Job) : (c.addJobs js).subTick = c.subTick := rfl
@[simp] theorem Ctl.addJobs_inService (c : Ctl) (js : List Job) : (c.addJobs js).inService = c.inService := rfl
@[simp] theorem Ctl.addJobs_filling (c : Ctl) (js : List Job) : (c.addJobs js).filling = c.filling := rfl
@[simp] theorem Ctl.addJobs_fillWait (c : Ctl) (js : List Job) : (c.addJobs js).fillWait = c.fillWait := rfl
@[simp] theorem Ctl.addJobs_slices (c : Ctl) (js : List Job) : (c.addJobs js).slices = c.slices := rfl
@[simp] theorem Ctl.addJobs_classes (c : Ctl) (js : List Job) : (c.addJobs js).classes = c.classes := rfl
@[simp] theorem Ctl.addJobs_buckets (c : Ctl) (js : List Job) : (c.addJobs js).buckets = c.buckets := rfl
@[simp] theorem Ctl.addJobs_names (c : Ctl) (js : List Job) : (c.addJobs js).names = c.names := rfl
@[simp] theorem Ctl.addJobs_slots (c : Ctl) (js : List Job) : (c.addJobs js).slots = c.slots := rfl
@[simp] theorem Ctl.addJobs_migs (c : Ctl) (js : List Job) : (c.addJobs js).migs = c.migs := rfl
@[simp] theorem Ctl.addJobs_wanted (c : Ctl) (js : List Job) : (c.addJobs js).wanted = c.wanted := rfl
@[simp] theorem Ctl.addJobs_outcomes (c : Ctl) (js : List Job) : (c.addJobs js).outcomes = c.outcomes := rfl
@[simp] theorem Ctl.addJobs_rings (c : Ctl) (js : List Job) : (c.addJobs js).rings = c.rings := rfl
@[simp] theorem Ctl.addJobs_fetchPtr (c : Ctl) (js : List Job) : (c.addJobs js).fetchPtr = c.fetchPtr := rfl
@[simp] theorem Ctl.addJobs_descs (c : Ctl) (js : List Job) : (c.addJobs js).descs = c.descs := rfl
@[simp] theorem Ctl.addJobs_nextOrder (c : Ctl) (js : List Job) : (c.addJobs js).nextOrder = c.nextOrder := rfl
@[simp] theorem Ctl.addJobs_arbs (c : Ctl) (js : List Job) : (c.addJobs js).arbs = c.arbs := rfl
@[simp] theorem Ctl.addJobs_arbGen (c : Ctl) (js : List Job) : (c.addJobs js).arbGen = c.arbGen := rfl
@[simp] theorem Ctl.addJobs_net (c : Ctl) (js : List Job) : (c.addJobs js).net = c.net := rfl
@[simp] theorem Ctl.addJobs_mem (c : Ctl) (js : List Job) : (c.addJobs js).mem = c.mem := rfl
@[simp] theorem Ctl.addJobs_integ (c : Ctl) (js : List Job) : (c.addJobs js).integ = c.integ := rfl
@[simp] theorem Ctl.addJobs_sigs (c : Ctl) (js : List Job) : (c.addJobs js).sigs = c.sigs := rfl
@[simp] theorem Ctl.addJobs_power (c : Ctl) (js : List Job) : (c.addJobs js).power = c.power := rfl
@[simp] theorem Ctl.addJobs_group (c : Ctl) (js : List Job) : (c.addJobs js).group = c.group := rfl
@[simp] theorem Ctl.addJobs_mbDeadline (c : Ctl) (js : List Job) : (c.addJobs js).mbDeadline = c.mbDeadline := rfl
@[simp] theorem Ctl.addJobs_msq (c : Ctl) (js : List Job) : (c.addJobs js).msq = c.msq := rfl
@[simp] theorem Ctl.addJobs_deferredCommit (c : Ctl) (js : List Job) : (c.addJobs js).deferredCommit = c.deferredCommit := rfl
@[simp] theorem Ctl.addJobs_resetWait (c : Ctl) (js : List Job) : (c.addJobs js).resetWait = c.resetWait := rfl
@[simp] theorem Ctl.addJobs_func (c : Ctl) (js : List Job) : (c.addJobs js).func = c.func := rfl
@[simp] theorem Ctl.addJobs_resumes (c : Ctl) (js : List Job) : (c.addJobs js).resumes = c.resumes := rfl
@[simp] theorem Ctl.addJobs_inReset (c : Ctl) (js : List Job) : (c.addJobs js).inReset = c.inReset := rfl
@[simp] theorem Ctl.addJobs_off (c : Ctl) (js : List Job) : (c.addJobs js).off = c.off := rfl
@[simp] theorem Ctl.addJobs_stepGrants (c : Ctl) (js : List Job) : (c.addJobs js).stepGrants = c.stepGrants := rfl
@[simp] theorem Ctl.addJobs_wir (c : Ctl) (js : List Job) : (c.addJobs js).wir = c.wir := rfl
@[simp] theorem Ctl.addJobs_boundary (c : Ctl) (js : List Job) : (c.addJobs js).boundary = c.boundary := rfl
@[simp] theorem Ctl.addJobs_bypass (c : Ctl) (js : List Job) : (c.addJobs js).bypass = c.bypass := rfl
@[simp] theorem Ctl.addJobs_regRdata (c : Ctl) (js : List Job) : (c.addJobs js).regRdata = c.regRdata := rfl
@[simp] theorem Ctl.addJobs_outbox (c : Ctl) (js : List Job) : (c.addJobs js).outbox = c.outbox := rfl
@[simp] theorem Ctl.addJobs_freeCount (c : Ctl) (js : List Job) : (c.addJobs js).freeCount = c.freeCount := rfl

@[simp] theorem Ctl.modNet_net (c : Ctl) (f : Net → Net) : (c.modNet f).net = f c.net := rfl
@[simp] theorem Ctl.modMem_mem (c : Ctl) (f : Mem → Mem) : (c.modMem f).mem = f c.mem := rfl
@[simp] theorem Ctl.modPower_power (c : Ctl) (f : Power → Power) : (c.modPower f).power = f c.power := rfl
@[simp] theorem Ctl.modGroup_group (c : Ctl) (f : Group → Group) : (c.modGroup f).group = f c.group := rfl
@[simp] theorem Ctl.modMsq_msq (c : Ctl) (f : Msq → Msq) : (c.modMsq f).msq = f c.msq := rfl
@[simp] theorem Ctl.modInteg_integ (c : Ctl) (f : Integ → Integ) : (c.modInteg f).integ = f c.integ := rfl
@[simp] theorem Ctl.addJobs_jobs (c : Ctl) (js : List Job) : (c.addJobs js).jobs = c.jobs ++ js := rfl
@[simp] theorem Ctl.emit_outbox (c : Ctl) (o : Out) : (c.emit o).outbox = c.outbox ++ [o] := rfl

/-! ### Keyed parts -/

theorem Ctl.modSlice_slice (c : Ctl) (n j : Nat) (f : Slice → Slice) :
    (c.modSlice n f).slice j = if n = j then f (c.slice n) else c.slice j := Tab.get_set _ _ _ _ _

theorem Ctl.modRing_ring (c : Ctl) (k j : Nat) (f : Ring → Ring) :
    (c.modRing k f).ring j = if k = j then f (c.ring k) else c.ring j := Tab.get_set _ _ _ _ _

theorem Ctl.modName_name (c : Ctl) (n j : Nat) (f : NameRec → NameRec) :
    (c.modName n f).name j = if n = j then f (c.name n) else c.name j := Tab.get_set _ _ _ _ _

theorem Ctl.modSlot_slot (c : Ctl) (k j : Nat) (f : Slot → Slot) :
    (c.modSlot k f).slot j = if k = j then f (c.slot k) else c.slot j := Tab.get_set _ _ _ _ _

theorem Ctl.modLink_link (c : Ctl) (l j : Nat) (f : Link → Link) :
    (c.modLink l f).link j = if l = j then f (c.link l) else c.link j := Tab.get_set _ _ _ _ _

theorem Ctl.modPort_port (c : Ctl) (n j : Nat) (f : Port → Port) :
    (c.modPort n f).port j = if n = j then f (c.port n) else c.port j := by
  unfold Ctl.modPort Ctl.port
  rw [Ctl.modSlice_slice]
  split <;> rfl

/-! ### Stored registers -/

/-- A register reads what was stored last, and every other register what it read before. -/
theorem Ctl.reg_setReg (c : Ctl) (off o : Nat) (v : Word) :
    (c.setReg off v).reg o = if off = o then v else c.reg o := Tab.get_set _ _ _ _ _

@[simp] theorem Ctl.reg_setReg_self (c : Ctl) (off : Nat) (v : Word) : (c.setReg off v).reg off = v :=
  Tab.get_set_self _ _ _ _

theorem Ctl.reg_setReg_ne (c : Ctl) {off o : Nat} (v : Word) (h : off ≠ o) : (c.setReg off v).reg o = c.reg o :=
  Tab.get_set_ne _ _ _ h

/-- A stored register depends on the part and on the table of registers only. -/
theorem Ctl.reg_congr {c c' : Ctl} (hp : c'.part = c.part) (hr : c'.regs = c.regs) (o : Nat) : c'.reg o = c.reg o := by
  unfold Ctl.reg
  rw [hp, hr]

@[simp] theorem Ctl.emit_reg (c : Ctl) (o : Out) (o_ : Nat) : (c.emit o).reg o_ = c.reg o_ := rfl
@[simp] theorem Ctl.modSlice_reg (c : Ctl) (n : Nat) (f : Slice → Slice) (o_ : Nat) : (c.modSlice n f).reg o_ = c.reg o_ := rfl
@[simp] theorem Ctl.modPort_reg (c : Ctl) (n : Nat) (f : Port → Port) (o_ : Nat) : (c.modPort n f).reg o_ = c.reg o_ := rfl
@[simp] theorem Ctl.modRing_reg (c : Ctl) (k : Nat) (f : Ring → Ring) (o_ : Nat) : (c.modRing k f).reg o_ = c.reg o_ := rfl
@[simp] theorem Ctl.modName_reg (c : Ctl) (n : Nat) (f : NameRec → NameRec) (o_ : Nat) : (c.modName n f).reg o_ = c.reg o_ := rfl
@[simp] theorem Ctl.modSlot_reg (c : Ctl) (k : Nat) (f : Slot → Slot) (o_ : Nat) : (c.modSlot k f).reg o_ = c.reg o_ := rfl
@[simp] theorem Ctl.modLink_reg (c : Ctl) (l : Nat) (f : Link → Link) (o_ : Nat) : (c.modLink l f).reg o_ = c.reg o_ := rfl
@[simp] theorem Ctl.modNet_reg (c : Ctl) (f : Net → Net) (o_ : Nat) : (c.modNet f).reg o_ = c.reg o_ := rfl
@[simp] theorem Ctl.modMem_reg (c : Ctl) (f : Mem → Mem) (o_ : Nat) : (c.modMem f).reg o_ = c.reg o_ := rfl
@[simp] theorem Ctl.modPower_reg (c : Ctl) (f : Power → Power) (o_ : Nat) : (c.modPower f).reg o_ = c.reg o_ := rfl
@[simp] theorem Ctl.modGroup_reg (c : Ctl) (f : Group → Group) (o_ : Nat) : (c.modGroup f).reg o_ = c.reg o_ := rfl
@[simp] theorem Ctl.modMsq_reg (c : Ctl) (f : Msq → Msq) (o_ : Nat) : (c.modMsq f).reg o_ = c.reg o_ := rfl
@[simp] theorem Ctl.modInteg_reg (c : Ctl) (f : Integ → Integ) (o_ : Nat) : (c.modInteg f).reg o_ = c.reg o_ := rfl
@[simp] theorem Ctl.modDesc_reg (c : Ctl) (k : Key) (f : Desc → Desc) (o_ : Nat) : (c.modDesc k f).reg o_ = c.reg o_ := rfl
@[simp] theorem Ctl.addJobs_reg (c : Ctl) (js : List Job) (o_ : Nat) : (c.addJobs js).reg o_ = c.reg o_ := rfl

theorem Ctl.setRf_eq (c : Ctl) (off lo n v : Nat) : c.setRf off lo n v = c.setReg off (setFld (c.reg off) lo n v) := rfl
theorem Ctl.raise_eq (c : Ctl) (off i : Nat) : c.raise off i = c.setReg off (c.reg off ||| (1#32 <<< i)) := rfl
theorem Ctl.lower_eq (c : Ctl) (off i : Nat) : c.lower off i = c.setReg off (c.reg off &&& ~~~(1#32 <<< i)) := rfl
theorem Ctl.count_eq (c : Ctl) (off k : Nat) :
    c.count off k = c.setReg off (setFld (c.reg off) 0 32 (satAdd 32 (c.rf off 0 32) k)) := rfl

/-- What writing a list of registers with zero leaves: only the registers may differ. -/
theorem Ctl.zeroRegs_frame (offs : List Nat) : ∀ c : Ctl, c.zeroRegs offs = { c with regs := (c.zeroRegs offs).regs } := by
  induction offs with
  | nil => intro c; rfl
  | cons o os ih =>
    intro c
    have h := ih (c.setReg o 0)
    simpa [Ctl.zeroRegs, Ctl.setReg] using h

/-- The listed registers read 0, every other one what it read before. -/
theorem Ctl.zeroRegs_reg (offs : List Nat) : ∀ (c : Ctl) (o : Nat),
    (c.zeroRegs offs).reg o = if o ∈ offs then 0 else c.reg o := by
  induction offs with
  | nil => intro c o; simp [Ctl.zeroRegs]
  | cons a os ih =>
    intro c o
    have h := ih (c.setReg a 0) o
    rw [Ctl.reg_setReg] at h
    change ((c.setReg a 0).zeroRegs os).reg o = _
    rw [h]
    by_cases h1 : o ∈ os
    · simp [h1]
    · by_cases h2 : a = o
      · simp [h1, h2]
      · simp [h1, h2, Ne.symm h2]

/-! ### The guards of commands -/

/-- A command that the block takes, and that changes only the control state. -/
theorem ctlStep_takes {i : Instr} {s : State} (f : Ctl → Ctl) (h : s.takes i = true) :
    ctlStep i s f = .next { s with ctl := f s.ctl } := by simp [ctlStep, h]

/-- Whatever the command, its guard answers a next state with the queue and the bank storage kept. -/
theorem ctlStep_next (i : Instr) (s : State) (f : Ctl → Ctl) :
    ∃ c, ctlStep i s f = .next { s with ctl := c } := by
  unfold ctlStep
  split
  · exact ⟨_, rfl⟩
  · exact ⟨s.ctl, rfl⟩

theorem fullStep_takes {i : Instr} {s : State} (f : Ctl → Cells → Ctl × Cells) (h : s.takes i = true) :
    fullStep i s f = .next { s with ctl := (f s.ctl s.cells).1, cells := (f s.ctl s.cells).2 } := by simp [fullStep, h]

theorem fullStep_next (i : Instr) (s : State) (f : Ctl → Cells → Ctl × Cells) :
    ∃ c d, fullStep i s f = .next { s with ctl := c, cells := d } := by
  unfold fullStep
  split
  · exact ⟨_, _, rfl⟩
  · exact ⟨s.ctl, s.cells, rfl⟩

theorem resetStep_next (i : Instr) (s : State) (f : Ctl → Ctl) :
    ∃ c, resetStep i s f = .next { s with ctl := c } := by
  unfold resetStep
  split
  · exact ⟨_, rfl⟩
  · exact ⟨s.ctl, rfl⟩

end Sys2Proof.Machine
end

