-- ==== Sys2Proof/Laws/Access.lean ====
section
/-!
SUPPORT. Everything a register access can do (R360, R403), one lemma per outcome.
-/
namespace Sys2Proof.Machine

/-- A denied access that Night does not gate is recorded, and nothing else changes but REG_RDATA. -/
theorem Ctl.access_denied {c : Ctl} {id : Byte} {off : Nat} {allowed : Bool} (f : Ctl → Ctl)
    (h : id = 0xFF ∨ allowed = false) (g : c.gated off = false) :
    c.access id off allowed f = { c with regRdata := 0 }.deny id off := by
  rcases h with rfl | rfl <;> simp [Ctl.access, g]

/-- A denied access that Night gates sets NIGHT_ACCESS as well. -/
theorem Ctl.access_denied_gated {c : Ctl} {id : Byte} {off : Nat} {allowed : Bool} (f : Ctl → Ctl)
    (h : id = 0xFF ∨ allowed = false) (g : c.gated off = true) :
    c.access id off allowed f = { c.raise rPSTATE_STATUS 18 with regRdata := 0 }.deny id off := by
  rcases h with rfl | rfl <;> simp [Ctl.access, g]

/-- An allowed access that Night gates sets NIGHT_ACCESS and takes no effect. -/
theorem Ctl.access_gated {c : Ctl} {id : Byte} {off : Nat} (f : Ctl → Ctl) (h : id ≠ 0xFF) (g : c.gated off = true) :
    c.access id off true f = { c.raise rPSTATE_STATUS 18 with regRdata := 0 } := by
  unfold Ctl.access
  rw [if_neg (by simpa using h), g]; rfl

/-- An allowed access that Night does not gate takes effect. -/
theorem Ctl.access_ok {c : Ctl} {id : Byte} {off : Nat} (f : Ctl → Ctl) (h : id ≠ 0xFF) (g : c.gated off = false) :
    c.access id off true f = f c := by
  unfold Ctl.access
  rw [if_neg (by simpa using h), g]; rfl

/-- What a denial does not touch. -/
theorem Ctl.deny_reg_ne (c : Ctl) (id : Byte) {off o : Nat} (h : rMB_DENY ≠ o) : (c.deny id off).reg o = c.reg o := by
  simp only [Ctl.deny]
  unfold Ctl.setReg Ctl.reg
  exact Tab.get_set_ne _ _ _ h

end Sys2Proof.Machine
end

