-- ==== Sys2Proof/Laws/Cells.lean ====
section
/-!
SUPPORT. The bank storage: a read after a write, and that every operation on it keeps the canonical form (log entry 5).
-/
namespace Sys2Proof.Machine

/-! ### The canonical form -/

theorem Cells.wfFrom_mono {l l' : Nat} (h : l' ≤ l) : ∀ c : Cells, Cells.wfFrom l c = true → Cells.wfFrom l' c = true
  | [], _ => rfl
  | (a, v) :: t, hc => by
    simp only [Cells.wfFrom, Bool.and_eq_true, decide_eq_true_eq] at hc ⊢
    exact ⟨⟨by omega, hc.1.2⟩, hc.2⟩

/-- A write at or above a bound keeps the form above it. -/
theorem Cells.write_wfFrom {a : Nat} {v : Codeword} :
    ∀ (l : Nat) (c : Cells), l ≤ a → Cells.wfFrom l c = true → Cells.wfFrom l (c.write a v) = true
  | l, [], hl, _ => by
    unfold Cells.write
    split <;> simp_all [Cells.wfFrom]
  | l, (b, w) :: t, hl, hc => by
    simp only [Cells.wfFrom, Bool.and_eq_true, decide_eq_true_eq] at hc
    obtain ⟨⟨h1, h2⟩, h3⟩ := hc
    unfold Cells.write
    by_cases hab : a < b
    · have hb : Cells.wfFrom (a + 1) ((b, w) :: t) = true := by
        simp only [Cells.wfFrom, Bool.and_eq_true, decide_eq_true_eq]
        exact ⟨⟨hab, h2⟩, h3⟩
      by_cases hv : v = 0
      · simp only [hab, hv, if_true]
        exact Cells.wfFrom_mono (by omega) _ hb
      · simp only [hab, hv, if_true, if_false]
        simp only [Cells.wfFrom, Bool.and_eq_true, decide_eq_true_eq] at hb ⊢
        exact ⟨⟨hl, hv⟩, hb⟩
    · by_cases he : a = b
      · subst he
        by_cases hv : v = 0
        · simp only [Nat.lt_irrefl, hv, if_false, if_true]
          exact Cells.wfFrom_mono (by omega) _ h3
        · simp only [Nat.lt_irrefl, hv, if_false, if_true]
          simp only [Cells.wfFrom, Bool.and_eq_true, decide_eq_true_eq]
          exact ⟨⟨hl, hv⟩, h3⟩
      · simp only [hab, he, if_false]
        simp only [Cells.wfFrom, Bool.and_eq_true, decide_eq_true_eq]
        exact ⟨⟨h1, h2⟩, Cells.write_wfFrom (b + 1) t (by omega) h3⟩

/-- One codeword stored. -/
theorem Cells.write_wf {c : Cells} (h : c.wf = true) (a : Nat) (v : Codeword) : (c.write a v).wf = true :=
  Cells.write_wfFrom 0 c (Nat.zero_le a) h

/-- Codewords stored from a word of a bank row on. -/
theorem Cells.writeFrom_wf (n b r : Nat) :
    ∀ (vs : List Codeword) (w : Nat) (c : Cells), c.wf = true → (c.writeFrom n b r w vs).wf = true
  | [], _, _, h => h
  | v :: vs, w, _, h => Cells.writeFrom_wf n b r vs (w + 1) _ (Cells.write_wf h _ v)

/-- A bank row stored. -/
theorem Cells.writeRow_wf {c : Cells} (h : c.wf = true) (n b r : Nat) (vs : List Codeword) : (c.writeRow n b r vs).wf = true :=
  Cells.writeFrom_wf n b r vs 0 c h

theorem Cells.filter_wfFrom (p : Nat × Codeword → Bool) :
    ∀ (l : Nat) (c : Cells), Cells.wfFrom l c = true → Cells.wfFrom l (c.filter p) = true
  | _, [], _ => rfl
  | l, (a, v) :: t, h => by
    simp only [Cells.wfFrom, Bool.and_eq_true, decide_eq_true_eq] at h
    have ht := Cells.filter_wfFrom p (a + 1) t h.2
    by_cases hp : p (a, v) = true
    · rw [List.filter_cons_of_pos hp]
      simp only [Cells.wfFrom, Bool.and_eq_true, decide_eq_true_eq]
      exact ⟨h.1, ht⟩
    · rw [List.filter_cons_of_neg hp]
      exact Cells.wfFrom_mono (by omega) _ ht

/-- A bank zeroed. -/
theorem Cells.zeroBank_wf {c : Cells} (h : c.wf = true) (n b : Nat) : (c.zeroBank n b).wf = true :=
  Cells.filter_wfFrom _ 0 c h

/-! ### Reads -/

theorem Cells.read_of_wfFrom {a : Nat} : ∀ (l : Nat) (c : Cells), a < l → Cells.wfFrom l c = true → c.read a = 0
  | _, [], _, _ => rfl
  | l, (b, w) :: t, hl, h => by
    simp only [Cells.wfFrom, Bool.and_eq_true, decide_eq_true_eq] at h
    have hne : b ≠ a := by omega
    have ht := Cells.read_of_wfFrom (a := a) (b + 1) t (by omega) h.2
    simpa [Cells.read, Tab.get, hne] using ht

/-- What a read answers after a write: the codeword written at its address, elsewhere what was there. -/
theorem Cells.read_write {a : Nat} {v : Codeword} (x : Nat) :
    ∀ (l : Nat) (c : Cells), Cells.wfFrom l c = true → (c.write a v).read x = if x = a then v else c.read x
  | _, [], _ => by
    unfold Cells.write
    by_cases hv : v = 0
    · rw [if_pos hv]
      by_cases hx : x = a <;> simp [hv, hx, Cells.read, Tab.get]
    · rw [if_neg hv]
      by_cases hx : x = a
      · simp [hx, Cells.read, Tab.get]
      · simp [hx, Cells.read, Tab.get, Ne.symm hx]
  | l, (b, w) :: t, h => by
    simp only [Cells.wfFrom, Bool.and_eq_true, decide_eq_true_eq] at h
    unfold Cells.write
    by_cases hab : a < b
    · have hz : Cells.read ((b, w) :: t) a = 0 := by
        have : Cells.wfFrom b ((b, w) :: t) = true := by
          simp only [Cells.wfFrom, Bool.and_eq_true, decide_eq_true_eq]
          exact ⟨⟨Nat.le_refl b, h.1.2⟩, h.2⟩
        exact Cells.read_of_wfFrom b _ hab this
      by_cases hv : v = 0
      · simp only [hab, hv, if_true]
        by_cases hx : x = a
        · rw [hx, hz]; simp
        · simp [hx]
      · simp only [hab, hv, if_true, if_false]
        by_cases hx : x = a
        · simp [hx, Cells.read, Tab.get]
        · simp [hx, Cells.read, Tab.get, Ne.symm hx]
    · by_cases he : a = b
      · subst he
        have hz := Cells.read_of_wfFrom (a := a) (a + 1) t (by omega) h.2
        by_cases hv : v = 0
        · simp only [Nat.lt_irrefl, hv, if_false, if_true]
          by_cases hx : x = a
          · rw [hx, hz]; simp
          · simp [hx, Cells.read, Tab.get, Ne.symm hx]
        · simp only [Nat.lt_irrefl, hv, if_false, if_true]
          by_cases hx : x = a
          · simp [hx, Cells.read, Tab.get]
          · simp [hx, Cells.read, Tab.get, Ne.symm hx]
      · simp only [hab, he, if_false]
        have ih := Cells.read_write (a := a) (v := v) x (b + 1) t h.2
        by_cases hb : b = x
        · subst hb
          have : b ≠ a := Ne.symm he
          simp [Cells.read, Tab.get, this]
        · simpa [Cells.read, Tab.get, hb] using ih

/-- A read outside a zeroed bank answers as before; one inside answers zero. -/
theorem Cells.read_zeroBank (n b x : Nat) : ∀ c : Cells,
    (c.zeroBank n b).read x = if cellAddr n b 0 0 ≤ x ∧ x < cellAddr n (b + 1) 0 0 then 0 else c.read x
  | [] => by simp [Cells.zeroBank, Cells.read, Tab.get]
  | (a, v) :: t => by
    have ih := Cells.read_zeroBank n b x t
    unfold Cells.zeroBank Cells.read at ih ⊢
    by_cases hp : a < cellAddr n b 0 0 ∨ cellAddr n (b + 1) 0 0 ≤ a
    · rw [List.filter_cons_of_pos (by simpa using hp)]
      by_cases hx : a = x
      · subst hx
        have : ¬ (cellAddr n b 0 0 ≤ a ∧ a < cellAddr n (b + 1) 0 0) := by omega
        simp [Tab.get, this]
      · simpa [Tab.get, hx] using ih
    · rw [List.filter_cons_of_neg (by simpa using hp)]
      by_cases hx : a = x
      · subst hx
        have h2 : cellAddr n b 0 0 ≤ a ∧ a < cellAddr n (b + 1) 0 0 := by omega
        simp only [h2, and_self, if_true] at ih ⊢
        exact ih
      · simpa [Tab.get, hx] using ih

end Sys2Proof.Machine
end

