-- ==== Sys2Proof/Laws/Desc.lean ====
section
/-!
SUPPORT. Descriptors by key: what an update of one descriptor leaves and gives.
-/
namespace Sys2Proof.Machine

/-- Updating a descriptor touches nothing but the list of descriptors. -/
theorem Ctl.modDesc_frame (c : Ctl) (k : Key) (f : Desc → Desc) :
    c.modDesc k f = { c with descs := (c.modDesc k f).descs } := rfl

/-- The updated descriptor, where the update keeps its key. -/
theorem Ctl.desc?_modDesc_self (c : Ctl) (k : Key) (f : Desc → Desc) (hf : ∀ d, (f d).key = d.key) :
    (c.modDesc k f).desc? k = (c.desc? k).map f := by
  simp only [Ctl.modDesc, Ctl.desc?]
  induction c.descs with
  | nil => rfl
  | cons d ds ih =>
    by_cases h : d.key = k
    · simp [h, hf]
    · simp [h, ih]

/-- Every other descriptor is as it was, where the update keeps the key. -/
theorem Ctl.desc?_modDesc_ne (c : Ctl) {k j : Key} (f : Desc → Desc) (hf : ∀ d, (f d).key = d.key) (h : k ≠ j) :
    (c.modDesc k f).desc? j = c.desc? j := by
  simp only [Ctl.modDesc, Ctl.desc?]
  induction c.descs with
  | nil => rfl
  | cons d ds ih =>
    by_cases hk : d.key = k
    · have : d.key ≠ j := fun e => h (hk.symm.trans e)
      simp [hk, hf, h, ih]
    · by_cases hj : d.key = j
      · simp [hj, Ne.symm h]
      · simp [hk, hj, ih]

end Sys2Proof.Machine
end

