-- ==== Sys2Proof/Tests/Slice0.lean ====
section
/-!
SUPPORT. The model's own tests: ill-formed commands that the check refuses; values taken from the spec's worked examples
and tables; and for each statement with hypotheses a state and operands that meet them (`wit_<statement>`), clause by
clause and at a boundary of a range where there is one.
-/
namespace Sys2Proof.Tests
open Sys2Proof Sys2Proof.Machine
-- One theorem after the other: many at once need more threads than a limit on memory allows.
set_option Elab.async false

/-! ### Small states -/

/-- The reset state with another control state. -/
def on (f : Ctl → Ctl) : State := { State.reset with ctl := f State.reset.ctl }
/-- Registers written one after the other. -/
def put (rs : List (Nat × Word)) (c : Ctl) : Ctl := rs.foldl (fun c p => c.setReg p.1 p.2) c
/-- The reset state with registers written. -/
def withRegs (rs : List (Nat × Word)) : State := on (put rs)
/-- The key of descriptor 0 of ring 0. -/
def k0 : Key := { ring := 0, idx := 0, sub := 0 }
/-- Descriptor 0 of ring 0 at a stage. -/
def at0 (st : Stage) (ws : List Word) : Desc := { Desc.fetched k0 0 ws with stage := st }
/-- Registers written and one descriptor there. -/
def withDesc (rs : List (Nat × Word)) (d : Desc) (f : Ctl → Ctl := id) : State :=
  on fun c => f { put rs c with descs := [d] }
/-- A table of `rows` rows over span 1 on slice 0, at home 0. -/
def tab1 (rows : Nat) : FragTable :=
  { list := [0], fold := 1, home := 0, span := 1, rows := rows, frags := (List.range rows).map fun i => (0, i) }
/-- A LIVE name of one row at span 1 in U32 form, placed on slice 0. -/
def live1 : NameRec := { NameRec.reset with live := true, table := tab1 1, flags := [0], inc := 1 }

/-! ### Ill-formed commands (Table 0.2 and the index bounds) -/

theorem test_wf_slice : Instr.wf .bx16 (.tick 16 0) = false ∧ Instr.wf .bx32 (.tick 32 0) = false ∧
    Instr.wf .bx64 (.tick 64 0) = false ∧ Instr.wf .bx64 (.tick 63 0) = true := by decide
theorem test_wf_ring : Instr.wf .bx64 (.poll 64) = false ∧ Instr.wf .bx64 (.poll 63) = true := by decide
theorem test_wf_link : Instr.wf .bx64 (.ready 3) = false ∧ Instr.wf .bx64 (.ready 2) = true := by decide
theorem test_wf_indexes : Instr.wf .bx64 (.modqTableWrite 64 0 0) = false ∧ Instr.wf .bx64 (.tokenValueWrite 256 0 0) = false ∧
    Instr.wf .bx64 (.ringResume 0 65536 0) = false ∧ Instr.wf .bx64 (.clearingDone 0 2048 0) = false ∧
    Instr.wf .bx64 (.clearingDone 0 0 4) = false ∧ Instr.wf .bx64 (.migrationCommit 16384) = false ∧
    Instr.wf .bx64 (.quoinAliasWrite 16 false 0 0) = false ∧ Instr.wf .bx64 (.childLost 16) = false ∧
    Instr.wf .bx64 (.mbTimeout 16) = false ∧ Instr.wf .bx64 (.pkeOutcome 8) = false := by decide
theorem test_wf_offset : Instr.wf .bx64 (.registerWrite 0x100000 0 0) = false ∧
    Instr.wf .bx64 (.registerWrite 2 0 0) = false := by decide
theorem test_wf_banks : Instr.wf .bx64 (.deadBank 0 34) = false ∧ Instr.wf .bx64 (.deadBank 0 33) = true ∧
    Instr.wf .bx64 (.wakeComplete [⟨0, 0, 2080, [], [], []⟩]) = false ∧
    Instr.wf .bx64 (.scrubVisit 0 (List.replicate 17 0) [] [] false) = false := by decide
theorem test_wf_arbiters : Instr.wf .bx64 (.round (.bank 0 34) [] [] []) = false ∧
    Instr.wf .bx16 (.round (.channel 2) [] [] []) = false ∧ Instr.wf .bx16 (.round (.inject 2048) [] [] []) = false ∧
    Instr.wf .bx16 (.round (.merge 16) [] [] []) = false := by decide
theorem test_wf_bursts : Instr.wf .bx16 (.burstTimeout 2 0) = false ∧ Instr.wf .bx64 (.burstTimeout 0 512) = false ∧
    Instr.wf .bx64 (.walkTimeout 32) = false ∧ Instr.wf .bx64 (.burstResponse 0 0 0 []) = false ∧
    Instr.wf .bx64 (.burstResponse 0 0 4 (List.replicate 64 0)) = false := by decide
theorem test_wf_lengths : Instr.wf .bx64 (.trustDelivery []) = false ∧ Instr.wf .bx64 (.resultBeat 0 0 []) = false ∧
    Instr.wf .bx64 (.quoinData 0 0 []) = false ∧ Instr.wf .bx64 (.testStepTicks 0 65536) = false ∧
    Instr.wf .bx64 (.wxStep 1 []) = false := by decide

/-! ### Values of the spec -/

/-- The spec's first tile example: 640 rows at span 64 make the shape word 0x627F and claim 40,960 fragments; the modulus word
0x00032700 gives eight rows to a limb. -/
theorem test_shape_example : shRows 0x627F = 640 ∧ shSpan 0x627F = 64 ∧ shFmt 0x627F = 0 ∧ shapeClaim 0x627F = 40960 ∧
    modEntry 0x00032700 7 = 0 ∧ modEntry 0x00032700 8 = 1 ∧ modEntry 0x00032700 639 = 39 := by decide
/-- The SECDED example: data 3 has check bits 0x06; with d[1] flipped the decoder restores 3 (R81). -/
theorem test_secded_example : encodeCw 3 = BitVec.ofNat 39 (6 * 2 ^ 32 + 3) ∧
    decodeCw (BitVec.ofNat 39 (6 * 2 ^ 32 + 1)) = .corrected 3 := by decide
/-- The fence example: 63 slices in service have present span 32, a span-64 tile has fold 2; C is 8192 fragments a slice. -/
theorem test_fence_example :
    (on fun c => { c with inService := (List.range 64).filter (· ≠ 17) }).ctl.presentSpan = 32 ∧
    (on fun c => { c with inService := (List.range 64).filter (· ≠ 17) }).ctl.foldFor 64 = 2 ∧
    (on fun c => { c with inService := List.range 64, filling := [], fillWait := [] }).ctl.capacity = 524288 := by decide +kernel
/-- MXFP4: a tile row of one block is 119 words of data, 476 bytes (Table 2.6, the projection example). -/
theorem test_mxfp4_example : shFmt 0x000703FF = 7 ∧ fmtBlock 7 = 476 ∧ fmtWords 7 = 119 ∧ fmtWidth 7 = 68 := by decide
/-- What reset leaves in registers a command reads (Tables 0.2, 1.2, 11.9, 13.7). -/
theorem test_reset_values : State.reset.ctl.rf rSLICE_CAP 0 7 = 64 ∧ State.reset.ctl.converged = true ∧
    State.reset.ctl.pstate = 0 ∧ State.reset.ctl.power.gate = 1 ∧ State.reset.ctl.power.quiet = true ∧
    State.reset.ctl.ringState 0 = 0 := by decide +kernel
/-- No row of the table has bits, so no word spells a command. -/
theorem test_no_words : decodeTableWord 32 0 = none ∧ (State.reset.withFetchWord 32 0) = State.reset := by decide +kernel

/-! ### Witnesses -/

theorem wit_StepRunsFrontCommand : State.reset.pending = [] := rfl

theorem wit_StepKeepsStorageCanonical :
    State.reset.wf = true ∧ ∃ t, step (State.reset.withCommand (.zeroFillDone 0)) = .next t := ⟨by decide, _, rfl⟩

theorem wit_CommandsCompleteAndFrame : (∃ t, exec .subTick State.reset = .next t) ∧ Instr.storage .subTick = false :=
  ⟨⟨_, rfl⟩, rfl⟩

theorem wit_OffUntilPowerOn : State.reset.ctl.off = false ∧ (on fun c => { c with off := true }).ctl.off = true ∧
    ∀ b, Instr.subTick ≠ .powerOnReset b := ⟨rfl, rfl, fun _ => by simp⟩

theorem wit_DeniedAndGatedWrites :
    (Instr.write? (.contractSelWrite 0xFF 5) = some (0xFF, rCONTRACT_SEL, 5) ∧
      State.reset.takes (.contractSelWrite 0xFF 5) = true) ∧
    (Instr.write? (.mbLock 5) = some (5, rMB_LOCK, 1) ∧ State.reset.takes (.mbLock 5) = true ∧
      State.reset.ctl.mayAccess 5 rMB_LOCK true 1 = false) ∧
    (Instr.write? (.tokenValueWrite 255 0 7) = some (0, rTOKEN_VALUE 255, 7) ∧
      (withRegs [(rPSTATE_STATUS, 4)]).takes (.tokenValueWrite 255 0 7) = true ∧
      (withRegs [(rPSTATE_STATUS, 4)]).ctl.mayAccess 0 (rTOKEN_VALUE 255) true 7 = true ∧
      (withRegs [(rPSTATE_STATUS, 4)]).ctl.pstate = 4 ∧ nightAnswers (rTOKEN_VALUE 255) = false) := by decide +kernel

theorem wit_CounterClears :
    (Instr.clears State.reset.ctl.part (.portCntClear 63 0) =
        some (0, rPORT_CTL 63, [rOP_BEATS 63, rW_BEATS 63, rPORT_GONE 63, rPORT_ERR 63]) ∧
      State.reset.reaches (.portCntClear 63 0) 0 (rPORT_CTL 63) = true) ∧
    State.reset.reaches (.intSliceClear 63 0) 0 (rINT_SLICE_CLEAR 63) = true ∧
    State.reset.reaches (.arbCntClear 63 0) 0 (rARB_CNT_CLEAR 63) = true ∧
    ((withRegs [(rARB_BSEL, 0x100)]).reaches (.arbBcntClear 0) 0 rARB_BCNT_CLEAR = true ∧
      (withRegs [(rARB_BSEL, 0x100)]).ctl.rf rARB_BSEL 8 2 = 1) ∧
    State.reset.reaches (.actCntClear 0) 0 rACT_CNT_CLEAR = true := by decide +kernel

theorem wit_CounterReadCaptures : State.reset.reaches (.cntGrantLoRead false 63 0) 0 (rCNT_GRANT_LO 63) = true ∧
    State.reset.reaches (.cntGrantLoRead true 0 0) 0 rBCNT_GRANT_LO = true := by decide +kernel

theorem wit_TickLowReadLatchesHigh : State.reset.reaches (.tickLoRead 63 0) 0 (rTICK_LO 63) = true ∧
    State.reset.reaches (.refTickLoRead 0) 0 rREF_TICK_LO = true := by decide +kernel

theorem wit_ContractSelection :
    ((withRegs [(rCONTRACT_SEL, 0x10000)]).reaches (.contractSelWrite 0 0) 0 rCONTRACT_SEL = true ∧
      bit ((withRegs [(rCONTRACT_SEL, 0x10000)]).ctl.reg rCONTRACT_SEL) 16 = true) ∧
    (State.reset.reaches (.contractSelWrite 0 0x100) 0 rCONTRACT_SEL = true ∧
      bit (State.reset.ctl.reg rCONTRACT_SEL) 16 = false ∧ State.reset.ctl.supports 1 0 = true) ∧
    State.reset.ctl.supports 0xFF 0xFF = false := by decide +kernel

theorem wit_ModulusTableWrite : State.reset.reaches (.modqTableWrite 63 0 3) 0 (rMODQ_TABLE 63) = true ∧
    ((3 : Word).toNat % 2 = 1 ∧ 3 ≤ (3 : Word).toNat ∧ (3 : Word).toNat < 2 ^ 31) ∧
    ((2 : Word) ≠ 0 ∧ (2 : Word).toNat % 2 = 0) ∧ 2 ^ 31 ≤ (0x80000001 : Word).toNat := by decide +kernel

theorem wit_ReserveWrite : State.reset.reaches (.reserveMibWrite 0 8) 0 rKS_RESERVE = true ∧ fld (8 : Word) 0 6 = 8 ∧
    fld (32 : Word) 0 6 = 32 ∧ fld (7 : Word) 0 6 < 8 ∧ 32 < fld (33 : Word) 0 6 := by decide +kernel

theorem wit_RegisterWriteByCode : ∃ r, State.reset.ctl.listed rINT_MASK = some r ∧
    State.reset.reaches (.registerWrite rINT_MASK 0 5) 0 rINT_MASK = true ∧
    State.reset.ctl.mayAccess 0 rINT_MASK true 5 = true ∧ rINT_MASK ≠ rTEST_CTL ∧ rINT_MASK ≠ rTEST_STEP ∧
    State.reset.ctl.writeBlock rINT_MASK 5 = none ∧ State.reset.ctl.writeWindow rINT_MASK 5 = none ∧
    r.rw &&& r.w1c = 0 ∧ r.rwl &&& r.w1c = 0 ∧ r.rw &&& r.w1s = 0 ∧ r.rwl &&& r.w1s = 0 ∧ r.w1c &&& r.w1s = 0 := by
  refine ⟨(State.reset.ctl.listed rINT_MASK).get (by decide +kernel), ?_⟩
  decide +kernel

/-- Channel 15 bound from identity 1 to identity 2, with MB_STATUS. -/
def bound (st : Word) : State := withRegs [(rMB_BIND 15, 0x80000201), (rMB_STATUS 15, st)]

theorem wit_MailboxSend :
    ((bound 0).serves (.mbDataWrite 15 1 9) 1 (rMB_DATA 15) = true ∧ (bound 0).ctl.mbSender 15 = some (1 : Byte).toNat ∧
      bit ((bound 0).ctl.reg (rMB_STATUS 15)) 0 = false ∧ (bound 0).ctl.mbDeaf 15 = false) ∧
    ((bound 1).serves (.mbDataWrite 15 1 9) 1 (rMB_DATA 15) = true ∧ (bound 1).ctl.mbSender 15 = some (1 : Byte).toNat ∧
      bit ((bound 1).ctl.reg (rMB_STATUS 15)) 0 = true) ∧
    ((withRegs [(rMB_BIND 0, 0x8000FF01)]).serves (.mbDataWrite 0 1 9) 1 (rMB_DATA 0) = true ∧
      (withRegs [(rMB_BIND 0, 0x8000FF01)]).ctl.mbSender 0 = some (1 : Byte).toNat ∧
      (withRegs [(rMB_BIND 0, 0x8000FF01)]).ctl.mbDeaf 0 = true) := by decide +kernel

theorem wit_MailboxAcknowledge :
    ((bound 1).serves (.mbAckWrite 15 2 9) 2 (rMB_ACK 15) = true ∧ (bound 1).ctl.mbReceiver 15 = some (2 : Byte).toNat ∧
      bit ((bound 1).ctl.reg (rMB_STATUS 15)) 0 = true) ∧
    ((bound 0).serves (.mbAckWrite 15 2 9) 2 (rMB_ACK 15) = true ∧ (bound 0).ctl.mbReceiver 15 = some (2 : Byte).toNat ∧
      bit ((bound 0).ctl.reg (rMB_STATUS 15)) 0 = false) := by decide +kernel

theorem wit_MailboxBindingAndTimeout :
    ((withRegs [(rTRUST_STATUS, 0x80010000)]).reaches (.mbBindWrite 15 1 0) 1 (rMB_BIND 15) = true ∧
      (withRegs [(rTRUST_STATUS, 0x80010000)]).ctl.privMaster = some (1 : Byte).toNat ∧
      bit ((withRegs [(rTRUST_STATUS, 0x80010000)]).ctl.reg rMB_LOCK) 0 = false ∧
      (withRegs [(rTRUST_STATUS, 0x80010000)]).reaches (.mbLock 1) 1 rMB_LOCK = true) ∧
    ((withRegs [(rTRUST_STATUS, 0x80010000), (rMB_LOCK, 1)]).reaches (.mbBindWrite 15 1 0) 1 (rMB_BIND 15) = true ∧
      (withRegs [(rTRUST_STATUS, 0x80010000), (rMB_LOCK, 1)]).ctl.privMaster = some (1 : Byte).toNat ∧
      bit ((withRegs [(rTRUST_STATUS, 0x80010000), (rMB_LOCK, 1)]).ctl.reg rMB_LOCK) 0 = true) ∧
    ((on fun c => { c with mbDeadline := [(15, 0)] }).takes (.mbTimeout 15) = true ∧
      (on fun c => { c with mbDeadline := [(15, 0)] }).ctl.mbDeadline.find? (·.1 = 15) = some (15, 0) ∧
      (on fun c => { c with mbDeadline := [(15, 0)] }).ctl.pstate ≠ 4) := by decide +kernel

/-- Joined as instance 0, with the peer's link up: PRIV_MASTER is not needed by a bound identity. -/
def joined0 : State := withRegs [(rMB_BIND 0, 0x80000201), (rQUOIN_CTL, 0x00030001), (rQUOIN_STATUS, 0x00020001)]

theorem wit_Doorbells :
    (joined0.serves (.dbRing 1 16) 1 rDB_RING = true ∧ joined0.ctl.dbAllowed 1 = true ∧ bit (16 : Word) 12 = false ∧
      fld (16 : Word) 0 5 = 16 ∧ fld (15 : Word) 0 5 < 16 ∧ joined0.serves (.dbRing 1 15) 1 rDB_RING = true) ∧
    (joined0.serves (.dbRingRemote 1 0x1110) 1 rDB_RING = true ∧ bit (0x1110 : Word) 12 = true ∧
      16 ≤ fld (0x1110 : Word) 0 5 ∧ joined0.ctl.joined = true ∧ joined0.ctl.linkUp (fld (0x1110 : Word) 8 2) = true) ∧
    ((joined0.ctl.joined && joined0.ctl.linkUp (fld (0x121F : Word) 8 2)) = false ∧ bit (0x121F : Word) 12 = true ∧
      joined0.serves (.dbRingRemote 1 0x121F) 1 rDB_RING = true ∧ 16 ≤ fld (0x121F : Word) 0 5) ∧
    (joined0.ctl.linksGated = false ∧ (joined0.ctl.link (joined0.ctl.linkTo (fld (0x1110 : Word) 8 2))).owed = [] ∧
      { joined0 with ctl := put [(rPSTATE_STATUS, 2)] joined0.ctl }.ctl.linksGated = true) ∧
    (joined0.takes (.ringWord 2 31) = true ∧ 16 ≤ fld (31 : Word) 0 5) := by decide +kernel

/-- The reset state with another power state. -/
def pow (f : Power → Power) : State := on fun c => { c with power := f c.power }

theorem wit_ControlPeriodBoundary :
    State.reset.takes (.capmBeat 4095 true 0 false) = true ∧
    ((pow fun p => { p with periodDue := true, cap := 4095 }).takes (.controlPeriod 0) = true ∧
      (pow fun p => { p with periodDue := true, cap := 4095 }).ctl.paceInTurn.power.periodDue = true ∧
      (pow fun p => { p with periodDue := true, cap := 4095 }).ctl.paceInTurn.timeoutsDue = false ∧
      (pow fun p => { p with periodDue := true, cap := 4095 }).ctl.power.cap < 2 ^ 12) ∧
    ((pow fun p => { p with closed := some Window.empty }).takes .controlComputeDone = true ∧
      (pow fun p => { p with closed := some Window.empty }).ctl.refTicks < 0 + 16) ∧
    (0 + 16 ≤ (on fun c => { c with refTicks := 16, power := { c.power with closed := some Window.empty } }).ctl.refTicks ∧
      (on fun c => { c with refTicks := 16, power := { c.power with closed := some Window.empty } }).takes .latePeriod = true) := by
  decide +kernel

/-- The block at g, with a ramp. -/
def ramp (g : Nat) (r : Ramp) : State := pow fun p => { p with quiet := false, gate := g, ramp := r }

theorem wit_RampSteps :
    ((pow fun p => { p with quiet := false, idleTicks := 255 }).takes .quiet = true ∧
      (pow fun p => { p with quiet := false, idleTicks := 255 }).ctl.ticksOf rPWR_CTL 0 8 ≤ 255 ∧
      ∀ n, (pow fun p => { p with quiet := false, idleTicks := 255 }).ctl.power.ramp ≠ .stagger n) ∧
    ((ramp 15 .dawn).takes .dawnStep = true ∧ (ramp 15 .dawn).ctl.power.gate < 16) ∧
    ((ramp 2 (.dusk 1 600)).takes .duskStep = true ∧ 1 < (ramp 2 (.dusk 1 600)).ctl.power.gate) ∧
    (ramp 0 (.stagger 0)).takes .staggerHoldEnd = true ∧
    ((pow fun p => { p with margin := true, marginEnd := some 0 }).takes .rampMarginEnd = true ∧
      0 ≤ (pow fun p => { p with margin := true, marginEnd := some 0 }).ctl.refTicks) :=
  ⟨⟨by decide +kernel, by decide +kernel, fun n => by simp [pow, on, State.reset, Ctl.reset, Power.reset]⟩,
    by decide +kernel, by decide +kernel, by decide +kernel, by decide +kernel⟩

theorem wit_RegulatorHandshake :
    (State.reset.takes .vrqAck = true ∧ State.reset.ctl.power.vbusy = true ∧
      State.reset.ctl.power.vreq = State.reset.ctl.power.vsent) ∧
    ((pow fun p => { p with vreq := 900 }).takes .vrqAck = true ∧ (pow fun p => { p with vreq := 900 }).ctl.power.vbusy = true ∧
      (pow fun p => { p with vreq := 900 }).ctl.power.vreq ≠ (pow fun p => { p with vreq := 900 }).ctl.power.vsent ∧
      (pow fun p => { p with vreq := 900 }).ctl.pstate ≠ 4) ∧
    ((pow fun p => { p with vwait := some 0 }).takes .vreqSlow = true ∧
      0 ≤ (pow fun p => { p with vwait := some 0 }).ctl.refTicks) := by decide +kernel

/-- A member of pace group 1 with parent 2 and child 15 at node 3; the child and the parent have been heard. -/
def grouped : State := on fun c => { put [(rGROUP_CTL, 0x00020013), (rCHILD_NODE 15, 0x80000003)] c with
  group := { c.group with state := 2, children := [(15, 7, 0)], parentDeadline := some 0 } }

theorem wit_PaceWordsAndSilence :
    (grouped.takes (.paceUp 5 0x10010003) = true ∧ grouped.ctl.inGroup = true ∧ fld (0x10010003 : Word) 28 4 = 1 ∧
      grouped.ctl.paceFrom 0x10010003 = .child 15) ∧
    (fld (0x20010002 : Word) 28 4 = 2 ∧ grouped.ctl.paceFrom 0x20010002 = .parent ∧
      notBelow grouped.ctl.group.units (gMax grouped.ctl.group.minimum (0 : Word).toNat) = true ∧
      notBelow grouped.ctl.group.units (gMax grouped.ctl.group.minimum (9 : Word).toNat) = false) ∧
    (fld (0x30010003 : Word) 28 4 = 3 ∧ grouped.ctl.paceFrom 0x30010003 = .child 15) ∧
    (grouped.ctl.paceFrom 0x10010009 = .other ∧ (Instr.paceUp 0 0x10010009, 1) ∈
      [(Instr.paceUp 0 0x10010009, 1), (.paceDown 0 0x10010009, 2), (.groupLeave 0 0x10010009, 3)]) ∧
    (grouped.takes (.childLost 15) = true ∧ grouped.ctl.group.children.find? (·.1 = 15) = some (15, 7, 0) ∧
      0 ≤ grouped.ctl.refTicks) ∧
    (grouped.takes .parentLost = true ∧ grouped.ctl.group.parentDeadline = some 0) := by decide +kernel

theorem wit_PaceGroupMembership :
    (State.reset.reaches (.groupEnable 0 1) 0 rGROUP_CTL = true ∧ bit (1 : Word) 0 = true ∧
      bit (State.reset.ctl.reg rGROUP_CTL) 0 = false) ∧
    (grouped.reaches (.groupDisable 0 2) 0 rGROUP_CTL = true ∧ bit (2 : Word) 0 = false ∧
      bit (grouped.ctl.reg rGROUP_CTL) 0 = true) ∧
    (grouped.takes .paceWordSend = true ∧ grouped.ctl.inGroup = true ∧
      grouped.ctl.group.sendDeadline ≤ grouped.ctl.refTicks) := by decide +kernel

/-- The coolant has stopped issue. -/
def stopped (coolant : Bool) (evt : Word) : State := on fun c =>
  { put [(rBND_STATUS, if coolant then 1 else 0), (rPWR_EVT, evt)] c with
    power := { c.power with stopped := true, gate := 0, coolDeadline := some 0 } }

theorem wit_CoolantStopAndResume :
    (State.reset.takes .coolantFall = true ∧ State.reset.ctl.coolant = true ∧ State.reset.ctl.power.stopped = false) ∧
    ((stopped false 8).takes .coolantRise = true ∧ (stopped false 8).ctl.coolant = false ∧
      (stopped false 8).ctl.inTest = false) ∧
    ((stopped true 8).takes .coolOk = true ∧ (stopped true 8).ctl.power.coolDeadline = some 0 ∧
      (stopped true 8).ctl.power.stopped = true ∧ (stopped true 8).ctl.coolant = true ∧ (stopped true 8).ctl.pstate ≠ 4) ∧
    ((stopped true 24).reaches (.coolResume 0) 0 rCOOL_CTL = true ∧ (stopped true 24).ctl.inTest = false ∧
      bit ((stopped true 24).ctl.reg rPWR_EVT) 4 = true ∧ bit ((stopped true 8).ctl.reg rPWR_EVT) 4 = false) ∧
    (at0 .wait []).stage ∉ [.hold, .check] := by decide +kernel

/-- Ring 63 RUNNING with 64 entries, its index read at 5; NODE_ID delivered. -/
def running63 (r : Ring → Ring) : State := on fun c => (put [(rRING_CFG 63, 6), (rRING_CTL 63, 1), (rRING_STATUS 63, 1),
  (rNODE_ID, 0x80000001), (rPI_SEEN_LO 63, 5)] c).modRing 63 r

theorem wit_RingEnable :
    ((withRegs [(rRING_CFG 63, 6)]).reaches (.ringEnable 63 0) 0 (rRING_CTL 63) = true ∧
      (withRegs [(rRING_CFG 63, 6)]).ctl.ringState 63 = 0 ∧ ((withRegs [(rRING_CFG 63, 6)]).ctl.ring 63).starting = false ∧
      (∀ r < 64, r ≠ 63 → (withRegs [(rRING_CFG 63, 6)]).ctl.enableWaits r = false) ∧
      (withRegs [(rRING_CFG 63, 6)]).ctl.func ≠ 1 ∧ (on fun c => { c with func := 1 }).ctl.func = 1 ∧
      (withRegs [(rRING_CFG 63, 6)]).ctl.calm ((withRegs [(rRING_CFG 63, 6)]).ctl.ringDomain 63) = true ∧
      (withRegs [(rRING_CFG 63, 6)]).ctl.ringConfigOk 63 = true) ∧
    ((withRegs [(rRING_CFG 63, 17)]).ctl.ringConfigOk 63 = false ∧ (withRegs [(rRING_CFG 63, 17)]).ctl.ringState 63 = 0) := by
  decide +kernel

/-- Ring 0 RUNNING with one descriptor. -/
def running0 (d : Desc) (rs : List (Nat × Word) := []) (f : Ctl → Ctl := id) : State :=
  withDesc ([(rRING_CFG 0, 6), (rRING_CTL 0, 1), (rRING_STATUS 0, 1), (rNODE_ID, 0x80000001)] ++ rs) d f

theorem wit_RingDisableAndAbort :
    ((running0 (at0 .wait [11])).reaches (.ringDisable 0 0) 0 (rRING_CTL 0) = true ∧
      (running0 (at0 .wait [11])).ctl.ringState 0 = 1 ∧ ((running0 (at0 .wait [11])).ctl.ring 0).starting = false ∧
      (∀ r < 64, r ≠ 0 → (running0 (at0 .wait [11])).ctl.enableWaits r = false) ∧
      (running0 (at0 .wait [11])).ctl.desc? k0 = some (at0 .wait [11]) ∧ (at0 .wait [11]).kind = 11) ∧
    ((running0 (at0 .run [2])).reaches (.ringAbort 0 0) 0 (rRING_CTL 0) = true ∧
      (running0 (at0 .run [2])).ctl.desc? k0 = some (at0 .run [2]) ∧ (at0 .run [2]).stage ∉ [.hold, .check]) := by
  decide +kernel

theorem wit_LookingForWork :
    ((running63 fun r => { r with pollDue := true }).takes (.poll 63) = true ∧
      (running63 fun r => { r with pollDue := true }).ctl.ringState 63 = 1 ∧
      (running63 fun r => { r with pollDue := true }).ctl.nodeValid = true ∧
      ((running63 fun r => { r with pollDue := true }).ctl.ring 63).reading = false ∧
      (running63 fun r => { r with pollDue := true }).ctl.calm 0 = true ∧
      (running63 fun r => { r with pollDue := true }).ctl.paceInTurn.mayPoll = true) ∧
    ((running63 fun r => { r with backDue := true }).takes (.backstopRead 63) = true ∧
      ((running63 fun r => { r with backDue := true }).ctl.ring 63).backDue = true ∧
      (running63 fun r => { r with backDue := true }).ctl.paceInTurn.mayPoll = true) ∧
    ((running63 fun r => { r with watch := .armed }).takes (.watchHit 63) = true ∧
      ((running63 fun r => { r with watch := .armed }).ctl.ring 63).watch = .armed ∧
      (running63 fun r => { r with watch := .armed }).takes (.watchLost 63) = true) ∧
    ((running63 fun r => { r with watch := .arming 0 }).takes (.watchAccept 63) = true ∧
      (running63 fun r => { r with watch := .arming 0 }).takes (.watchRefuse 63) = true ∧
      (running63 fun r => { r with watch := .arming 0 }).takes (.watchTimeout 63) = true ∧
      ((running63 fun r => { r with watch := .arming 0 }).ctl.ring 63).watch = .arming 0) := by decide +kernel

/-- A descriptor that has completed, its record not yet written. -/
def done0 : Desc := { at0 .final [] with closed := true }

theorem wit_FetchesAndRecords :
    ((running63 id).takes .descriptorFetch = true ∧ (running63 id).ctl.admitting = true ∧ (running63 id).ctl.nodeValid = true ∧
      (∀ r < 64, ((running63 id).ctl.ring r).fetching = false) ∧ (running63 id).ctl.calm 0 = true ∧
      ((List.range 64).map fun i => ((running63 id).ctl.fetchPtr + i) % 64).find? (running63 id).ctl.fetchable = some 63) ∧
    ((running0 done0).takes (.completionRecord 0 0) = true ∧
      (running0 done0).ctl.desc? k0 = some done0 ∧
      (running0 done0).ctl.recordNext done0 = true ∧ (running0 done0).ctl.pstate ≠ 4 ∧
      (running0 done0).ctl.shadow = false ∧ (running0 done0).ctl.calm 0 = true ∧
      ((running0 done0).ctl.ring 0).recFault = false) ∧
    ((running0 done0 [] fun c => c.modRing 0 fun r => { r with recFault := true }).ctl.ring 0).recFault = true := by
  decide +kernel

/-- A FENCE that waits for token 255 to reach 5, with a timeout. -/
def fenceTok : Desc := { at0 .wait [11, 0x200, 255, 5, 1] with deadline := some 0 }

theorem wit_TokensAndFenceTimeout :
    ((running0 fenceTok).reaches (.tokenValueWrite 255 0 5) 0 (rTOKEN_VALUE 255) = true ∧
      (running0 fenceTok).ctl.desc? k0 = some fenceTok ∧ fenceTok.kind = 11 ∧ bit (fenceTok.w 1) 9 = true ∧
      bit (fenceTok.w 1) 8 = false ∧ fld (fenceTok.w 2) 0 8 = 255 ∧
      ((5 : Word).toNat + 2 ^ 32 - (fenceTok.w 3).toNat) % 2 ^ 32 < 2 ^ 31) ∧
    ((running0 fenceTok).takes (.fenceTimeout 0 0) = true ∧ fenceTok.deadline = some 0 ∧
      0 ≤ (running0 fenceTok).ctl.refTicks ∧ (running0 fenceTok).ctl.pstate ≠ 4) := by decide +kernel

/-- A burst that waits for walk 31. -/
def walkBurst : Burst :=
  { purpose := .index 0, cls := 0, access := 3, domain := 0, va := 0x10000, pa := 0, data := [], state := .walking, ch := 0,
    tag := 0, deadline := 0, faulted := false, waitInval := false, prefetch := false }
/-- A state with walk 31 under way, or timed out. -/
def walking (late : Bool) : State := on fun c => c.modMem fun m =>
  { m with
    bursts := [walkBurst]
    walks := [{ tag := 31, domain := 0, page := 1, access := 3, deadline := 0, late := late }] }

theorem wit_Walks : ∀ late ∈ [false, true], (walking late).takes (.translationResponse 31 0x10010) = true ∧
    (walking late).ctl.mem.walks.find? (·.tag = 31) =
      some { tag := 31, domain := 0, page := 1, access := 3, deadline := 0, late := late } ∧
    (∀ b ∈ (walking late).ctl.mem.bursts, b.state ≠ .need) ∧ (∀ d ∈ (walking late).ctl.descs, d.bad = none) ∧
    (0x10010 : BitVec 64).toNat % 2 = 0 ∧ (0x10010 : BitVec 64).toNat / 2 ^ 10 % 4 = 0 ∧
    (0xC00 : BitVec 64).toNat / 2 ^ 10 % 4 = 3 ∧ (walking late).takes (.walkTimeout 31) = true ∧
    0 ≤ (walking late).ctl.refTicks ∧ (walking late).ctl.pstate ≠ 4 := by decide +kernel

/-- Ring 0 RUNNING with a fetch issued on the last channel under the last tag. -/
def fetching : State := on fun c => (put [(rRING_CFG 0, 6), (rRING_CTL 0, 1), (rRING_STATUS 0, 1)] c).modMem fun m =>
  { m with bursts := [{ walkBurst with purpose := .fetch 0 0, state := .issued, ch := 7, tag := 511 }] }

theorem wit_BurstAnswers : fetching.takes (.burstResponse 7 511 0 (List.replicate 64 0)) = true ∧
    fetching.ctl.outstanding 7 511 = some { walkBurst with purpose := .fetch 0 0, state := .issued, ch := 7, tag := 511 } ∧
    fetching.ctl.ringState 0 = 1 ∧ fetching.takes (.burstTimeout 7 511) = true ∧ walkBurst.deadline ≤ fetching.ctl.refTicks ∧
    fetching.ctl.pstate ≠ 4 := by decide +kernel

theorem wit_TranslationInvalidation :
    (State.reset.reaches (.atcInval 0 1) 0 rATC_INVAL = true ∧ bit (1 : Word) 0 = true ∧
      bit (State.reset.ctl.reg rATC_INVAL) 31 = false ∧ fld (1 : Word) 4 2 = 0) ∧
    bit ((withRegs [(rATC_INVAL, 0x80000000)]).ctl.reg rATC_INVAL) 31 = true := by decide +kernel

/-- WX_REGACC reads of TICK_HI of slice 63 and of MB_DATA of channel 15. -/
theorem wit_RegisterReads : State.reset.takes (.wxRegacc (BitVec.ofNat 59 (rTICK_HI 63 / 4))) = true ∧
    (BitVec.ofNat 59 (rTICK_HI 63 / 4)).getLsbD 18 = false ∧
    4 * ((BitVec.ofNat 59 (rTICK_HI 63 / 4)).extractLsb' 0 18).toNat = rTICK_HI 63 ∧
    State.reset.ctl.answers 0 (rTICK_HI 63) = true ∧ 63 < State.reset.ctl.slicesN ∧
    4 * ((BitVec.ofNat 59 (rMB_DATA 15 / 4)).extractLsb' 0 18).toNat = rMB_DATA 15 := by decide +kernel

theorem wit_TimeAdvances :
    (State.reset.takes (.tick 63 0) = true ∧ State.reset.ctl.sequenced = false ∧ State.reset.ctl.pstate ≠ 4 ∧
      63 ≠ State.reset.ctl.refSlice ∧ State.reset.takes (.tick 0 0) = true ∧ 0 = State.reset.ctl.refSlice) ∧
    ((on fun c => { c with subTick := 15 }).takes .subTick = true ∧ (on fun c => { c with subTick := 15 }).ctl.subTick < 16 ∧
      ∃ b ∈ State.reset.ctl.bucketNumbers, 128 ≤ b) := by
  decide +kernel

theorem wit_WrapperInstructions :
    State.reset.takes .wsBypass = true ∧
    ((Instr.wsExtest [true], 1) ∈ [(Instr.wsExtest [true], 1), (.wsIntestRing [true], 2)] ∧
      State.reset.takes (.wsExtest [true]) = true ∧ State.reset.ctl.testLocked = false ∧ State.reset.ctl.inTest = false ∧
      (withRegs [(rTEST_CTL, 0x100)]).ctl.testLocked = true) ∧
    (State.reset.takes (.wxRegacc 0x40000) = true ∧ (0x40000 : BitVec 59).getLsbD 18 = true) ∧
    (State.reset.takes (.wxRegacc 0x580) = true ∧ (0x580 : BitVec 59).getLsbD 18 = false ∧
      4 * ((0x580 : BitVec 59).extractLsb' 0 18).toNat = 0x1600 ∧ State.reset.ctl.answers 0 0x1600 = true ∧
      State.reset.ctl.mayAccess 0 0x1600 false 0 = true ∧ 0x1600 ∉ [rREF_TICK_LO, rBCNT_GRANT_LO] ∧
      (∀ n < 64, 0x1600 ≠ rCNT_GRANT_LO n) ∧ (State.reset.ctl.setWir 0x10).derived 0x1600 = none) ∧
    State.reset.takes .wxSig = true := by decide +kernel

/-- Sequenced mode is on. -/
def seqOn : State := withRegs [(rTEST_CTL, 1)]

theorem wit_SequencedMode :
    (State.reset.reaches (.seqEn 0 true) 0 rTEST_CTL = true ∧ State.reset.ctl.privOk 0 = true ∧
      State.reset.ctl.sequenced = false ∧ State.reset.ctl.testLocked = false ∧
      (State.reset.ctl.det && bit (State.reset.ctl.reg rINT_STATUS) 16) = false ∧
      ((withRegs [(rINT_CTL_ACT, 1), (rINT_STATUS, 0x10000)]).ctl.det &&
        bit ((withRegs [(rINT_CTL_ACT, 1), (rINT_STATUS, 0x10000)]).ctl.reg rINT_STATUS) 16) = true) ∧
    State.reset.reaches (.seqEn 0 false) 0 rTEST_CTL = true ∧ State.reset.reaches (.testLock 0) 0 rTEST_CTL = true ∧
    (seqOn.reaches (.testStepPhases 0 [1, 2]) 0 rTEST_STEP = true ∧ seqOn.ctl.privOk 0 = true ∧ seqOn.ctl.sequenced = true) ∧
    (seqOn.reaches (.testStepTicks 0 65535) 0 rTEST_STEP = true ∧ seqOn.ctl.pstate ≠ 4 ∧
      ∀ n < seqOn.ctl.slicesN, (seqOn.ctl.slice n).ticks < 2 ^ 48) ∧
    (seqOn.takes (.wxStep 2 [1, 1]) = true ∧ seqOn.ctl.testLocked = false ∧
      ((2 : BitVec 18).extractLsb' 16 2).toNat = 0) ∧
    (seqOn.takes (.wxStep 0x1FFFF []) = true ∧ ((0x1FFFF : BitVec 18).extractLsb' 16 2).toNat = 1 ∧
      (withRegs [(rTEST_CTL, 0x101)]).ctl.testLocked = true) := by decide +kernel

/-- One burst issued. -/
def issued1 : State := on fun c => c.modMem fun m => { m with bursts := [{ walkBurst with state := .issued }] }

theorem wit_Resets :
    State.reset.takes (.powerOnReset true) = true ∧
    (State.reset.takes (.blkrstN true) = true ∧ State.reset.takes (.blockReset 0 true) = true ∧ (0 : Byte) ≠ 0xFF ∧
      State.reset.ctl.privOk 0 = true ∧ (∀ x ∈ State.reset.ctl.mem.bursts, x.state ≠ .issued)) ∧
    (∃ x ∈ issued1.ctl.mem.bursts, x.state = .issued) ∧
    (State.reset.takes (.resetInputAsserted true) = true ∧ State.reset.takes (.resetInputAsserted false) = true) ∧
    (on fun c => { c with inReset := some true }).ctl.inReset = some true := by decide +kernel

/-- A LOAD that runs on ring 0 and a walk under way. -/
def busy0 : State := running0 (at0 .run [2]) [] fun c => c.modMem fun m =>
  { m with walks := [{ tag := 0, domain := 0, page := 1, access := 3, deadline := 9, late := false }] }

theorem wit_FunctionResets :
    (busy0.reaches (.funcRings 0) 0 rRESET_CTL = true ∧ busy0.ctl.privOk 0 = true ∧ busy0.ctl.func = 0 ∧
      busy0.ctl.ringState 0 = 1 ∧ busy0.ctl.desc? k0 = some (at0 .run [2]) ∧ (at0 .run [2]).stage ∉ [.hold, .check]) ∧
    busy0.reaches (.funcTranslation 0) 0 rRESET_CTL = true ∧
    (busy0.reaches (.funcMsq 0) 0 rRESET_CTL = true ∧
      (on fun c => c.modMsq fun m => { m with svc := some (Svc.start none 6 16) }).ctl.svcFirmware = true) ∧
    busy0.reaches (.funcPower 0) 0 rRESET_CTL = true ∧ busy0.reaches (.funcCounters 0) 0 rRESET_CTL = true ∧
    (on fun c => { c with func := 4 }).ctl.func ≠ 0 := by decide +kernel

theorem wit_BringUp :
    (State.reset.takes (.zeroFillDone 7) = true ∧
      (State.reset.ctl.filling.contains 7 || decide ((State.reset.ctl.slice 7).fstate = .returning)) = true ∧
      State.reset.ctl.pstate ≠ 4 ∧ State.reset.ctl.serviceLost = false) ∧
    ((on fun c => c.modInteg fun i => { i with spareFills := [(63, 33)] }).takes (.spareBankZeroFillDone 63 33) = true ∧
      (on fun c => c.modInteg fun i => { i with spareFills := [(63, 33)] }).ctl.integ.spareFills.contains (63, 33) = true ∧
      (State.reset.ctl.slice 63).fstate ∉ [.fenced, .returning] ∧ State.reset.ctl.jobs = []) ∧
    (State.reset.takes (.trustDelivery [(1, 5)]) = true ∧ State.reset.takes (.trustDelivery [(2, 5)]) = true) ∧
    (∀ i ∈ [1, 2, 3], State.reset.takes (.trustDelivery ((List.replicate 12 7).map fun w => (BitVec.ofNat 8 (0x10 + i), w))) = true ∧
      State.reset.takes (.trustDelivery [(BitVec.ofNat 8 (0x20 + i), 7)]) = true) ∧
    trustBeats (0x11 : Byte).toNat ≠ some 1 ∧ (∃ b ∈ [((3 : Byte), (0 : Word))], b.1 ≠ (0x11 : Byte)) := by decide +kernel

theorem wit_GenerationCommit :
    (State.reset.reaches (.genCommit 0) 0 rGEN_COMMIT = true ∧ State.reset.ctl.converged = true ∧
      State.reset.ctl.claimed + 2048 * fld (State.reset.ctl.reg rKS_RESERVE) 0 6 ≤ State.reset.ctl.capacity) ∧
    ((on fun c => { c with deferredCommit := true }).takes .deferredGenerationCommit = true ∧
      (on fun c => { c with deferredCommit := true }).ctl.deferredCommit = true) ∧
    (¬ (on fun c => { c with filling := [], fillWait := [] }).ctl.claimed +
        2048 * fld ((on fun c => { c with filling := [], fillWait := [] }).ctl.reg rKS_RESERVE) 0 6 ≤
        (on fun c => { c with filling := [], fillWait := [] }).ctl.capacity) ∧
    ((withRegs [(rGEN_STATUS, 0)]).reaches (.genCommit 0) 0 rGEN_COMMIT = true ∧
      (withRegs [(rGEN_STATUS, 0)]).ctl.converged = false) := by decide +kernel

/-- Every slice in service, no fill under way. -/
def up (f : Ctl → Ctl := id) : State := on fun c => f { c with inService := List.range 64, filling := [], fillWait := [] }
/-- Visits of slice 63's scrubber wait: row 2079 of bank 33, its read raised alone, with a flipped bit stored when `e`. -/
def visit63 : Job :=
  { req := 12, purpose := .scrubRead, slice := 63, offset := 0, row := 2079, chunks := [0], words := [], skip := [], phys := some 33 }
def scrubbing (e : Bool) : State :=
  { up fun c => { c.modSlice 63 fun x => { x with scrubWait := [(2079, 33)] } with jobs := [visit63] } with
    cells := if e then Cells.write [] (cellAddr 63 33 2079 15) 1 else [] }

theorem wit_IntegrityCommands :
    (on fun c => c.modInteg fun i => { i with log := [⟨1, 0, 0, 0, none⟩] }).reaches (.errLogPop 0) 0 rERR_LOG_CTL = true ∧
    (∀ e ∈ [false, true], (scrubbing e).takes (.scrubVisit 63 [] [] [] false) = true ∧
      ((scrubbing e).ctl.slice 63).scrubWait = (2079, 33) :: [] ∧ (scrubbing e).ctl.power.stopped = false ∧
      (scrubbing e).ctl.pstate ≠ 4 ∧ (scrubbing e).ctl.toNight = false ∧ (scrubbing e).ctl.sequenced = false ∧
      (scrubbing e).ctl.visitAlone 63 33 2079 visit63 ∧ (scrubbing e).ctl.integ.lost = [] ∧
      (decodeRow (withNoise ((scrubbing e).cells.readRow 63 33 2079) []) []).2.1 = []) ∧
    ((decodeRow (withNoise ((scrubbing false).cells.readRow 63 33 2079) []) []).2.2 = 0 ∧
      (decodeRow (withNoise ((scrubbing true).cells.readRow 63 33 2079) []) []).2.2 ≠ 0) ∧
    ((up fun c => c.modInteg fun i => { i with copies := [⟨63, 31, 33, 2048⟩] }).takes (.bankCopyDone 63 31) = true ∧
      (up fun c => c.modInteg fun i => { i with copies := [⟨63, 31, 33, 2048⟩] }).ctl.integ.copies.find?
        (fun x => x.slice = 63 && x.bank = 31) = some ⟨63, 31, 33, 2048⟩ ∧ up.ctl.jobs = [] ∧
      (up fun c => c.modInteg fun i => { i with copies := [⟨63, 31, 33, 2048⟩] }).ctl.issuing = true) ∧
    (up.takes (.deadBank 63 33) = true ∧ up.ctl.isDead 63 33 = false ∧ up.ctl.pstate ≠ 4) := by
  unfold Ctl.visitAlone; decide +kernel

/-- Slice 63 fenced by the driver, at a fence state. -/
def fence63 (st : FState) : State := on fun c =>
  (put [(rFENCE_REQ_HI, 0x80000000)] { c with inService := List.range 63, filling := [], fillWait := [] }).modSlice 63
    fun x => { x with fstate := st }

theorem wit_SliceFences :
    (up.reaches (.sliceFence true 0 0x80000000) 0 rFENCE_REQ_HI = true ∧ up.ctl.fenceChange true 0x80000000 true = true ∧
      (∃ m ∈ up.ctl.inService, m ∉ up.ctl.fenceBits true 0x80000000) ∧ 63 ∈ up.ctl.fenceBits true 0x80000000 ∧
      63 ∉ up.ctl.fenceBits true (up.ctl.reg rFENCE_REQ_HI) ∧ up.ctl.isIn 63 = true) ∧
    ((on fun c => { c with inService := [63] }).reaches (.sliceFence true 0 0x80000000) 0 rFENCE_REQ_HI = true ∧
      (on fun c => { c with inService := [63] }).ctl.fenceChange true 0x80000000 true = true ∧
      (on fun c => { c with inService := [63] }).ctl.inService ≠ [] ∧
      (∀ m ∈ [63], m ∈ (on fun c => { c with inService := [63] }).ctl.fenceBits true 0x80000000 ∧
        m ∉ (on fun c => { c with inService := [63] }).ctl.fenceBits true
          ((on fun c => { c with inService := [63] }).ctl.reg rFENCE_REQ_HI))) ∧
    ((fence63 .fencing).takes (.sliceFenced 63) = true ∧ ((fence63 .fencing).ctl.slice 63).fstate = .fencing ∧
      ((fence63 .fencing).ctl.slice 63).clearAsked = false ∧ (fence63 .fencing).ctl.evacuated 63 = true ∧
      (fence63 .fencing).ctl.issuing = true) ∧
    ((fence63 .fenced).reaches (.sliceUnfence true 0 0) 0 rFENCE_REQ_HI = true ∧
      (fence63 .fenced).ctl.fenceChange true 0 false = true ∧ (fence63 .fenced).ctl.fenceChange true 0 true = false ∧
      63 ∈ (fence63 .fenced).ctl.fenceBits true ((fence63 .fenced).ctl.reg rFENCE_REQ_HI) ∧
      63 ∉ (fence63 .fenced).ctl.fenceBits true 0 ∧ ((fence63 .fenced).ctl.slice 63).fstate = .fenced ∧
      (fence63 .fenced).ctl.cannotReturn 63 = false ∧ (fence63 .fenced).ctl.serviceLost = false ∧
      { fence63 .fenced with ctl := { (fence63 .fenced).ctl.raise rREADY 3 with inService := [] } }.ctl.serviceLost = true) := by decide +kernel

/-- A LIVE name of one row at span 1 with a shape word. -/
def liveAs (sh : Word) : NameRec := { live1 with shape := sh }
/-- Names 1 and 2 in U32, 3 in I32 for indexes, 4 and 6 in F32, 5 in MODQ; their fragments are mapped on slice 0. -/
def named (c : Ctl) : Ctl :=
  { c with
    names := [(1, liveAs 0x10000), (2, liveAs 0x10000), (3, liveAs 0x20000), (4, liveAs 0x30000), (5, liveAs 0), (6, liveAs 0x30000)]
    inService := List.range 64
    filling := []
    fillWait := [] }
/-- Ring 0 RUNNING with one descriptor, every slice in service, the names above, EC and a modulus in force. -/
def ready0 (d : Desc) (rs : List (Nat × Word) := []) (f : Ctl → Ctl := id) : State :=
  running0 d ([(rMODQ_ACTIVE 0, 97)] ++ rs) fun c => f (named c)

/-- One descriptor of each kind that goes on to step 5, which passes its checks. -/
def sound : List (Instr × Desc) :=
  [(.tileOp 0, at0 .check [1, 0x1000, 0x4001, 0x20000, 0x10000, 0, 0, 0, 0, 0, 0x10000, 0]),
   (.load 0, at0 .check [2, 0, 1, 0, 0x10000, 0, 0x100000, 0, 512, 0]),
   (.store 0, at0 .check [3, 0, 1, 0, 0x10000, 0, 0x100000, 0, 512, 0]),
   (.relayout 0, at0 .check [4, 0x300, 1, 0, 0x10000, 0, 2, 0, 0x10000, 0]),
   (.gather 0, at0 .check [5, 0, 0x30001, 0x20000, 0x10000, 0, 0x20000, 0, 0x10000, 0, 0, 128]),
   (.scatter 0, at0 .check [6, 0, 0x30001, 0x20000, 0x10000, 0, 0x20000, 0, 0x10000, 0, 0, 128]),
   (.scatterAdd 0, at0 .check [7, 0, 0x30001, 0x20000, 0x10000, 0, 0x20000, 0, 0x10000, 0, 0, 128]),
   (.permute 0, at0 .check [8, 0x70100, 0x20001, 0, 0x10000, 0, 0x10000, 0, 5, 0]),
   (.keystream 0, at0 .check [9, 0x100, 5, 512, 0, 0, 0x100000, 0]),
   (.reduce 0, at0 .check [10, 0x100, 4, 0x60000, 0x30000, 0, 0, 0, 0x30000, 0])]

theorem wit_AdmissionOfKinds : ∀ p ∈ sound, (ready0 p.2).takes p.1 = true ∧ (ready0 p.2).ctl.admits 0 p.2.kind p.2 ∧
    ((ready0 p.2).ctl.atStep4 p.2).desc? k0 = some p.2 ∧ (ready0 p.2).ctl.calm 0 = true ∧
    (p.2.dRef.bind fun t => (ready0 p.2).ctl.quoinEntry t.name) = none ∧
    ((ready0 p.2).ctl.atStep4 p.2).kindChecks p.2 = none := by
  unfold Ctl.admits; decide +kernel

/-- The same descriptors fail where their names are not LIVE, RELAYOUT's among them. -/
theorem wit_AdmissionOfKinds_fails : ∀ p ∈ sound, ∃ x,
    ((running0 p.2).ctl.atStep4 p.2).kindChecks p.2 = some (0x13, x) := by
  intro p hp; refine ⟨0, ?_⟩; revert p; decide +kernel

/-- Descriptors of the kinds that only act on Keystone or wait. -/
def plain (ws : List Word) : Desc := at0 .check ws
/-- EXPERT placement is in force, or not. -/
def pinning (ws : List Word) (e : Word) : State := ready0 (plain ws) [(rKS_CTL_ACT, e)]

theorem wit_SimpleKinds_nop : (ready0 (plain [0])).takes (.nop 0) = true ∧ (ready0 (plain [0])).ctl.admits 0 0 (plain [0]) ∧
    (ready0 (plain [0])).ctl.formCheck (plain [0]) = none := by unfold Ctl.admits; decide +kernel

/-- A FENCE with a timeout, on token 0 reaching `v`. -/
def fence0 (v : Word) : Desc := plain [11, 0x200, 0, v, 7]

theorem wit_SimpleKinds_fence : ∀ x ∈ [(fence0 0, true), (fence0 1, false)], (ready0 x.1).takes (.fence 0) = true ∧
    (ready0 x.1).ctl.admits 0 11 x.1 ∧ (ready0 x.1).ctl.formCheck x.1 = none ∧ (ready0 x.1).ctl.fenceMet x.1 = x.2 ∧
    ∀ e ∈ (ready0 x.1).ctl.descs, ¬ (e.kind = 11 ∧ e.stage = .wait) := by
  unfold Ctl.admits; decide +kernel

/-- An ALLOC of name 7 at step 4, while slices fill or after. -/
def alloc7 (n : Nat) (filled : Bool) : State := ready0 (plain [12, 0, 7, 0, 0x10000]) [] fun c =>
  let c : Ctl := { c with inService := List.range n }
  if filled then c.raise rREADY 9 else c

/-- With one slice in service there is a shortage, or, while the others fill, the ALLOC waits; with 64 there is room; with three and
the default reserve there is none. -/
theorem wit_SimpleKinds_alloc : ∀ x ∈ [(1, true), (1, false), (3, true), (64, true)], ∀ s ∈ [alloc7 x.1 x.2],
    ∀ d ∈ [plain [12, 0, 7, 0, 0x10000]],
    s.takes (.alloc 0) = true ∧ s.ctl.admits 0 12 d ∧ (s.ctl.formCheck d <|> s.ctl.tileChecks d) = none ∧ d.granted = false ∧
    (∀ e ∈ s.ctl.descs, e.kind = 12 → e.stage ≠ .wait) ∧ s.ctl.shortage = decide (x = (1, true)) ∧
    (s.ctl.fillsOn && s.ctl.scarce) = !x.2 ∧
    (x.1 = 64 → s.ctl.claimed + shapeClaim 0x10000 + 2048 * fld (s.ctl.reg rKS_RESERVE) 8 6 ≤ s.ctl.capacity) ∧
    (x.1 = 3 → s.ctl.capacity < s.ctl.claimed + shapeClaim 0x10000 + 2048 * fld (s.ctl.reg rKS_RESERVE) 8 6) := by
  unfold Ctl.admits; decide +kernel

theorem wit_SimpleKinds_free : (ready0 (plain [13, 0, 1])).takes (.freeName 0) = true ∧
    (ready0 (plain [13, 0, 1])).ctl.admits 0 13 (plain [13, 0, 1]) ∧
    ((ready0 (plain [13, 0, 1])).ctl.formCheck (plain [13, 0, 1]) <|>
      (ready0 (plain [13, 0, 1])).ctl.tileChecks (plain [13, 0, 1])) = none := by unfold Ctl.admits; decide +kernel

theorem wit_SimpleKinds_pin : ∀ x ∈ [(false, (0 : Word), [(14 : Word), 0x100, 1, 0, 1, 0]), (true, 1, [14, 0x100, 1, 0, 1, 0]),
      (true, 1, [14, 0, 1, 0, 1, 0])],
    (pinning x.2.2 x.2.1).takes (.pin 0) = true ∧ (pinning x.2.2 x.2.1).ctl.admits 0 14 (plain x.2.2) ∧
    ((pinning x.2.2 x.2.1).ctl.formCheck (plain x.2.2) <|>
      (pinning x.2.2 x.2.1).ctl.check12 (plain x.2.2) (plain x.2.2).tiles) = none ∧
    fld ((plain x.2.2).w 2) 0 14 = 1 ∧ bit ((pinning x.2.2 x.2.1).ctl.reg rKS_CTL_ACT) 0 = x.1 ∧
    ((pinning x.2.2 x.2.1).ctl.pinList { mask := (plain x.2.2).addr 4, offset := none, broken := false }
      (((pinning x.2.2 x.2.1).ctl.name 1).table.span /
        (pinning x.2.2 x.2.1).ctl.foldFor ((pinning x.2.2 x.2.1).ctl.name 1).table.span)).isSome = true := by
  unfold Ctl.admits; decide +kernel

/-- An ALLOC of name 7 that waits for its slot, and one that is written. -/
def waiting : Desc := { at0 .wait [12, 0, 7, 0, 0x10000] with granted := true, order := 1 }
def written (k : Word) (n i : Nat) : Desc := { at0 .written [k, 0, word n, 0, 0x10000] with
  admitted := true, caps := [(n, BitVec.ofNat 16 i)], dst := if k = 13 then none else some (tab1 1) }
/-- A pair: the primary of two BX64. -/
def pairRegs : List (Nat × Word) := [(rPAIR_CTL, 0x101), (rPAIR_STATUS, 0x80000000), (rCONTRACT_SEL, 0x10100)]

theorem wit_GrantsAndCommits_release : (ready0 (at0 .hold [0])).takes (.dependencyRelease 0) = true ∧
    (ready0 (at0 .hold [0])).ctl.admitting = true ∧
    ((ready0 (at0 .hold [0])).ctl.ringDescs 0).find? (·.stage = .hold) = some (at0 .hold [0]) ∧
    (ready0 (at0 .hold [0])).ctl.desc? k0 = some (at0 .hold [0]) ∧
    (∀ e ∈ (ready0 (at0 .hold [0])).ctl.ringDescs 0, ¬ e.key.idx < 0) := by decide +kernel

theorem wit_GrantsAndCommits_grant : ((ready0 waiting).takes .freshSlotGrant = true ∧ (ready0 waiting).ctl.issuing = true ∧
    (∀ e ∈ (ready0 waiting).ctl.descs, e.waits5 = true → e.dRef.isSome = true) ∧ (ready0 waiting).ctl.wanted = [] ∧
    (∀ e ∈ (ready0 waiting).ctl.descs, e.kind = 12 → e.stage = .wait → e.granted = true)) ∧
    (sortBy (fun a b => a.order ≤ b.order) ((ready0 waiting).ctl.descs.filter (·.waits5))).find?
      (fun e => e.dRef.isSome && !(ready0 waiting).ctl.classHeld e && (e.kind ≠ 12 || e.granted)) = some waiting ∧
    ((ready0 waiting).ctl.desc? k0 = some waiting ∧ waiting.dRef = some ⟨9, 7, 4⟩ ∧ (ready0 waiting).ctl.shortage = false) ∧
    ((ready0 waiting).ctl.sourcesStand waiting = true ∧ (ready0 waiting).ctl.poisonCheck waiting = none ∧
      (ready0 waiting).ctl.mustRefold waiting = [] ∧ waiting.need ≤ (ready0 waiting).ctl.freeSlots) ∧
    ((ready0 waiting).ctl.place 7 1 1 (waiting.placeOrder ((ready0 waiting).ctl.resolved waiting))).isSome = true ∧
    (ready0 waiting).ctl.calm 0 = true := by
  refine ⟨by decide +kernel, by decide +kernel, by decide +kernel, by decide +kernel, by decide +kernel, by decide +kernel⟩

/-- Name 7 is not LIVE, incarnation 0; name 1 is LIVE, incarnation 1. -/
theorem wit_GrantsAndCommits_commit : ∀ x ∈ [((12 : Word), 7, 0, true), (12, 7, 1, false), (13, 1, 1, true), (13, 1, 0, false),
      (2, 1, 1, true)],
    (ready0 (written x.1 x.2.1 x.2.2.1)).takes (.commit 0 0) = true ∧
    (ready0 (written x.1 x.2.1 x.2.2.1)).ctl.commitDesc 0 0 = some (written x.1 x.2.1 x.2.2.1) ∧
    (ready0 (written x.1 x.2.1 x.2.2.1)).ctl.desc? k0 = some (written x.1 x.2.1 x.2.2.1) ∧
    (ready0 (written x.1 x.2.1 x.2.2.1)).ctl.paired = false ∧
    (written x.1 x.2.1 x.2.2.1).writes.all
      ((ready0 (written x.1 x.2.1 x.2.2.1)).ctl.incarnationOk (written x.1 x.2.1 x.2.2.1)) = x.2.2.2 ∧
    (written x.1 x.2.1 x.2.2.1).writes.head? = some x.2.1 := by decide +kernel

theorem wit_GrantsAndCommits_pair : (ready0 (written 2 1 1) pairRegs).takes (.commit 0 0) = true ∧
    (ready0 (written 2 1 1) pairRegs).ctl.commitDesc 0 0 = some (written 2 1 1) ∧
    (ready0 (written 2 1 1) pairRegs).ctl.paired = true ∧
    (written 2 1 1).writes.all ((ready0 (written 2 1 1) pairRegs).ctl.incarnationOk (written 2 1 1)) = true ∧
    ((ready0 (written 2 1 1) pairRegs).ctl.sigFor 0 0 none).peer = none ∧
    (ready0 (written 2 1 1) pairRegs).ctl.linksGated = false ∧
    ((ready0 (written 2 1 1) pairRegs).ctl.link (ready0 (written 2 1 1) pairRegs).ctl.pairLink).owed = [] := by decide +kernel

/-- Keystone moves name 1 to bank offset 8; one fragment is copied, or none. -/
def migrating (failed : Bool) : State := on fun c => { named c with migs :=
  [{ name := 1, dest := { tab1 1 with frags := [(8, 0)] }, commits := 0, copied := [0], required := true, retry := false,
     failed := failed }] }

theorem wit_KeystoneMoves :
    ((on fun c => c.setSlots [slotKey 63 2047 3] .clearing .none).takes (.clearingDone 63 2047 3) = true ∧
      ((on fun c => c.setSlots [slotKey 63 2047 3] .clearing .none).ctl.slot (slotKey 63 2047 3)).state = .clearing ∧
      (on fun c => c.setSlots [slotKey 63 2047 3] .clearing .none).ctl.wanted = [] ∧
      (∀ j ∈ (on fun c => c.setSlots [slotKey 63 2047 3] .clearing .none).ctl.jobs, j.purpose ≠ .clear (slotKey 63 2047 3))) ∧
    (∀ f ∈ [false, true], (pow fun p => { p with reviewDue := true, stopped := f }).takes .review = true ∧
      (pow fun p => { p with reviewDue := true, stopped := f }).ctl.paceInTurn.timeoutsDue = false ∧
      (pow fun p => { p with reviewDue := true, stopped := f }).ctl.power.periodDue = false ∧
      (pow fun p => { p with reviewDue := true, stopped := f }).ctl.reviewing = !f) ∧
    (∀ f ∈ [false, true], (migrating f).takes (.migrationCommit 1) = true ∧
      ((migrating f).ctl.migs.find? (·.name = 1)).isSome = true ∧ ((migrating f).ctl.name 1).live = true ∧
      (migrating f).ctl.wanted = [] ∧
      ((migrating f).ctl.name 1).commits = 0 ∧ (∀ m ∈ (migrating f).ctl.migs, m.dest.count ≤ m.copied.length ∧ m.failed = f)) := by
  decide +kernel

/-- A LOAD that runs and whose row 0 parks; the same parked; abandoned by a slice fence. -/
def failing : Desc := { at0 .run [2, 0, 1, 0, 0x10000] with bad := some ⟨0, 0x20, 1, true⟩, dst := some (tab1 1), admitted := true }
def parked0 : Desc := { at0 .parked [2, 0, 1, 0, 0x10000] with dst := some (tab1 1), admitted := true }
def fenced0 : Desc := at0 .fenced [2, 0, 1, 0, 0x10000]

theorem wit_ParkingAndRestarts :
    ((ready0 failing).takes (.park 0 0) = true ∧ (ready0 failing).ctl.desc? k0 = some failing ∧
      (ready0 failing).ctl.belowDone failing 0 = true ∧ (ready0 failing).ctl.calm 0 = true) ∧
    ((ready0 parked0).reaches (.ringResume 0 0 0) 0 (rRING_RESUME 0) = true ∧ (ready0 parked0).ctl.pstate ∉ [1, 2, 5] ∧
      (ready0 parked0).ctl.parkedAt 0 0 = some parked0 ∧ (ready0 parked0).ctl.desc? k0 = some parked0 ∧
      parked0.mustRestart = false ∧ (ready0 parked0).ctl.calm 0 = true ∧ parked0.bad = none ∧
      (ready0 parked0).reaches (.ringAbandon 0 0 0) 0 (rRING_RESUME 0) = true) ∧
    ((ready0 failing).reaches (.ringResume 0 65535 0) 0 (rRING_RESUME 0) = true ∧
      (ready0 failing).ctl.parkedAt 0 65535 = none) ∧
    ((ready0 fenced0).takes (.restart 0 0) = true ∧
      (ready0 fenced0).ctl.descs.find? (fun d => d.key.ring = 0 && d.key.idx = 0 && d.stage = .fenced) = some fenced0 ∧
      (ready0 fenced0).ctl.desc? k0 = some fenced0 ∧ (ready0 fenced0).ctl.inService ≠ [] ∧
      (∀ n ∈ fenced0.reads ++ fenced0.writes, ∀ m ∈ ((ready0 fenced0).ctl.name n).table.list,
        (ready0 fenced0).ctl.isIn m = true)) := by decide +kernel

/-- A streamed KEYSTREAM that runs, prefetched or not; a stored one; a PERMUTE that waits for its map. -/
def stream (pf : Bool) : Desc := { at0 .run [9, 0x200] with prefetched := pf, phase := if pf then 1 else 0, deadline := some 0 }
def lane (d : Desc) : State := withDesc [] d fun c => { c with
  slices := [(63, { Slice.reset with port := { Port.reset with lane := [⟨k0, 0, 0, false⟩] } })], power := { c.power with
    pace := 2047, gate := 16, quiet := false } }
def mapping (n : Nat) : State := withDesc []
  { at0 .run [8, 0x00000200] with buf := (List.range n).map fun i => (i, 0) } fun c => c.modNet fun x => { x with mapOwner := some k0 }

theorem wit_KeysAndPrograms :
    (∀ s ∈ [running0 (stream true) [] fun c => { c with refTicks := 1 }], s.takes (.prefetchDrop 0 0) = true ∧
      s.ctl.desc? k0 = some (stream true) ∧ (stream true).prefetchOpen = true ∧ (stream true).phase ≤ s.ctl.refTicks) ∧
    ((running0 (stream false)).takes (.keyOrphan 0 0) = true ∧ (running0 (stream false)).ctl.desc? k0 = some (stream false) ∧
      (stream false).isStream = true ∧ (stream false).partner = none ∧ 0 ≤ (running0 (stream false)).ctl.refTicks) ∧
    (∀ d ∈ [stream false, { stream false with dst := some (tab1 1) }], (lane d).takes (.keyFragmentGenerated 63) = true ∧
      ((lane d).ctl.port 63).lane = ⟨k0, 0, 0, false⟩ :: [] ∧ (lane d).ctl.desc? k0 = some d ∧
      (lane d).ctl.mayBeat (.lane 63) = true ∧ (lane d).ctl.power.pace = 2047 ∧ (lane d).ctl.power.gate = 16 ∧
      (lane d).ctl.power.quiet = false ∧
      (∀ x ∈ (lane d).ctl.descs, (lane d).ctl.calm x.domain = true)) ∧
    ((mapping 1).takes .routeProgramFetch = true ∧ (mapping 1).ctl.net.mapOwner = some k0 ∧
      (mapping 1).ctl.descs.map (·.wantsMap) = [true] ∧
      (mapping 1).ctl.descs.map (fun d => (List.range d.segment).mapM fun i => (d.buf.find? (·.1 = i)).map (·.2)) =
        [some [0]]) := by decide +kernel

/-- A LOAD's fragment is to be written in bank 0 of slice 63. -/
def putJob63 : Job :=
  { req := 9, purpose := .clear 0, slice := 63, offset := 0, row := 5, chunks := [0], words := List.replicate 128 0, skip := [] }
def putting : State := up fun c => { c with jobs := [putJob63] }
/-- A PERMUTE runs in the network. -/
def permuting : Desc := { at0 .run [8, 0x70100, 0x20001, 0, 0x10000, 0, 0x10000, 0, 5, 0] with phase := 1, dst := some (tab1 1) }
def permState : State := ready0 permuting [] fun c => { c with
  net := { c.net with mode := 1, passesLeft := 256 }, power := { c.power with pace := 2047 } }
/-- A word is in the network in addressed mode. -/
def addrState : State := up fun c =>
  (c.modNet fun x => { x with mode := 2, passesLeft := 1, flits := [⟨0, 0, 0, 0, .frag (.operand 0 0) 0, true, none, false⟩] }).modPower
    fun p => { p with pace := 2047 }
/-- A SCATTER whose only window is merged. -/
def scattering : Desc := { at0 .run [6, 0, 0x30001, 0x20000, 0x10000, 0, 0x20000, 0, 0x10000, 0, 0, 128] with
  dst := some (tab1 1), srcs := [⟨0, 1, tab1 1, [0]⟩], aux := [(0, 2)] }

theorem wit_RoundsPassesWaves :
    (putting.takes (.round (.bank 63 0) [9] [] []) = true ∧ putting.ctl.requests (.bank 63 0) 9 = true ∧
      putting.ctl.mayGrant = true ∧ 9 < (putting.ctl.arb (.bank 63 0)).reqs.length) ∧
    (permState.takes (.pass []) = true ∧ permState.ctl.net.passesLeft ≠ 0 ∧ permState.ctl.mayBeat .network = true ∧
      permState.ctl.permHead = some permuting ∧ permState.ctl.passReady permuting = true) ∧
    (addrState.takes (.pass []) = true ∧ addrState.ctl.mayBeat .network = true ∧
      ∃ f ∈ addrState.ctl.net.flits, f.injected = true) ∧
    ((ready0 scattering).takes (.waveClose 0 0) = true ∧ (ready0 scattering).ctl.desc? k0 = some scattering ∧
      scattering.kind ∈ [6, 7] ∧ scattering.ordered = true ∧
      (ready0 scattering).ctl.waveClosed scattering scattering.prog = true ∧
      (ready0 scattering).ctl.oldestWave scattering = scattering.prog) := by decide +kernel

/-- The port of slice 63. -/
def port63 (p : Port) : State := up fun c => c.modPort 63 fun _ => p
/-- A READY port with a request up, and with a beat outstanding. -/
def asking : Port := { Port.reset with state := .ready, present := true, opReq := some 0, queue := [⟨k0, 0, 0, false⟩] }
def owing : Port := { Port.reset with state := .ready, present := true, outst := [⟨63, ⟨k0, 0, 0, false⟩, 0⟩], wDeadline := some 0 }

theorem wit_PortBeats :
    ((port63 asking).takes (.operandBeat 63) = true ∧ ((port63 asking).ctl.port 63).opReq.isSome = true ∧
      ((port63 asking).ctl.port 63).queue = ⟨k0, 0, 0, false⟩ :: [] ∧
      (∀ x ∈ (port63 asking).ctl.descs, (port63 asking).ctl.calm x.domain = true)) ∧
    ({ port63 owing with ctl := (port63 owing).ctl.modPower fun p => { p with pace := 2047 } }.takes
        (.resultBeat 63 (encodeCw 63) (List.replicate 128 0)) = true ∧
      { port63 owing with ctl := (port63 owing).ctl.modPower fun p => { p with pace := 2047 } }.ctl.startDawn.mayBeat (.result 63) =
        true ∧ ((port63 owing).ctl.port 63).wReq = none ∧
      decodeCw (encodeCw 63) = .ok 63 ∧ decodeCw (encodeCw 62) = .ok 62 ∧ fld (63 : Word) 0 6 = 63 ∧ fld (62 : Word) 0 6 ≠ 63 ∧
      ((port63 owing).ctl.port 63).outst = ⟨63, ⟨k0, 0, 0, false⟩, 0⟩ :: []) ∧
    ((port63 asking).takes (.ackTimeout 63) = true ∧ (port63 asking).ctl.sliceDue 63 0 = true) ∧
    ((port63 owing).takes (.wTimeout 63) = true ∧ ((port63 owing).ctl.port 63).wDeadline = some 0 ∧
      ((port63 owing).ctl.port 63).outst ≠ []) := by decide +kernel

/-- A port in its roll call, its fourth word awaited, or its first. -/
def rolling (i tries : Nat) (w : Word) : Port :=
  { Port.reset with state := .rolling, present := true, rcIdx := i, rcTries := tries, rcWords := List.replicate i w }

theorem wit_RollCall :
    (up.takes (.rollCall 63) = true ∧ up.ctl.pstate ∉ [2, 4, 5] ∧ (up.ctl.port 63).state = .absent ∧ up.ctl.isIn 63 = true) ∧
    (∀ x ∈ [(0, (0 : Word)), (3, 0), (3, 16)], (port63 (rolling x.1 0 x.2)).takes (.rollCallWord 63 (encodeCw x.2)) = true ∧
      ((port63 (rolling x.1 0 x.2)).ctl.port 63).state = .rolling) ∧
    (decodeCw (encodeCw 0) = .ok 0 ∧ decodeCw (encodeCw 16) = .ok 16 ∧ decodeCw 3 = .uncorrectable ∧
      (port63 (rolling 3 0 16)).ctl.classPorts 16 [.ready, .quiescing] = []) ∧
    (∀ t ∈ [1, 2], (port63 (rolling 0 t 0)).takes (.rollCallWord 63 3) = true ∧
      ((port63 (rolling 0 t 0)).ctl.port 63).state = .rolling) ∧
    ((port63 (rolling 0 0 0)).takes (.rollTimeout 63) = true ∧
      (port63 (rolling 0 0 0)).ctl.sliceDue 63 ((port63 (rolling 0 0 0)).ctl.port 63).rcDeadline = true) ∧
    ((port63 owing).takes (.presentLow 63) = true ∧ (port63 owing).ctl.pstate ≠ 4 ∧
      ((port63 owing).ctl.port 63).state ∈ [.ready, .quiescing] ∧ ((port63 owing).ctl.port 63).outst ≠ [] ∧
      ((port63 { Port.reset with state := .ready }).ctl.port 63).outst = []) := by decide +kernel

theorem wit_PortControl :
    (up.reaches (.portReset 63 0) 0 (rPORT_CTL 63) = true ∧
      ∀ s ∈ [on fun c => { c with inService := [] }.modPort 63 fun p => { p with state := .gone, cause := 7 }],
        s.reaches (.portReset 63 0) 0 (rPORT_CTL 63) = true ∧ (s.ctl.port 63).state = .gone ∧ (s.ctl.port 63).cause = 7 ∧
        s.ctl.isIn 63 = false) ∧
    (up.reaches (.quiesceSet 63 0) 0 (rPORT_CTL 63) = true ∧ ((port63 asking).ctl.port 63).state = .ready) ∧
    (up.reaches (.quiesceClear 63 0) 0 (rPORT_CTL 63) = true ∧
      ((port63 { asking with state := .quiescing }).ctl.port 63).state ∈ [.quiescing, .quiesced]) ∧
    (up.reaches (.portFenceSet 63 0) 0 (rPORT_CTL 63) = true) ∧
    (up.reaches (.portFenceClear 63 0) 0 (rPORT_CTL 63) = true ∧
      ((port63 { Port.reset with state := .fenced }).ctl.port 63).state = .fenced) := by decide +kernel

/-- A SERVICE descriptor: its number and operands; running under the MSQ in a phase. -/
def svcDesc (st : Stage) (n : Nat) (ws : List Word) : Desc := at0 st ([15, word (n * 256)] ++ ws)
def serving (n : Nat) (ws : List Word) (f : Svc → Svc) (g : Msq → Msq := id) : State := ready0 (svcDesc .run n ws) [] fun c =>
  c.modMsq fun m => g { m with state := 2, svc := some (f (Svc.start (some k0) n 1)) }
/-- The running service, for a phase. -/
def svcAt (n ph : Nat) (f : Svc → Svc := id) : Svc := f { Svc.start (some k0) n 1 with phase := ph }

theorem wit_ServicesRun_start : ∀ x ∈ [(1, 1, [(0x700000 : Word), 0, 320, 0x10]), (3, 2, [0x700000, 0, 0, 0, 0, 0, 1]),
      (3, 1, [0x700000, 0, 0, 0, 0, 0, 1])],
    ∀ s ∈ [ready0 (svcDesc .check x.1 x.2.2) [] fun c => c.modMsq fun m => { m with state := x.2.1 }],
    ∀ d ∈ [svcDesc .check x.1 x.2.2],
    s.takes (.serviceStart 0) = true ∧ s.ctl.admits 0 15 d ∧ s.ctl.formCheck d = none ∧ s.ctl.msq.svc = none ∧
      s.ctl.autoDue = false ∧ s.ctl.msq.state = x.2.1 ∧ s.ctl.issuing = true ∧ fld (d.w 1) 8 8 = x.1 ∧
      (∀ e ∈ s.ctl.descs, ¬ (e.kind = 15 ∧ e.stage = .wait)) := by unfold Ctl.admits; decide +kernel

theorem wit_ServicesRun_load : ∀ a ∈ [0x700000, 0x700001],
    (serving 1 [word a, 0, 320, 0x10] id).takes .imageLoad = true ∧
    (serving 1 [word a, 0, 320, 0x10] id).ctl.runsService 1 (svcAt 1 0) (svcDesc .run 1 [word a, 0, 320, 0x10]) ∧
    (serving 1 [word a, 0, 320, 0x10] id).ctl.calm 0 = true := by unfold Ctl.runsService; decide +kernel

theorem wit_ServicesRun_hash : ∀ b ∈ [false, true],
    (serving 1 [0, 0, 320, 0x20] fun v => { v with phase := 2, broken := b }).takes .imageHashDone = true ∧
    (serving 1 [0, 0, 320, 0x20] fun v => { v with phase := 2, broken := b }).ctl.runsService 1
      (svcAt 1 2 fun v => { v with broken := b }) (svcDesc .run 1 [0, 0, 320, 0x20]) ∧
    (serving 1 [0, 0, 320, 0x20] fun v => { v with phase := 2, broken := b }).ctl.msq.pkeDeadline = none ∧
    (serving 1 [0, 0, 320, 0x20] fun v => { v with phase := 2, broken := b }).ctl.msq.pkeOwed = none := by
  unfold Ctl.runsService; decide +kernel

theorem wit_ServicesRun_drop : (serving 2 [0, 0, 0, 0x2F] id).takes .imageDrop = true ∧
    (serving 2 [0, 0, 0, 0x2F] id).ctl.runsService 2 (svcAt 2 0) (svcDesc .run 2 [0, 0, 0, 0x2F]) := by
  unfold Ctl.runsService; decide +kernel

theorem wit_ServicesRun_firmware : ∀ x ∈ [(Instr.keySchedule, 3, 0, 0), (.keySchedule, 3, 3, 1), (.relayoutBulk, 4, 0, 0),
      (.relayoutBulk, 4, 1, 0), (.relayoutBulk, 4, 1, 1), (.defrag, 5, 0, 0)],
    (serving x.2.1 [] fun v => { v with phase := x.2.2.1, rows := x.2.2.2 }).takes x.1 = true ∧
    (serving x.2.1 [] fun v => { v with phase := x.2.2.1, rows := x.2.2.2 }).ctl.runsService x.2.1
      (svcAt x.2.1 x.2.2.1 fun v => { v with rows := x.2.2.2 }) (svcDesc .run x.2.1 []) ∧
    (serving x.2.1 [] fun v => { v with phase := x.2.2.1, rows := x.2.2.2 }).ctl.images = [] ∧
    (serving x.2.1 [] fun v => { v with phase := x.2.2.1, rows := x.2.2.2 }).ctl.calm 0 = true := by
  unfold Ctl.runsService; decide +kernel

/-- DEFRAG finds no fragmented name; with name 9 displaced it finds that. -/
def defragging : State := serving 5 [] id fun m => m
def displaced9 : State := { defragging with ctl := { defragging.ctl with names := [(9, { live1 with displaced := true })] } }

theorem wit_ServicesRun_defrag :
    (defragging.ctl.defragVisit 1 = none ∧ bit ((svcDesc .run 5 []).w 5) 0 = false) ∧
    (displaced9.takes .defrag = true ∧ displaced9.ctl.runsService 5 (svcAt 5 0) (svcDesc .run 5 []) ∧
      displaced9.ctl.defragVisit 1 = some 9 ∧ displaced9.ctl.migrating 9 = false ∧
      (displaced9.ctl.defragPlace 9 0).isSome = true) := by
  unfold Ctl.runsService; decide +kernel

/-- Recalibration with windows. -/
def recal (l : List (Int × Int × Int)) (n p : Nat) : State := on fun c =>
  c.modMsq fun m => { m with state := 2, svc := some { Svc.start none 6 n with phase := 1, samples := l, periods := p } }

theorem wit_Recalibration :
    (∀ x ∈ [([((4 : Int), (4 : Int), (4 : Int)), (4, 4, 4)], false, true), ([(4, 0, 4), (0, 4, 4)], true, true),
        ([(4, 0, 40), (0, 4, 40)], true, false)],
      (recal x.1 2 0).takes .recalibrate = true ∧ spreadOk x.1 = x.2.1 ∧
      (x.2.1 = true → (ratioOk (fitOf x.1).1 (fitOf x.1).2.2 && ratioOk (fitOf x.1).2.1 (fitOf x.1).2.2) = x.2.2)) ∧
    ((recal [] 4 16).takes .recalNoMeas = true ∧ ([] : List (Int × Int × Int)).length < 4 ∧ 4 * 4 ≤ 16) ∧
    (on fun c => put [(rMSQ_CTL, 0x100)] (c.modMsq fun m => { m with state := 2, recalPending := true })).ctl.autoDue = true := by
  decide +kernel

theorem wit_SequencerAndPke :
    ((on fun c => c.modMsq fun m => { m with state := 3 }).reaches (.msqRestart 0) 0 rMSQ_CTL = true) ∧
    ((on fun c => c.modMsq fun m => { m with state := 2, watchdog := some 0 }).takes .watchdog = true ∧
      (on fun c => c.modMsq fun m => { m with state := 2, watchdog := some 0 }).ctl.pstate ≠ 4) ∧
    ((on fun c => c.modMsq fun m => { m with pkeOwed := some 0 }).takes (.pkeOutcome 7) = true ∧
      (on fun c => c.modMsq fun m => { m with pkeOwed := some 0 }).takes .pkeFurtherWaitEnd = true) := by decide +kernel

theorem wit_SequencerAndPke_load : ∀ ty ∈ [0x10, 0x20, 0x30],
    ∀ s ∈ [serving 1 [0, 0, 320, word ty] (fun v => { v with phase := 4 }) fun m => { m with pkeDeadline := some 0 }],
    s.takes (.pkeOutcome 3) = true ∧ s.ctl.msq.pkeOwed = none ∧ s.ctl.msq.pkeDeadline = some 0 ∧
      s.ctl.runsService 1 (svcAt 1 4) (svcDesc .run 1 [0, 0, 320, word ty]) ∧ s.takes .pkeTimeout = true ∧ 0 ≤ s.ctl.refTicks ∧
      s.ctl.pstate ≠ 4 := by unfold Ctl.runsService; decide +kernel

/-- PRIV_MASTER is 1; in a pair, or not. -/
def trusted (rs : List (Nat × Word)) : State := withRegs ([(rTRUST_STATUS, 0x80010000)] ++ rs)
/-- Joined as instance 0 with instance 1 up; aliases owned by identity 1; entry 15 makes name 9 an alias for domain 0. -/
def joinRegs : List (Nat × Word) := [(rQUOIN_CTL, 0x01030001), (rQUOIN_STATUS, 0x00020001), (rQUOIN_ALIAS_A 15, 0x81010009),
  (rQUOIN_ALIAS_B 15, 0)]
/-- A PERMUTE to the alias, waiting for the answer; sent; waiting for the acknowledgement. -/
def aliasPerm (st : Stage) (ph : Nat) (sig : Bool) : Desc :=
  { at0 st [8, 0x70100, 0x90001, 0, 0x10000, 0, 0x10000, 0, 5, 0] with viaLink := some 0, phase := ph, sigWait := sig }
def aliasing (d : Desc) : State := ready0 d joinRegs fun c => c.modLink 0 fun l => { l with alive := true, asked := true, deadline := some 0 }

theorem wit_JoiningAndAliases :
    ((trusted []).reaches (.join 1 0x00030001) 1 rQUOIN_CTL = true ∧ (trusted []).ctl.mbPriv 1 = true ∧
      bit (0x00030001 : Word) 0 = true ∧ (trusted []).ctl.joined = false ∧
      (trusted []).ctl.linksGated = false ∧
      (∀ l < 3, ((trusted []).ctl.link l).peer = none ∧ ((trusted []).ctl.link l).owed = []) ∧
      bit ((trusted [(rPAIR_STATUS, 0x80000000)]).ctl.reg rPAIR_STATUS) 31 = true) ∧
    ((withRegs [(rQUOIN_CTL, 0x00030001)]).takes (.joinWord 0 0x31) = true ∧
      bit ((withRegs [(rQUOIN_CTL, 0x00030001)]).ctl.reg rQUOIN_CTL) 0 = true ∧ fld (0x31 : Word) 0 2 ≠ 0 ∧
      (withRegs [(rQUOIN_CTL, 0x00030001)]).ctl.linksGated = false ∧ (withRegs [(rQUOIN_CTL, 0x00030001)]).ctl.joinWords = [] ∧
      bit ((withRegs [(rQUOIN_CTL, 0x00030001)]).ctl.reg rQUOIN_CTL) 17 = true ∧
      bit ((withRegs [(rQUOIN_CTL, 0x00030001)]).ctl.reg rQUOIN_CTL) 18 = false) ∧
    ((withRegs joinRegs).reaches (.quoinAliasWrite 15 true 1 0) 1 (rQUOIN_ALIAS_B 15) = true ∧
      (withRegs joinRegs).ctl.aliasAllowed 1 = true) ∧
    ((withRegs joinRegs).takes (.aliasQuery 2 16383) = true ∧ (withRegs joinRegs).ctl.joined = true ∧
      (withRegs joinRegs).ctl.linksGated = false ∧ ((withRegs joinRegs).ctl.link 2).owed = []) ∧
    ((aliasing (aliasPerm .run 0 false)).takes (.linkDown 0) = true ∧
      ((aliasing (aliasPerm .run 0 false)).ctl.link 0).deadline = some 0) := by decide +kernel

theorem wit_JoiningAndAliases_answer :
    (aliasing (aliasPerm .check 0 false)).takes (.aliasAnswer 0 0x80000001 0x10000 0) = true ∧
    ((aliasing (aliasPerm .check 0 false)).ctl.link 0).asked = true ∧
    (aliasing (aliasPerm .check 0 false)).ctl.descs.find? (fun d => d.stage = .check && d.viaLink = some 0) =
      some (aliasPerm .check 0 false) ∧
    (aliasPerm .check 0 false).dRef = some ⟨9, 9, 6⟩ ∧ (aliasing (aliasPerm .check 0 false)).ctl.quoinEntry 9 = some 15 ∧
    (aliasing (aliasPerm .check 0 false)).ctl.rf (rQUOIN_ALIAS_B 15) 16 6 = 0 ∧ fld (0x80000001 : Word) 24 6 = 0 ∧
    fld (0x81000001 : Word) 24 6 ≠ 0 ∧
    ((aliasing (aliasPerm .check 0 false)).ctl.check3 (aliasPerm .check 0 false)
        (fun t => if t.role = 9 then some 0x10000 else ((aliasing (aliasPerm .check 0 false)).ctl.recorded t).map (·.1)) <|>
      (aliasing (aliasPerm .check 0 false)).ctl.check4 (aliasPerm .check 0 false)
        (fun t => if t.role = 9 then some (0x10000, 0) else (aliasing (aliasPerm .check 0 false)).ctl.recorded t) <|>
      (aliasing (aliasPerm .check 0 false)).ctl.routeChecks (aliasPerm .check 0 false) <|>
      (aliasing (aliasPerm .check 0 false)).ctl.poisonCheck (aliasPerm .check 0 false)) = none := by decide +kernel

/-- An incoming transfer on link 0 for name 1, its fragment there or not, its incarnation stale or not. -/
def incoming (done : List Nat) (i : Nat) : Incoming :=
  { name := 1, inc := BitVec.ofNat 16 i, table := some (tab1 1), units := 0, doneFrags := done }
def receiving (x : Incoming) : State := ready0 (at0 .final []) joinRegs fun c => c.modNet fun n => { n with incoming := [(0, x)] }

theorem wit_AliasTransfers :
    ((receiving (incoming [] 1)).takes (.quoinData 0 0 (List.replicate 2048 0)) = true ∧
      (receiving (incoming [] 1)).takes (.quoinData 0 4095 (List.replicate 2048 0)) = true ∧
      (receiving (incoming [] 1)).ctl.net.incoming.find? (·.1 = 0) = some (0, incoming [] 1) ∧ (tab1 1).frags ≠ [] ∧
      0 % 4096 = (incoming [] 1).units % 4096 ∧ 4095 % 4096 ≠ (incoming [] 1).units % 4096) ∧
    ((aliasing (aliasPerm .peer 2 false)).takes (.ready 0) = true ∧
      (aliasing (aliasPerm .peer 2 false)).ctl.aliasSent 0 = some (aliasPerm .peer 2 false) ∧
      (aliasing (aliasPerm .peer 2 false)).ctl.desc? k0 = some (aliasPerm .peer 2 false) ∧
      (aliasing (aliasPerm .peer 2 false)).ctl.linksGated = false ∧
      ((aliasing (aliasPerm .peer 2 false)).ctl.link 0).owed = [] ∧
      (aliasing (aliasPerm .peer 2 false)).takes (.resend 0) = true ∧ (aliasPerm .peer 2 false).sigWait = false) ∧
    (∀ i ∈ [0, 1], (receiving (incoming [0] i)).takes (.commitWord 0) = true ∧
      (receiving (incoming [0] i)).ctl.net.incoming.find? (·.1 = 0) = some (0, incoming [0] i) ∧
      (tab1 1).count ≤ (incoming [0] i).doneFrags.length ∧ ((receiving (incoming [0] i)).ctl.name 1).live = true) ∧
    ((aliasing (aliasPerm .peer 2 true)).takes (.quoinCommitAck 0) = true ∧
      (aliasing (aliasPerm .peer 2 true)).ctl.aliasSent 0 = some (aliasPerm .peer 2 true) ∧
      (aliasPerm .peer 2 true).sigWait = true ∧ (aliasing (aliasPerm .peer 2 true)).ctl.paired = false) := by decide +kernel

theorem wit_PairForming :
    (∀ r ∈ [[(rCONTRACT_SEL, (0x10100 : Word))], [(rCONTRACT_SEL, 0x100), (rQUOIN_STATUS, 1)], [(rCONTRACT_SEL, 0x100)]],
      (withRegs r).reaches (.pairCtlWrite 0 0x111) 0 rPAIR_CTL = true ∧ bit ((withRegs r).ctl.reg rPAIR_STATUS) 31 = false ∧
      (withRegs r).ctl.linksGated = false ∧ (∀ l < 3, ((withRegs r).ctl.link l).owed = [])) ∧
    ((withRegs [(rPAIR_CTL, 0x101)]).ctl.linksGated = false ∧ (withRegs [(rPAIR_CTL, 0x101)]).takes (.pairWord (withRegs [(rPAIR_CTL, 0x101)]).ctl.pairLink 0x4001 0x100) = true ∧
      bit ((withRegs [(rPAIR_CTL, 0x101)]).ctl.reg rPAIR_CTL) 0 = true ∧
      bit ((withRegs [(rPAIR_CTL, 0x101)]).ctl.reg rPAIR_STATUS) 31 = false ∧ fld (0x4001 : Word) 8 7 = 64) := by decide +kernel

/-- A pair with a signature of its own held, or waiting for the peer's; halted or not. -/
def pairing (d : Desc) (g : List Sig) (halted : Bool) : State := ready0 d pairRegs fun c =>
  { (if halted then c.raise rPAIR_STATUS 30 else c) with sigs := g }
def sig0 : Sig := { ring := 0, idx := 0, row := none, local_ := some 7, peer := none, deadline := 0 }

/-- A LOAD held at its comparison: of its commit, or of a status that it proposes. -/
def comparing (p : Bool) : Desc := { written 2 1 1 with stage := .peer, sigWait := true, proposed := p }

theorem wit_PairRunning :
    (∀ p ∈ [false, true], ∀ s ∈ [pairing (comparing p) [sig0] false],
      s.takes (.signature s.ctl.pairLink 0 0 0 7 0) = true ∧ s.takes (.signature s.ctl.pairLink 0 0 0 8 0) = true ∧
      s.ctl.paired = true ∧ s.ctl.halted = false ∧ sig0 = s.ctl.sigFor 0 0 none ∧ s.ctl.gone 0 0 = false ∧
      s.ctl.descs.find? (fun e => e.key.ring = 0 && e.key.idx = 0 && e.stage = .peer && e.sigWait) = some (comparing p) ∧
      s.ctl.desc? k0 = some (comparing p) ∧ (comparing p).writes.all (s.ctl.incarnationOk (comparing p)) = true) ∧
    (∀ s ∈ [pairing (at0 .run [2]) [{ sig0 with row := some 1023 }] false],
      s.takes (.signature s.ctl.pairLink 0x83FF0000 0 0 7 0) = true ∧ bit (0x83FF0000 : Word) 31 = true ∧
      (s.ctl.sigFor 0 0 (some (fld (0x83FF0000 : Word) 16 10))).local_ = some 7 ∧ s.ctl.gone 0 0 = false ∧
      s.ctl.rowOwner 0 0 = none) ∧
    ((pairing (at0 .run [2]) [] false).takes (.outcome (pairing (at0 .run [2]) [] false).ctl.pairLink 0x0140 0 0 0) = true ∧
      (pairing (at0 .run [2]) [] false).ctl.desc? k0 = some (at0 .run [2]) ∧
      reconciled (fld (0x0140 : Word) 0 8) = true ∧ fld (0x0140 : Word) 0 8 ≠ 0x20) ∧
    ((pairing (at0 .run [2]) [] false).takes (.halt (pairing (at0 .run [2]) [] false).ctl.pairLink 7) = true) ∧
    ((pairing (at0 .run [2]) [sig0] false).takes .peerSilent = true ∧ sig0 ∈ (pairing (at0 .run [2]) [sig0] false).ctl.sigs ∧
      sig0.peer = none ∧ sig0.deadline ≤ (pairing (at0 .run [2]) [sig0] false).ctl.refTicks ∧
      (pairing (at0 .run [2]) [sig0] false).ctl.pstate ≠ 4 ∧ (pairing (at0 .run [2]) [sig0] false).ctl.linksGated = false ∧
      ((pairing (at0 .run [2]) [sig0] false).ctl.link (pairing (at0 .run [2]) [sig0] false).ctl.pairLink).owed = []) ∧
    ((pairing (at0 .run [2]) [] true).reaches (.pairRetry 0) 0 rPAIR_CMD = true ∧
      (pairing (at0 .run [2]) [] true).ctl.paired = true ∧ (pairing (at0 .run [2]) [] true).ctl.halted = true ∧
      (pairing (at0 .run [2]) [] true).reaches (.pairSolo 0) 0 rPAIR_CMD = true) := by decide +kernel

theorem wit_PowerStates :
    ((State.reset.reaches (.reqNight 0) 0 rPSTATE_CTL = true ∧ State.reset.reaches (.reqEvening 0) 0 rPSTATE_CTL = true ∧
      bit (State.reset.ctl.reg rPAIR_STATUS) 31 = false ∧ State.reset.ctl.joined = false ∧ State.reset.ctl.pstate = 0 ∧
      State.reset.ctl.toNight = false ∧
      bit ((withRegs [(rPAIR_STATUS, 0x80000000)]).ctl.reg rPAIR_STATUS) 31 = true)) ∧
    ((withRegs [(rPSTATE_STATUS, 4)]).reaches (.reqActive 0) 0 rPSTATE_CTL = true ∧
      (withRegs [(rPSTATE_STATUS, 4)]).ctl.pstate = 4 ∧ State.reset.takes .wake = true ∧
      State.reset.ctl.pstate ∉ [1, 2, 3, 4]) ∧
    (∀ st ∈ [1, 3], (withRegs [(rPSTATE_STATUS, word st)]).takes .entryDrained = true ∧
      (withRegs [(rPSTATE_STATUS, word st)]).ctl.drained = true ∧ (withRegs [(rPSTATE_STATUS, word st)]).ctl.power.quiet = true ∧
      (withRegs [(rPSTATE_STATUS, word st)]).ctl.memBusy = false ∧
      (∀ k < 64, ((withRegs [(rPSTATE_STATUS, word st)]).ctl.ring k).watch = .off)) ∧
    ((on fun c => { put [(rPSTATE_STATUS, 1)] c with power := { c.power with quiet := false, gate := 2 } }).ctl.drained = true) ∧
    ((withRegs [(rPSTATE_STATUS, 5)]).takes (.wakeComplete []) = true ∧ (withRegs [(rPSTATE_STATUS, 5)]).ctl.pstate = 5 ∧
      (withRegs [(rPSTATE_STATUS, 5)]).ctl.power.fromNight = false ∧
      (pow fun p => { p with fromNight := true }).ctl.power.vbusy = true) := by decide +kernel

theorem wit_SecdedCorrectsOneDetectsTwo : 38 < 39 ∧ 0 < 38 ∧
    decodeCw (encodeCw 5 ^^^ 1#39 <<< 38) = .corrected 5 ∧ decodeCw (encodeCw 5 ^^^ 1#39 <<< 37 ^^^ 1#39 <<< 38) = .uncorrectable := by
  decide +kernel

theorem wit_IndexMapsAreBijections :
    ((at0 .run [8, 0x20000, 0, 0, 0x10000, 0, 0x10000, 0, 1]).routeKind = 0 ∧
      ((List.range (at0 .run [8, 0x20000, 0, 0, 0x10000, 0, 0x10000, 0, 1]).log2n).map
        (at0 .run [8, 0x20000, 0, 0, 0x10000, 0, 0x10000, 0, 1]).bitMap).Perm (List.range 2) ∧
      3 < (at0 .run [8, 0x20000, 0, 0, 0x10000, 0, 0x10000, 0, 1]).segment) ∧
    ((at0 .run [8, 0x70100, 0, 0, 0x10000, 0, 0x10000, 0, 5]).routeKind = 1 ∧ bit (5 : Word) 0 = true ∧
      127 < (at0 .run [8, 0x70100, 0, 0, 0x10000, 0, 0x10000, 0, 5]).segment) := by decide +kernel


end Sys2Proof.Tests
end

/-!
SUPPORT. Bits of words, register accesses that take effect, and the settled statements about counter clears and about
REGISTER_WRITE.
-/
namespace Sys2Proof.Machine

/-! ### Bits of words -/

@[simp] theorem bit_zero (j : Nat) : bit 0#32 j = false := BitVec.getLsbD_zero

@[simp] theorem bit_and (a b : Word) (j : Nat) : bit (a &&& b) j = (bit a j && bit b j) := BitVec.getLsbD_and

@[simp] theorem bit_or (a b : Word) (j : Nat) : bit (a ||| b) j = (bit a j || bit b j) := BitVec.getLsbD_or

/-- Masking a word with a complement needs no bound on the bit's index: above the word every bit is clear. -/
theorem bit_and_not (a m : Word) (j : Nat) : bit (a &&& ~~~m) j = (bit a j && !bit m j) := by
  have hlt : bit a j = true → j < 32 := BitVec.lt_of_getLsbD
  cases ha : bit a j with
  | false => simp [ha]
  | true =>
    have hj : j < 32 := hlt ha
    rw [bit_and, ha]
    simp [bit, hj]

/-- Two access codes without a common bit. -/
theorem bit_false_of_and_eq_zero {a b : Word} (h : a &&& b = 0) {j : Nat} (ha : bit a j = true) : bit b j = false := by
  simpa [ha] using congrArg (bit · j) h

/-- The bits of the mask of a field. -/
theorem bit_fieldMask (lo n j : Nat) :
    bit (BitVec.ofNat 32 ((2 ^ n - 1) <<< lo)) j = (decide (j < 32) && decide (lo ≤ j ∧ j < lo + n)) := by
  have hn : lo ≤ j → (j - lo < n ↔ j < lo + n) := by omega
  by_cases hlo : lo ≤ j
  · simp [bit, BitVec.getLsbD_ofNat, hlo, hn]
  · simp [bit, BitVec.getLsbD_ofNat, hlo]

/-- A field set to zero loses its own bits and no others. -/
theorem bit_setFld_zero (w : Word) (lo n j : Nat) :
    bit (setFld w lo n 0) j = (bit w j && !decide (lo ≤ j ∧ j < lo + n)) := by
  have hlt : bit w j = true → j < 32 := BitVec.lt_of_getLsbD
  have hset : setFld w lo n 0 = w &&& ~~~(BitVec.ofNat 32 ((2 ^ n - 1) <<< lo)) := by simp [setFld]
  rw [hset, bit_and_not, bit_fieldMask]
  cases hw : bit w j with
  | false => rfl
  | true => simp [hlt hw]

/-! ### Accesses that take effect -/

/-- A register command that the block takes, with an access that is answered and allowed, has its effect alone. -/
theorem ctlStep_access_of_reaches {s : State} {i : Instr} {id : Byte} {off : Nat} (h : s.reaches i id off = true)
    {allowed : Ctl → Bool} (ha : allowed s.ctl = true) (f : Ctl → Ctl) :
    ctlStep i s (fun c => c.access id off (allowed c) f) = .next { s with ctl := f s.ctl } := by
  simp only [State.reaches, Ctl.answers, Bool.and_eq_true, decide_eq_true_eq, Bool.not_eq_true'] at h
  obtain ⟨htakes, hid, hgate⟩ := h
  rw [ctlStep_takes _ htakes, ha, Ctl.access_ok f hid hgate]

/-- A register that every master may access needs the answer alone. -/
theorem ctlStep_open_of_reaches {s : State} {i : Instr} {id : Byte} {off : Nat} (h : s.reaches i id off = true)
    (f : Ctl → Ctl) : ctlStep i s (fun c => c.access id off true f) = .next { s with ctl := f s.ctl } :=
  ctlStep_access_of_reaches (allowed := fun _ => true) h rfl f

/-- A control state that differs in stored registers only, and there in the listed ones, meets the frame of a register
command. -/
theorem State.setsRegs_of_regs {s : State} {c : Ctl} {offs : List Nat} (hframe : c = { s.ctl with regs := c.regs })
    (hkeeps : s.ctl.keeps c offs) (v : Word) : s.setsRegs { s with ctl := { c with regRdata := v } } offs v := by
  refine ⟨?_, hkeeps⟩
  generalize c.regs = r at hframe
  subst hframe
  rfl

/-! ### Clears of registers -/

/-- Writing zero to registers keeps every other register. -/
theorem Ctl.keeps_zeroRegs (c : Ctl) (offs : List Nat) : c.keeps (c.zeroRegs offs) offs := fun o ho => by
  rw [Ctl.zeroRegs_reg, if_neg ho]

/-- The commands of `Instr.clears` write zero to the registers it lists. -/
theorem exec_of_clears {s : State} {i : Instr} {id : Byte} {off : Nat} {offs : List Nat}
    (hc : i.clears s.ctl.part = some (id, off, offs)) (hr : s.reaches i id off = true) :
    exec i s = .next { s with ctl := { s.ctl.zeroRegs offs with regRdata := 0 } } := by
  unfold Instr.clears at hc
  split at hc <;> cases hc <;> exact ctlStep_open_of_reaches hr _

theorem counterRegs_cleared {s : State} {i : Instr} {id : Byte} {off : Nat} {offs : List Nat}
    (hc : i.clears s.ctl.part = some (id, off, offs)) (hr : s.reaches i id off = true) :
    ∃ t, exec i s = .next t ∧ s.setsRegs t offs 0 ∧ ∀ o ∈ offs, t.ctl.reg o = 0 := by
  refine ⟨_, exec_of_clears hc hr,
    State.setsRegs_of_regs (Ctl.zeroRegs_frame offs s.ctl) (s.ctl.keeps_zeroRegs offs) 0, fun o ho => ?_⟩
  change (s.ctl.zeroRegs offs).reg o = 0
  rw [Ctl.zeroRegs_reg, if_pos ho]

/-- What INT_SLICE_CLEAR leaves in each register (Table 10.27). -/
theorem Ctl.clearIntSlice_reg (c : Ctl) (n o : Nat) :
    (c.clearIntSlice n).reg o =
      if o = rSLICE_HEALTH n then setFld (c.reg o) 8 8 0
      else if o ∈ [rCE_COUNT n, rUE_COUNT n, rSCRUB_PASSES n, rSCRUB_LAG n] then 0 else c.reg o := by
  have hne : rSLICE_HEALTH n ∉ [rCE_COUNT n, rUE_COUNT n, rSCRUB_PASSES n, rSCRUB_LAG n] := by simp
  rw [Ctl.clearIntSlice, Ctl.setRf_eq, Ctl.reg_setReg]
  by_cases ho : o = rSLICE_HEALTH n
  · rw [if_pos ho.symm, if_pos ho, ho, Ctl.zeroRegs_reg, if_neg hne]
  · rw [if_neg (Ne.symm ho), if_neg ho, Ctl.zeroRegs_reg]

theorem Ctl.clearIntSlice_frame (c : Ctl) (n : Nat) :
    c.clearIntSlice n = { c with regs := (c.clearIntSlice n).regs } := by
  rw [Ctl.clearIntSlice, Ctl.setRf_eq, Ctl.setReg, Ctl.zeroRegs_frame]

theorem intSliceRegs_cleared {s : State} {n : Nat} {id : Byte}
    (hr : s.reaches (.intSliceClear n id) id (rINT_SLICE_CLEAR n) = true) :
    ∃ t, exec (.intSliceClear n id) s = .next t ∧
      s.setsRegs t [rCE_COUNT n, rUE_COUNT n, rSCRUB_PASSES n, rSCRUB_LAG n, rSLICE_HEALTH n] 0 ∧
      (∀ o ∈ [rCE_COUNT n, rUE_COUNT n, rSCRUB_PASSES n, rSCRUB_LAG n], t.ctl.reg o = 0) ∧
      ∀ j, bit (t.ctl.reg (rSLICE_HEALTH n)) j = (bit (s.ctl.reg (rSLICE_HEALTH n)) j && !(8 ≤ j && j < 16)) := by
  have hreg := s.ctl.clearIntSlice_reg n
  refine ⟨_, ctlStep_open_of_reaches hr _,
    State.setsRegs_of_regs (s.ctl.clearIntSlice_frame n) (fun o ho => ?_) 0, fun o ho => ?_, fun j => ?_⟩
  · simp only [List.mem_cons, List.not_mem_nil, or_false, not_or] at ho
    obtain ⟨hce, hue, hpasses, hlag, hhealth⟩ := ho
    simp [hreg, hhealth, hce, hue, hpasses, hlag]
  · have hne : o ≠ rSLICE_HEALTH n := by
      rintro rfl
      simp at ho
    change (s.ctl.clearIntSlice n).reg o = 0
    rw [hreg, if_neg hne, if_pos ho]
  · change bit ((s.ctl.clearIntSlice n).reg (rSLICE_HEALTH n)) j = _
    rw [hreg, if_pos rfl, bit_setFld_zero, Bool.decide_and]

/-! ### Clears of arbiter counters -/

/-- The arbiters of the block whose counters ARB_BSEL selects: every channel's, or the mode arbiter's (Table 9.11). -/
theorem Ctl.clearBlockArbs_eq (c : Ctl) :
    c.clearBlockArbs = { c with
      arbs := c.arbs.map fun p =>
        if (c.rf rARB_BSEL 8 2 = 0 ∧ ∃ ch < c.part.channels, p.1 = arbKey (.channel ch)) ∨
            (c.rf rARB_BSEL 8 2 = 1 ∧ p.1 = arbKey .mode) then (p.1, p.2.cleared) else p } := by
  unfold Ctl.clearBlockArbs Ctl.clearCounters
  split
  next hsel => simp [hsel, arbKey, eq_comm]
  next hsel => simp [hsel, arbKey]
  next hchannel hmode =>
    have hsel : c.rf rARB_BSEL 8 2 ≠ 0 ∧ c.rf rARB_BSEL 8 2 ≠ 1 := ⟨hchannel, hmode⟩
    simp [hsel]

/-! ### Writes by access codes -/

/-- A register without a rule of its own is written by its access codes. -/
theorem Ctl.writeReg_eq_writeFields {c : Ctl} {off : Nat} {d : Word} {r : RegRow} (hl : c.listed off = some r)
    (hb : c.writeBlock off d = none) (hw : c.writeWindow off d = none) : c.writeReg off d = c.writeFields r off d := by
  simp [Ctl.writeReg, hl, hb, hw]

/-- Bit by bit, what a write by disjoint access codes stores (Table 0.4). -/
theorem Ctl.bit_writeFields (c : Ctl) {r : RegRow} (off : Nat) (d : Word)
    (hrwC : r.rw &&& r.w1c = 0) (hrwlC : r.rwl &&& r.w1c = 0) (hrwS : r.rw &&& r.w1s = 0) (hrwlS : r.rwl &&& r.w1s = 0)
    (hCS : r.w1c &&& r.w1s = 0) (j : Nat) :
    bit ((c.writeFields r off d).reg off) j =
      if bit r.rw j || bit r.rwl j then bit d j
      else if bit r.w1c j then bit (c.reg off) j && !bit d j
      else if bit r.w1s j then bit (c.reg off) j || bit d j
      else bit (c.reg off) j := by
  rw [Ctl.writeFields, Ctl.reg_setReg_self, bit_or, bit_and_not, bit_or, bit_and_not]
  simp only [bit_and, bit_or]
  cases hrw : bit r.rw j with
  | true => simp [bit_false_of_and_eq_zero hrwC hrw, bit_false_of_and_eq_zero hrwS hrw]
  | false =>
    cases hrwl : bit r.rwl j with
    | true => simp [bit_false_of_and_eq_zero hrwlC hrwl, bit_false_of_and_eq_zero hrwlS hrwl]
    | false =>
      cases hw1c : bit r.w1c j with
      | true => simp [bit_false_of_and_eq_zero hCS hw1c]
      | false => cases hw1s : bit r.w1s j <;> simp

/-! ### The settled statements -/

/-- Settles O7: each clear is an access that takes effect, and its effect is read off the register or arbiter it leaves. -/
theorem counterClears : Obligations.CounterClears := by
  refine ⟨⟨fun _ _ _ _ _ _ _ hc hr => counterRegs_cleared hc hr, fun _ _ _ hr => intSliceRegs_cleared hr⟩, ?_, ?_, ?_⟩
  · exact fun _ _ _ hr => ctlStep_open_of_reaches hr _
  · intro s id hr
    have hexec : exec (.arbBcntClear id) s = .next { s with ctl := { s.ctl.clearBlockArbs with regRdata := 0 } } :=
      ctlStep_open_of_reaches hr _
    rw [hexec, Ctl.clearBlockArbs_eq]
  · exact fun _ _ hr => ctlStep_open_of_reaches hr _

/-- Settles O13: the write reaches `writeFields`, whose bits the access codes name. -/
theorem registerWriteByCode : Obligations.RegisterWriteByCode := by
  intro s off id d r hr hmay hctl hstep hl hb hw hrwC hrwlC hrwS hrwlS hCS
  have hexec : exec (.registerWrite off id d) s = .next { s with ctl := { s.ctl.writeAny off d with regRdata := 0 } } :=
    ctlStep_access_of_reaches (allowed := fun c => c.mayAccess id off true d) hr hmay _
  rw [Ctl.writeAny, if_neg hctl, if_neg hstep, Ctl.writeReg_eq_writeFields hl hb hw] at hexec
  refine ⟨_, hexec, State.setsRegs_of_regs rfl (fun o ho => ?_) 0,
    s.ctl.bit_writeFields off d hrwC hrwlC hrwS hrwlS hCS⟩
  exact Ctl.reg_setReg_ne _ _ (Ne.symm (by simpa using ho))

end Sys2Proof.Machine

/-!
SUPPORT. Fields of words, updates that touch stored registers alone, and the settled statement about the contract version.
-/
namespace Sys2Proof.Machine

/-! ### Fields of words -/

theorem testBit_fld (w : Word) (lo n j : Nat) : (fld w lo n).testBit j = (decide (j < n) && bit w (lo + j)) := by
  simp [fld, bit, Nat.testBit_mod_two_pow, BitVec.getLsbD]

/-- Two fields with the same bits are equal. -/
theorem fld_congr {a b : Word} {lo lo' n : Nat} (h : ∀ j < n, bit a (lo + j) = bit b (lo' + j)) :
    fld a lo n = fld b lo' n := by
  refine Nat.eq_of_testBit_eq fun j => ?_
  rw [testBit_fld, testBit_fld]
  by_cases hj : j < n
  · rw [h j hj]
  · simp [hj]

theorem bit_one_shiftLeft {i : Nat} (hi : i < 32) (j : Nat) : bit (1#32 <<< i) j = decide (j = i) := by
  rw [bit, BitVec.getLsbD_shiftLeft, BitVec.getLsbD_one, Bool.eq_iff_iff]
  simp
  omega

theorem bit_raised (w : Word) {i : Nat} (hi : i < 32) (j : Nat) :
    bit (w ||| 1#32 <<< i) j = (bit w j || decide (j = i)) := by
  rw [bit_or, bit_one_shiftLeft hi]

theorem bit_lowered (w : Word) {i : Nat} (hi : i < 32) (j : Nat) :
    bit (w &&& ~~~(1#32 <<< i)) j = (bit w j && !decide (j = i)) := by
  rw [bit_and_not, bit_one_shiftLeft hi]

/-- The bits of a word with a field replaced. -/
theorem bit_setFld (w : Word) (lo n v j : Nat) :
    bit (setFld w lo n v) j = if lo ≤ j ∧ j < lo + n then decide (j < 32) && v.testBit (j - lo) else bit w j := by
  have hout : ¬ j < 32 → bit w j = false := fun h => BitVec.getLsbD_of_ge w j (by omega)
  have hput : bit (BitVec.ofNat 32 (v <<< lo)) j = (decide (j < 32) && (decide (lo ≤ j) && v.testBit (j - lo))) := by
    simp [bit, BitVec.getLsbD_ofNat]
  rw [setFld, bit_or, bit_and_not, bit_and, bit_fieldMask, hput]
  by_cases hj : lo ≤ j ∧ j < lo + n
  · by_cases h32 : j < 32
    · simp [hj, h32]
    · simp [hj, h32, hout h32]
  · simp [hj]

/-- A replaced field reads what was put. -/
theorem fld_setFld_same (w : Word) {lo n : Nat} (v : Nat) (h : lo + n ≤ 32) : fld (setFld w lo n v) lo n = v % 2 ^ n := by
  refine Nat.eq_of_testBit_eq fun j => ?_
  rw [testBit_fld, Nat.testBit_mod_two_pow, bit_setFld]
  by_cases hj : j < n
  · have h32 : lo + j < 32 := by omega
    simp [hj, h32]
  · simp [hj]

/-- A field apart from the replaced one reads as before. -/
theorem fld_setFld_apart (w : Word) {lo n lo' n' : Nat} (v : Nat) (h : lo' + n' ≤ lo ∨ lo + n ≤ lo') :
    fld (setFld w lo n v) lo' n' = fld w lo' n' :=
  fld_congr fun j hj => by rw [bit_setFld, if_neg (by omega)]

/-! ### Single bits and fields of stored registers -/

theorem Ctl.reg_raise (c : Ctl) (off i o : Nat) :
    (c.raise off i).reg o = if off = o then c.reg off ||| 1#32 <<< i else c.reg o := by
  rw [Ctl.raise_eq, Ctl.reg_setReg]

theorem Ctl.reg_lower (c : Ctl) (off i o : Nat) :
    (c.lower off i).reg o = if off = o then c.reg off &&& ~~~(1#32 <<< i) else c.reg o := by
  rw [Ctl.lower_eq, Ctl.reg_setReg]

theorem Ctl.reg_setRf (c : Ctl) (off lo n v o : Nat) :
    (c.setRf off lo n v).reg o = if off = o then setFld (c.reg off) lo n v else c.reg o := by
  rw [Ctl.setRf_eq, Ctl.reg_setReg]

/-! ### Updates of stored registers alone -/

/-- `c'` is `c` but for the stored registers listed. -/
def Ctl.SetsOnly (c c' : Ctl) (offs : List Nat) : Prop := c' = { c with regs := c'.regs } ∧ c.keeps c' offs

theorem Ctl.SetsOnly.refl (c : Ctl) (offs : List Nat) : c.SetsOnly c offs := ⟨rfl, fun _ _ => rfl⟩

theorem Ctl.SetsOnly.trans {c c' c'' : Ctl} {offs : List Nat} (h : c.SetsOnly c' offs) (h' : c'.SetsOnly c'' offs) :
    c.SetsOnly c'' offs := by
  refine ⟨?_, fun o ho => (h'.2 o ho).trans (h.2 o ho)⟩
  rw [h'.1, h.1]

theorem Ctl.SetsOnly.setReg (c : Ctl) {off : Nat} {offs : List Nat} (v : Word) (h : off ∈ offs) :
    c.SetsOnly (c.setReg off v) offs :=
  ⟨rfl, fun _ ho => Ctl.reg_setReg_ne c v fun e => ho (e ▸ h)⟩

/-- Such an update is the effect of a register command. -/
theorem Ctl.SetsOnly.setsRegs {s : State} {c : Ctl} {offs : List Nat} (h : s.ctl.SetsOnly c offs) (v : Word) :
    s.setsRegs { s with ctl := { c with regRdata := v } } offs v := State.setsRegs_of_regs h.1 h.2 v

/-! ### The contract version (R38) -/

/-- CONTRACT_SEL once the write of `d` has cleared SEL_ERR where it asks for it (R16). -/
def Ctl.clearSelErr (c : Ctl) (d : Word) : Ctl := if bit d 17 then c.lower rCONTRACT_SEL 17 else c

theorem Ctl.clearSelErr_setsOnly (c : Ctl) (d : Word) : c.SetsOnly (c.clearSelErr d) [rCONTRACT_SEL] := by
  unfold Ctl.clearSelErr
  split
  · exact .setReg c _ (by simp)
  · exact .refl c _

theorem Ctl.bit_clearSelErr (c : Ctl) (d : Word) (j : Nat) :
    bit ((c.clearSelErr d).reg rCONTRACT_SEL) j = (bit (c.reg rCONTRACT_SEL) j && !(decide (j = 17) && bit d 17)) := by
  unfold Ctl.clearSelErr
  split
  next h => rw [Ctl.reg_lower, if_pos rfl, bit_lowered _ (by decide), h, Bool.and_true]
  next h => simp [h]

/-- The versions that the part supports follow from CONTRACT_CAP. -/
theorem Ctl.supports_clearSelErr (c : Ctl) (d : Word) (major minor : Nat) :
    (c.clearSelErr d).supports major minor = c.supports major minor := by
  have hcap : (c.clearSelErr d).reg rCONTRACT_CAP = c.reg rCONTRACT_CAP :=
    (c.clearSelErr_setsOnly d).2 rCONTRACT_CAP (by simp)
  rw [Ctl.supports, Ctl.supports, Ctl.rf, Ctl.rf, hcap]

theorem Ctl.writeContract_locked {c : Ctl} (d : Word) (h : bit (c.reg rCONTRACT_SEL) 16 = true) :
    c.writeContract d = c := if_pos h

theorem Ctl.writeContract_open {c : Ctl} (d : Word) (h : bit (c.reg rCONTRACT_SEL) 16 = false) :
    c.writeContract d =
      if c.supports (fld d 8 8) (fld d 0 8) then (c.clearSelErr d).setRf rCONTRACT_SEL 0 16 (fld d 0 16)
      else (c.clearSelErr d).raise rCONTRACT_SEL 17 := by
  rw [← c.supports_clearSelErr d]
  exact if_neg (by simp [h])

theorem Ctl.writeContract_setsOnly (c : Ctl) (d : Word) : c.SetsOnly (c.writeContract d) [rCONTRACT_SEL] := by
  cases h : bit (c.reg rCONTRACT_SEL) 16 with
  | true =>
    rw [Ctl.writeContract_locked d h]
    exact .refl c _
  | false =>
    rw [Ctl.writeContract_open d h]
    refine (c.clearSelErr_setsOnly d).trans ?_
    split <;> exact .setReg _ _ (by simp)

/-- A supported version is taken (R38). -/
theorem Ctl.writeContract_supported {c : Ctl} {d : Word} (h : bit (c.reg rCONTRACT_SEL) 16 = false)
    (hs : c.supports (fld d 8 8) (fld d 0 8) = true) :
    (c.writeContract d).reg rCONTRACT_SEL = setFld ((c.clearSelErr d).reg rCONTRACT_SEL) 0 16 (fld d 0 16) := by
  rw [Ctl.writeContract_open d h, if_pos hs, Ctl.reg_setRf, if_pos rfl]

/-- An unsupported version sets SEL_ERR (R38). -/
theorem Ctl.writeContract_unsupported {c : Ctl} {d : Word} (h : bit (c.reg rCONTRACT_SEL) 16 = false)
    (hs : c.supports (fld d 8 8) (fld d 0 8) = false) :
    (c.writeContract d).reg rCONTRACT_SEL = (c.clearSelErr d).reg rCONTRACT_SEL ||| 1#32 <<< 17 := by
  rw [Ctl.writeContract_open d h, if_neg (by simp [hs]), Ctl.reg_raise, if_pos rfl]

/-- A field that lies in a replaced one reads from what was put. -/
theorem fld_setFld_fld (w d : Word) {lo n : Nat} (h : lo + n ≤ 16) : fld (setFld w 0 16 (fld d 0 16)) lo n = fld d lo n :=
  fld_congr fun j hj => by
    have hin : lo + j < 16 := by omega
    have h32 : lo + j < 32 := by omega
    simp [bit_setFld, testBit_fld, hin, h32]

/-- Settles O10: the write leaves every other register, and CONTRACT_SEL by the case of its version. -/
theorem contractSelection : Obligations.ContractSelection := by
  intro s id d hr
  refine ⟨_, ctlStep_open_of_reaches hr _, (s.ctl.writeContract_setsOnly d).setsRegs 0, fun hlock => ?_,
    fun hopen hs => ?_, fun hopen hs => ?_⟩
  · change (s.ctl.writeContract d).reg rCONTRACT_SEL = _
    rw [Ctl.writeContract_locked d hlock]
  · have hreg := Ctl.writeContract_supported hopen hs
    change fld ((s.ctl.writeContract d).reg rCONTRACT_SEL) 8 8 = _ ∧ fld ((s.ctl.writeContract d).reg rCONTRACT_SEL) 0 8 = _ ∧
      bit ((s.ctl.writeContract d).reg rCONTRACT_SEL) 17 = _
    rw [hreg]
    refine ⟨fld_setFld_fld _ d (by omega), fld_setFld_fld _ d (by omega), ?_⟩
    rw [bit_setFld, if_neg (by omega), Ctl.bit_clearSelErr]
    simp
  · have hreg := Ctl.writeContract_unsupported hopen hs
    change fld ((s.ctl.writeContract d).reg rCONTRACT_SEL) 0 16 = _ ∧ bit ((s.ctl.writeContract d).reg rCONTRACT_SEL) 17 = _
    rw [hreg]
    refine ⟨fld_congr fun j hj => ?_, ?_⟩
    · have hne : 0 + j ≠ 17 := by omega
      rw [bit_raised _ (by decide), Ctl.bit_clearSelErr, decide_eq_false hne]
      simp
    · rw [bit_raised _ (by decide)]
      simp

end Sys2Proof.Machine

/-!
SUPPORT. Windows of registers, reads of stored registers, and the settled statement about the interval counters.
-/
namespace Sys2Proof.Machine

/-! ### Windows of registers -/

theorem windowIdx_add {base stride count n r : Nat} (hr : r < stride) (hn : n < count) :
    windowIdx base stride count (base + stride * n + r) = some n := by
  have hoff : base + stride * n + r - base = r + stride * n := by omega
  have hdiv : (base + stride * n + r - base) / stride = n := by
    rw [hoff, Nat.add_mul_div_left _ _ (by omega), Nat.div_eq_of_lt hr, Nat.zero_add]
  have hbase : base ≤ base + stride * n + r := by omega
  simp [windowIdx, hdiv, hn, hbase]

/-- No window that ends below an offset holds it. -/
theorem windowIdx_below {off a base stride count : Nat} (h : a ≤ off) (hs : 0 < stride) (hend : base + stride * count ≤ a) :
    windowIdx base stride count off = none := by
  have hdiv : count ≤ (off - base) / stride := by
    rw [Nat.le_div_iff_mul_le hs, Nat.mul_comm]
    omega
  simp [windowIdx, hdiv]

/-- No register that lies below an offset stands there. -/
theorem eq_below {off a r : Nat} (h : a ≤ off) (hr : r < a) : (off = r) = False := by
  simp
  omega

/-! ### TICK_HI is a stored register -/

/-- What follows from other state at an offset in the windows of the slices is a slice's. -/
theorem Ctl.derived_slices (c : Ctl) {off : Nat} (h : 0xA0000 ≤ off) : c.derived off = c.readSlices off := by
  have hglobal : c.readGlobal off = none := by
    simp (disch := decide) only [Ctl.readGlobal, eq_below h, if_false, windowIdx_below h]
  have hring : c.readRing off = none := by
    simp (disch := decide) only [Ctl.readRing, windowIdx_below h]
  have hks : c.readKs off = none := by
    simp (disch := decide) only [Ctl.readKs, eq_below h, if_false]
  have hnet : c.readNet off = none := by
    simp (disch := decide) only [Ctl.readNet, eq_below h, if_false]
  have hmem : c.readMem off = none := by
    simp (disch := decide) only [Ctl.readMem, eq_below h, if_false]
  have harb : c.readArb off = none := by
    simp (disch := decide) only [Ctl.readArb, windowIdx_below h]
  have hint : c.readInt off = none := by
    simp (disch := decide) only [Ctl.readInt, eq_below h, if_false]
  have hpwr : c.readPwr off = none := by
    simp (disch := decide) only [Ctl.readPwr, eq_below h, if_false, windowIdx_below h]
  have hmsq : c.readMsq off = none := by
    simp (disch := decide) only [Ctl.readMsq, eq_below h, if_false]
  rw [Ctl.derived, hglobal, hring, hks, hnet, hmem, harb, hint, hpwr, hmsq]
  rfl

theorem tickHi_above (n : Nat) : 0xA0000 ≤ rTICK_HI n := Nat.le_add_right_of_le (by decide)

theorem windowIdx_tickHi {n : Nat} (hn : n < 64) : windowIdx 0xA0000 0x400 64 (rTICK_HI n) = some n := by
  have hoff : rTICK_HI n = 0xA0000 + 0x400 * n + 4 := Nat.add_right_comm 0xA0000 4 (0x400 * n)
  rw [hoff, windowIdx_add (by decide) hn]

theorem Ctl.derived_tickHi (c : Ctl) {n : Nat} (hn : n < 64) : c.derived (rTICK_HI n) = none := by
  rw [c.derived_slices (tickHi_above n), Ctl.readSlices, windowIdx_tickHi hn]
  simp [Ctl.readSliceReg]

theorem Ctl.readEffect_tickHi (c : Ctl) {n : Nat} (hn : n < 64) : c.readEffect (rTICK_HI n) = c := by
  have harb : windowIdx 0x50000 0x100 64 (rTICK_HI n) = none :=
    windowIdx_below (tickHi_above n) (by decide) (by decide)
  simp (disch := decide) only [Ctl.readEffect, eq_below (tickHi_above n), if_false, harb, windowIdx_tickHi hn]
  simp

theorem regRow?_tickHi : ∀ n < 64, (regRow? (rTICK_HI n)).isSome = true := by decide +kernel

theorem slices_le_64 (p : Part) : p.slices ≤ 64 := by cases p <;> decide

theorem Ctl.listed_tickHi {c : Ctl} {n : Nat} (hn : n < c.slicesN) : (c.listed (rTICK_HI n)).isSome = true := by
  have hn64 : n < 64 := hn.trans_le (slices_le_64 c.part)
  have hwin : windowIdx 0x50000 0x100 64 (rTICK_HI n) = none := windowIdx_below (tickHi_above n) (by decide) (by decide)
  have hin : ¬ c.slicesN ≤ n := by omega
  simp [Ctl.listed, windowIdx_tickHi hn64, hwin, hin, regRow?_tickHi n hn64]

/-- A read of TICK_HI answers what is stored and changes nothing else (R34). -/
theorem Ctl.readReg_tickHi {c : Ctl} {n : Nat} (hn : n < c.slicesN) :
    c.readReg (rTICK_HI n) = { c with regRdata := c.reg (rTICK_HI n) } := by
  have hn64 : n < 64 := hn.trans_le (slices_le_64 c.part)
  obtain ⟨r, hr⟩ := Option.isSome_iff_exists.mp (Ctl.listed_tickHi hn)
  have hvalue : c.readValue (rTICK_HI n) = c.reg (rTICK_HI n) := by
    simp (disch := decide) only [Ctl.readValue, hr, eq_below (tickHi_above n), if_false, c.derived_tickHi hn64,
      Option.getD_none]
  rw [Ctl.readReg, hr]
  simp only [c.readEffect_tickHi hn64, hvalue]

/-! ### Reads of the interval counters (R34, R49) -/

/-- Every identity may read a register of the slices (Table 14.7). -/
theorem Ctl.mayAccess_read_tickHi (c : Ctl) (id : Byte) {n : Nat} (hn : n < 64) (d : Word) :
    c.mayAccess id (rTICK_HI n) false d = true := by
  have hlow : rTICK_HI n < 0xF0000 := by
    change 0xA0004 + 0x400 * n < 0xF0000
    omega
  have hmail : windowIdx 0x80000 0x10 16 (rTICK_HI n) = none := windowIdx_below (tickHi_above n) (by decide) (by decide)
  rw [Ctl.mayAccess, if_neg (by omega), hmail]
  rfl

/-- WX_REGACC ends a test in the boundary register, which may begin the hold before RESUME and changes nothing else
(R428). -/
theorem Ctl.setWir_regacc (c : Ctl) : c.setWir 0x10 = { c with wir := 0x10, power := (c.setWir 0x10).power } := by
  have hset : c.setWir 0x10 = if c.inTest then ({ c with wir := 0x10 } : Ctl).startHold else { c with wir := 0x10 } := by
    simp [Ctl.setWir, Ctl.inTest]
  rw [hset]
  split
  · unfold Ctl.startHold
    split <;> rfl
  · rfl

/-- A read by WX_REGACC that is allowed and answered (R429). -/
theorem exec_wxRegacc_read {s : State} {dr : BitVec 59} {off : Nat} (htakes : s.takes (.wxRegacc dr) = true)
    (hread : dr.getLsbD 18 = false) (hoff : 4 * (dr.extractLsb' 0 18).toNat = off)
    (hmay : (s.ctl.setWir 0x10).mayAccess (dr.extractLsb' 19 8) off false (dr.extractLsb' 27 32) = true)
    (hans : (s.ctl.setWir 0x10).answers (dr.extractLsb' 19 8) off = true) :
    exec (.wxRegacc dr) s = .next { s with ctl := (s.ctl.setWir 0x10).readReg off } := by
  simp only [Ctl.answers, Bool.and_eq_true, decide_eq_true_eq, Bool.not_eq_true'] at hans
  obtain ⟨hid, hgate⟩ := hans
  have harm : exec (.wxRegacc dr) s = execWxRegacc dr s := rfl
  rw [harm, execWxRegacc, ctlStep_takes _ htakes]
  simp only [hoff, hread, hmay, Ctl.access_ok _ hid hgate, Bool.false_eq_true, if_false]

/-- Settles O9: WX_REGACC reads TICK_HI as a stored register, and the two latching reads store what the counter shows. -/
theorem tickLowReadLatchesHigh : Obligations.TickLowReadLatchesHigh := by
  refine ⟨fun s n dr hn htakes hread hoff hans => ?_, fun s n id hr => ?_, fun s id hr => ?_⟩
  · have hwir := s.ctl.setWir_regacc
    have hreg : (s.ctl.setWir 0x10).reg (rTICK_HI n) = s.ctl.reg (rTICK_HI n) := by rw [hwir]; rfl
    have hans' : (s.ctl.setWir 0x10).answers (dr.extractLsb' 19 8) (rTICK_HI n) = true := by rw [hwir]; exact hans
    have hn' : n < (s.ctl.setWir 0x10).slicesN := by rw [hwir]; exact hn
    have hmay := (s.ctl.setWir 0x10).mayAccess_read_tickHi (dr.extractLsb' 19 8) (hn.trans_le (slices_le_64 s.ctl.part))
      (dr.extractLsb' 27 32)
    refine ⟨_, exec_wxRegacc_read htakes hread hoff hmay hans', ?_⟩
    simp only [Ctl.readReg_tickHi hn', hreg, and_true]
    rw [hwir]
  · exact ⟨_, ctlStep_open_of_reaches hr _, (Ctl.SetsOnly.setReg s.ctl _ (by simp)).setsRegs _,
      Ctl.reg_setReg_self s.ctl (rTICK_HI n) _⟩
  · exact ⟨_, ctlStep_open_of_reaches hr _, (Ctl.SetsOnly.setReg s.ctl _ (by simp)).setsRegs _,
      Ctl.reg_setReg_self s.ctl rREF_TICK_HI _⟩

end Sys2Proof.Machine

/-!
SUPPORT. A state that refutes the statement about time: with a slice in service that the part does not have, the port of that
slice shares its bucket with the network.
-/
namespace Sys2Proof.Machine

/-! ### A port that the part does not have -/

/-- The key of the one descriptor of `strayState`. -/
def strayKey : Key := { ring := 0, idx := 0, sub := 0 }

/-- A TILE_OP without operands that runs, with port 128 in its port group. -/
def strayDesc : Desc := { Desc.fetched strayKey 0 [1] with stage := .run, group := [128] }

/-- Port 0 is READY, has a fragment assigned, and shows a result although no beat is outstanding (Table 5.7). -/
def strayPort : Port :=
  { Port.reset with state := .ready, queue := [{ key := strayKey, row := 0, block := 0 }], wReq := some (0, []) }

/-- The reset state with slices 0 and 128 in service, both of their ports READY, the block not quiet. -/
def strayState : State :=
  { State.reset with ctl := { State.reset.ctl with
      inService := [0, 128], descs := [strayDesc],
      slices := [(0, { Slice.reset with port := strayPort }),
        (128, { Slice.reset with port := { Port.reset with state := .ready } })],
      power := { State.reset.ctl.power with quiet := false, gate := 16 } } }

theorem strayState_takes : strayState.takes .subTick = true ∧ strayState.ctl.sequenced = false ∧
    strayState.ctl.pstate ≠ 4 ∧ strayState.ctl.subTick < 16 ∧ 128 ∈ strayState.ctl.bucketNumbers := by decide +kernel

/-- Port 0 leaves with cause 4, its fragment goes to port 128, and the request there takes a token of bucket 128. -/
theorem strayState_bucket : Tab.get 0 strayState.ctl.subTickNow.buckets 128 = 584 := by decide +kernel

theorem strayState_gain : min (Tab.get 0 strayState.ctl.buckets 128) 1024 +
    (if strayState.ctl.paceNow.passive = true then 0 else strayState.ctl.paceNow.power.added) = 600 := by decide +kernel

theorem exec_subTick {s : State} (htakes : s.takes .subTick = true) (hseq : s.ctl.sequenced = false)
    (hnight : s.ctl.pstate ≠ 4) : exec .subTick s = .next { s with ctl := s.ctl.subTickNow } := by
  have harm : exec .subTick s = execSubTick s := rfl
  rw [harm, execSubTick, ctlStep_takes _ htakes, if_neg (by simp [hseq, hnight])]

/-- Refutes O32 by an ill-formed state: the statement admits a slice in service that the part does not have, and the operand
bucket of port 128 is the network's bucket, from which a beat follows at once. -/
theorem not_timeAdvances : ¬ Obligations.TimeAdvances := by
  intro h
  obtain ⟨htakes, hseq, hnight, hsub, hbucket⟩ := strayState_takes
  obtain ⟨t, hexec, -, -, hgain⟩ := h.2 strayState htakes hseq hnight hsub
  rw [exec_subTick htakes hseq hnight] at hexec
  cases hexec
  have h128 := hgain 128 hbucket (Nat.le_refl 128)
  rw [strayState_gain] at h128
  exact absurd (h128.symm.trans strayState_bucket) (by decide)

end Sys2Proof.Machine

/-!
SUPPORT. Bursts that find no translation cached, and the index, watch and retire bursts of a ring whose domain has none.
-/
namespace Sys2Proof.Machine

/-- What holds of a state and of every state an operation leads to holds after the operation for each element. -/
theorem Ctl.each_induction {α : Type} {P : Ctl → Prop} {f : Ctl → α → Ctl} (hf : ∀ c a, P c → P (f c a)) :
    ∀ (l : List α) {c : Ctl}, P c → P (c.each l f)
  | [], _, h => h
  | a :: l, c, h => Ctl.each_induction hf l (hf c a h)

/-! ### Bursts that find no translation cached -/

/-- No translation of domain `D` is cached, and every burst that needs a translation is of domain `D`. -/
structure Ctl.Misses (c : Ctl) (D : Nat) : Prop where
  uncached : ∀ x ∈ c.xlates, x.domain ≠ D
  needs : ∀ b ∈ c.mem.bursts, b.state = .need → b.domain = D

/-- `c'` is `c` but for the memory path, what it drives, and ATC_MISSES. -/
structure Ctl.Walks (c c' : Ctl) : Prop where
  frame : c' = { c with regs := c'.regs, mem := c'.mem, outbox := c'.outbox }
  keeps : c.keeps c' [rATC_MISSES]

theorem Ctl.Walks.refl (c : Ctl) : c.Walks c := ⟨rfl, fun _ _ => rfl⟩

theorem Ctl.Walks.trans {c c' c'' : Ctl} (h : c.Walks c') (h' : c'.Walks c'') : c.Walks c'' :=
  ⟨by rw [h'.frame, h.frame], fun o ho => (h'.keeps o ho).trans (h.keeps o ho)⟩

theorem Ctl.walks_modMem (c : Ctl) (f : Mem → Mem) : c.Walks (c.modMem f) := ⟨rfl, fun _ _ => rfl⟩

theorem Ctl.Misses.of_calm {c : Ctl} {D : Nat} (h : c.calm D = true) : c.Misses D := by
  simp only [Ctl.calm, Bool.and_eq_true, List.all_eq_true, decide_eq_true_eq] at h
  exact ⟨h.2, fun b hb hneed => absurd hneed (h.1 b hb)⟩

/-- Which bursts miss depends on the memory path alone. -/
theorem Ctl.Misses.congr {c c' : Ctl} {D : Nat} (h : c.Misses D) (hm : c'.mem = c.mem) : c'.Misses D :=
  ⟨by rw [Ctl.xlates, hm]; exact h.uncached, by rw [hm]; exact h.needs⟩

theorem Ctl.Misses.cached_eq_none {c : Ctl} {D : Nat} (h : c.Misses D) (page : Nat) : c.cached D page = none := by
  refine List.find?_eq_none.mpr fun x hx => ?_
  simp [Xlate.covers, h.uncached x hx]

/-- A burst that no longer needs a translation. -/
theorem Ctl.Misses.modBurst {c : Ctl} {D : Nat} (h : c.Misses D) (p : BPurpose) {f : Burst → Burst}
    (hf : ∀ b, (f b).state ≠ .need) : (c.modBurst p f).Misses D := by
  refine ⟨h.uncached, fun b hb hneed => ?_⟩
  obtain ⟨e, he, rfl⟩ := List.mem_map.mp hb
  split at hneed
  next => exact absurd hneed (hf e)
  next hkeep => rw [if_neg hkeep]; exact h.needs e he hneed

theorem Ctl.Misses.startWalk {c : Ctl} {D : Nat} (h : c.Misses D) (b : Burst) : (c.startWalk b).Misses D :=
  ⟨h.uncached, h.needs⟩

theorem Ctl.walks_startWalk (c : Ctl) (b : Burst) : c.Walks (c.startWalk b) :=
  ⟨rfl, fun o ho => by
    have hne : rATC_MISSES ≠ o := Ne.symm (by simpa using ho)
    simp only [Ctl.startWalk, Ctl.emit_reg, Ctl.count_eq, Ctl.reg_setReg_ne _ _ hne, Ctl.modMem_reg]⟩

/-- A burst of an uncached domain starts a walk, waits for one, or stays as it is; where it needs none, it is ready (R239, R240,
R242). -/
theorem Ctl.translate_of_misses {c : Ctl} {D : Nat} (h : c.Misses D) (p : BPurpose) :
    (c.translate p).Misses D ∧ c.Walks (c.translate p) := by
  unfold Ctl.translate
  split
  next => exact ⟨h, .refl c⟩
  next b hb =>
    have hneed := List.find?_some hb
    simp only [Bool.and_eq_true, decide_eq_true_eq] at hneed
    rw [h.needs b (List.mem_of_find?_eq_some hb) hneed.2, h.cached_eq_none]
    split_ifs
    · exact ⟨h, .refl c⟩
    · exact ⟨h.modBurst p (by simp), c.walks_modMem _⟩
    · exact ⟨h.modBurst p (by simp), c.walks_modMem _⟩
    · exact ⟨(h.startWalk b).modBurst p (by simp), (c.walks_startWalk b).trans (Ctl.walks_modMem _ _)⟩
    · exact ⟨h, .refl c⟩

theorem Ctl.pump_of_misses {c : Ctl} {D : Nat} (h : c.Misses D) : c.pump.Misses D ∧ c.Walks c.pump := by
  refine Ctl.each_induction (P := fun e => e.Misses D ∧ c.Walks e) (fun e p he => ?_) _ ⟨h, .refl c⟩
  obtain ⟨hm, hw⟩ := e.translate_of_misses he.1 p
  exact ⟨hm, he.2.trans hw⟩

theorem Ctl.request_of_misses {c : Ctl} {D : Nat} (h : c.Misses D) {bs : List Burst} (hbs : ∀ b ∈ bs, b.domain = D) :
    (c.request bs).Misses D ∧ c.Walks (c.request bs) := by
  have hadd : (c.addBursts bs).Misses D := by
    refine ⟨h.uncached, fun b hb hneed => ?_⟩
    rcases List.mem_append.mp hb with hb | hb
    · exact h.needs b hb hneed
    · exact hbs b hb
  obtain ⟨hm, hw⟩ := Ctl.pump_of_misses hadd
  exact ⟨hm, (c.walks_modMem _).trans hw⟩

/-! ### The index, watch and retire bursts of a ring -/

/-- What the index, watch and retire bursts of ring `k` keep: every register but ATC_MISSES, the descriptors, and of the ring where
it goes on and what it holds. -/
structure Ctl.RingKeeps (c c' : Ctl) (k : Nat) : Prop where
  regs : c.keeps c' [rATC_MISSES]
  descs : c'.descs = c.descs
  starting : (c'.ring k).starting = (c.ring k).starting
  nextIdx : (c'.ring k).nextIdx = (c.ring k).nextIdx
  recFault : (c'.ring k).recFault = (c.ring k).recFault

theorem Ctl.RingKeeps.refl (c : Ctl) (k : Nat) : c.RingKeeps c k := ⟨fun _ _ => rfl, rfl, rfl, rfl, rfl⟩

theorem Ctl.RingKeeps.trans {c c' c'' : Ctl} {k : Nat} (h : c.RingKeeps c' k) (h' : c'.RingKeeps c'' k) :
    c.RingKeeps c'' k :=
  ⟨fun o ho => (h'.regs o ho).trans (h.regs o ho), h'.descs.trans h.descs, h'.starting.trans h.starting,
    h'.nextIdx.trans h.nextIdx, h'.recFault.trans h.recFault⟩

theorem Ctl.Walks.ringKeeps {c c' : Ctl} (h : c.Walks c') (k : Nat) : c.RingKeeps c' k := by
  have hrings : c'.rings = c.rings := by rw [h.frame]
  have hring : c'.ring k = c.ring k := by rw [Ctl.ring, hrings, Ctl.ring]
  exact ⟨h.keeps, by rw [h.frame], by rw [hring], by rw [hring], by rw [hring]⟩

theorem Ctl.ringKeeps_modRing (c : Ctl) (k : Nat) {f : Ring → Ring} (hs : ∀ r, (f r).starting = r.starting)
    (hn : ∀ r, (f r).nextIdx = r.nextIdx) (hf : ∀ r, (f r).recFault = r.recFault) : c.RingKeeps (c.modRing k f) k := by
  have hring : (c.modRing k f).ring k = f (c.ring k) := by rw [Ctl.modRing_ring, if_pos rfl]
  exact ⟨fun _ _ => rfl, rfl, by rw [hring, hs], by rw [hring, hn], by rw [hring, hf]⟩

theorem Ctl.RingKeeps.ringDomain {c c' : Ctl} {k : Nat} (h : c.RingKeeps c' k) : c'.ringDomain k = c.ringDomain k := by
  have hne : 0x10020 + 0x100 * k ≠ 0x4004C := by omega
  have hcfg : c'.reg (rRING_CFG k) = c.reg (rRING_CFG k) := h.regs _ (List.mem_singleton.not.mpr hne)
  rw [Ctl.ringDomain, Ctl.rf, hcfg]
  rfl

/-- The registers of a ring are among those kept. -/
theorem Ctl.RingKeeps.reg {c c' : Ctl} {k j base : Nat} (h : c.RingKeeps c' k) (hj : j < 64) (hbase : base ≤ 0x100FC) :
    c'.reg (base + 0x100 * j) = c.reg (base + 0x100 * j) := by
  have hne : base + 0x100 * j ≠ 0x4004C := by omega
  exact h.regs _ (List.mem_singleton.not.mpr hne)

/-- Every burst of ring `k` that needs a translation misses. -/
def Ctl.RingMisses (c : Ctl) (k : Nat) : Prop := c.Misses (c.ringDomain k)

/-- A ring notes something about itself and requests a burst of its own domain. -/
theorem Ctl.request_modRing {c : Ctl} {k : Nat} (h : c.RingMisses k) {f : Ring → Ring} (hf : c.RingKeeps (c.modRing k f) k)
    {b : Burst} (hb : b.domain = c.ringDomain k) :
    ((c.modRing k f).request [b]).RingMisses k ∧ c.RingKeeps ((c.modRing k f).request [b]) k := by
  have hm : (c.modRing k f).Misses (c.ringDomain k) := Ctl.Misses.congr h rfl
  obtain ⟨hreq, hwalk⟩ := Ctl.request_of_misses hm (bs := [b]) (by simpa using hb)
  have hkeep := hf.trans (hwalk.ringKeeps k)
  exact ⟨by rw [Ctl.RingMisses, hkeep.ringDomain]; exact hreq, hkeep⟩

theorem Ctl.RingMisses.modRing {c : Ctl} {k : Nat} (h : c.RingMisses k) (f : Ring → Ring) : (c.modRing k f).RingMisses k :=
  Ctl.Misses.congr h rfl

theorem Ctl.writeRetire_of_misses {c : Ctl} {k : Nat} (h : c.RingMisses k) :
    (c.writeRetire k).RingMisses k ∧ c.RingKeeps (c.writeRetire k) k := by
  have hf : c.RingKeeps (c.modRing k fun r => { r with retireOwed := false }) k :=
    c.ringKeeps_modRing k (fun _ => rfl) (fun _ => rfl) fun _ => rfl
  unfold Ctl.writeRetire
  split
  · dsimp only
    split
    · exact ⟨h.modRing _, hf⟩
    · exact Ctl.request_modRing h hf (by rfl)
  · exact ⟨h, .refl c k⟩

theorem Ctl.armWatch_of_misses {c : Ctl} {k : Nat} (h : c.RingMisses k) :
    (c.armWatch k).RingMisses k ∧ c.RingKeeps (c.armWatch k) k := by
  have hf : c.RingKeeps (c.modRing k fun r => { r with watch := .translating }) k :=
    c.ringKeeps_modRing k (fun _ => rfl) (fun _ => rfl) fun _ => rfl
  unfold Ctl.armWatch
  split
  · exact Ctl.request_modRing h hf (by rfl)
  · exact ⟨h, .refl c k⟩

theorem Ctl.readIndex_of_misses {c : Ctl} {k : Nat} (h : c.RingMisses k) :
    (c.readIndex k).RingMisses k ∧ c.RingKeeps (c.readIndex k) k := by
  have hf : c.RingKeeps (c.modRing k fun r => { r with reading := true }) k :=
    c.ringKeeps_modRing k (fun _ => rfl) (fun _ => rfl) fun _ => rfl
  unfold Ctl.readIndex
  split_ifs
  · exact ⟨h, .refl c k⟩
  · exact ⟨h.modRing _, c.ringKeeps_modRing k (fun _ => rfl) (fun _ => rfl) fun _ => rfl⟩
  · exact Ctl.request_modRing h hf (by rfl)

end Sys2Proof.Machine

/-!
SUPPORT. How a ring starts, and the settled statement about RING_ENABLE.
-/
namespace Sys2Proof.Machine

/-! ### Starting a ring (Table 4.2) -/

/-- The registers of a ring that goes on from RING_HEAD (Table 4.2 step 4). -/
def Ctl.startRegs (c : Ctl) (k : Nat) : Ctl :=
  ((((((c.raise rCONTRACT_SEL 16).raise (rRING_CTL k) 0).setRf (rRING_STATUS k) 8 4 0).setReg64 (rPI_SEEN_LO k)
    (rPI_SEEN_HI k) (c.reg64 (rRING_HEAD_LO k) (rRING_HEAD_HI k))).setReg (rDONE_COUNT k) 0).setReg (rFAIL_COUNT k) 0)

/-- A ring that goes on, before its retire index is written. -/
def Ctl.startState (c : Ctl) (k : Nat) : Ctl :=
  let c' := (c.startRegs k).modRing k fun r => { r with
    nextIdx := c.reg64 (rRING_HEAD_LO k) (rRING_HEAD_HI k), fetching := false, reading := false, pollDue := false,
    backDue := false, held := [], recFault := false, starting := true }
  c'.modRing k fun r => { r with ri := c'.lowestOpen k, retireOwed := true }

theorem Ctl.startRing_eq (c : Ctl) (k : Nat) :
    c.startRing k = if (((c.startState k).writeRetire k).ringDescs k).isEmpty then ((c.startState k).writeRetire k).runRing k
      else (c.startState k).writeRetire k := rfl

/-- The registers of the rings lie above those of the block. -/
theorem ringReg_eq_low {base r k : Nat} (h : r < base) : (base + 0x100 * k = r) = False :=
  eq_below (Nat.le_add_right base (0x100 * k)) h

theorem Ctl.reg_startRegs_contract (c : Ctl) (k : Nat) :
    (c.startRegs k).reg rCONTRACT_SEL = c.reg rCONTRACT_SEL ||| 1#32 <<< 16 := by
  simp (disch := decide) only [Ctl.startRegs, Ctl.reg_setReg, Ctl.setReg64, Ctl.reg_setRf, Ctl.reg_raise, ringReg_eq_low,
    if_true, if_false]

/-- What the registers of the ring read when it goes on. -/
theorem Ctl.reg_startRegs (c : Ctl) (k : Nat) {o : Nat} (ho : rCONTRACT_SEL < o) :
    (c.startRegs k).reg o =
      if rFAIL_COUNT k = o then 0 else if rDONE_COUNT k = o then 0
      else if rPI_SEEN_HI k = o then word (c.reg64 (rRING_HEAD_LO k) (rRING_HEAD_HI k) / 2 ^ 32)
      else if rPI_SEEN_LO k = o then word (c.reg64 (rRING_HEAD_LO k) (rRING_HEAD_HI k))
      else if rRING_STATUS k = o then setFld (c.reg (rRING_STATUS k)) 8 4 0
      else if rRING_CTL k = o then c.reg (rRING_CTL k) ||| 1#32 <<< 0 else c.reg o := by
  have hctl : ∀ base, rCONTRACT_SEL < base → rCONTRACT_SEL ≠ base + 0x100 * k := fun base h => by omega
  have hne : rCONTRACT_SEL ≠ o := by omega
  have hapart : rRING_CTL k ≠ rRING_STATUS k := by simp
  simp only [Ctl.startRegs, Ctl.reg_setReg, Ctl.setReg64, Ctl.reg_setRf, Ctl.reg_raise, if_neg hne,
    if_neg (hctl 0x10028 (by decide)), if_neg (hctl 0x1002C (by decide)), if_neg hapart]

theorem ringReg_above {base k : Nat} (h : rCONTRACT_SEL < base) : rCONTRACT_SEL < base + 0x100 * k :=
  Nat.lt_add_right _ h

theorem Ctl.ringState_startRegs (c : Ctl) (k : Nat) : (c.startRegs k).ringState k = c.ringState k := by
  have hreg : (c.startRegs k).reg (rRING_STATUS k) = setFld (c.reg (rRING_STATUS k)) 8 4 0 := by
    rw [c.reg_startRegs k (ringReg_above (by decide))]
    simp
  rw [Ctl.ringState, Ctl.rf, hreg, fld_setFld_apart _ _ (by omega), Ctl.ringState, Ctl.rf]

theorem Ctl.ringDomain_startRegs (c : Ctl) (k : Nat) : (c.startRegs k).ringDomain k = c.ringDomain k := by
  have hreg : (c.startRegs k).reg (rRING_CFG k) = c.reg (rRING_CFG k) := by
    rw [c.reg_startRegs k (ringReg_above (by decide))]
    simp
  rw [Ctl.ringDomain, Ctl.rf, hreg, Ctl.ringDomain, Ctl.rf]

/-- The two words of a 64-bit value in a LO and HI pair (R15). -/
theorem Ctl.words_reg64 (c : Ctl) (lo hi : Nat) : word (c.reg64 lo hi) = c.reg lo ∧ word (c.reg64 lo hi / 2 ^ 32) = c.reg hi := by
  have hlo := (c.reg lo).isLt
  refine ⟨BitVec.eq_of_toNat_eq ?_, BitVec.eq_of_toNat_eq ?_⟩
  · rw [BitVec.toNat_ofNat, Ctl.reg64]
    omega
  · have hhi := (c.reg hi).isLt
    rw [BitVec.toNat_ofNat, Ctl.reg64]
    omega

/-- The producer index starts at RING_HEAD. -/
theorem Ctl.piSeen_startRegs (c : Ctl) (k : Nat) :
    (c.startRegs k).piSeen k = c.reg64 (rRING_HEAD_LO k) (rRING_HEAD_HI k) := by
  obtain ⟨hlo, hhi⟩ := c.words_reg64 (rRING_HEAD_LO k) (rRING_HEAD_HI k)
  have hseenLo : (c.startRegs k).reg (rPI_SEEN_LO k) = c.reg (rRING_HEAD_LO k) := by
    rw [c.reg_startRegs k (ringReg_above (by decide)), hlo]
    simp
  have hseenHi : (c.startRegs k).reg (rPI_SEEN_HI k) = c.reg (rRING_HEAD_HI k) := by
    rw [c.reg_startRegs k (ringReg_above (by decide)), hhi]
    simp
  rw [Ctl.piSeen, Ctl.reg64, hseenLo, hseenHi, Ctl.reg64]

/-- Ring `k` is enabled, CONTRACT_SEL locked, and the ring goes on from RING_HEAD with its counters at 0 (R38, Table 4.2). -/
structure Ctl.GoesOn (c c' : Ctl) (k : Nat) : Prop where
  enable : bit (c'.reg (rRING_CTL k)) 0 = true
  locked : bit (c'.reg rCONTRACT_SEL) 16 = true
  piSeen : c'.piSeen k = c.reg64 (rRING_HEAD_LO k) (rRING_HEAD_HI k)
  nextIdx : (c'.ring k).nextIdx = c.reg64 (rRING_HEAD_LO k) (rRING_HEAD_HI k)
  done : c'.reg (rDONE_COUNT k) = 0
  failed : c'.reg (rFAIL_COUNT k) = 0
  recFault : (c'.ring k).recFault = false
  descs : c'.descs = c.descs

@[simp] theorem Ctl.startState_reg (c : Ctl) (k o : Nat) : (c.startState k).reg o = (c.startRegs k).reg o := by
  simp only [Ctl.startState, Ctl.modRing_reg]

theorem Ctl.startState_descs (c : Ctl) (k : Nat) : (c.startState k).descs = c.descs := by
  simp only [Ctl.startState, Ctl.modRing_descs]
  rfl

theorem Ctl.startState_mem (c : Ctl) (k : Nat) : (c.startState k).mem = c.mem := by
  simp only [Ctl.startState, Ctl.modRing_mem]
  rfl

theorem Ctl.startState_starting (c : Ctl) (k : Nat) : ((c.startState k).ring k).starting = true := by
  simp [Ctl.startState, Ctl.modRing_ring]

theorem Ctl.startState_goesOn (c : Ctl) (k : Nat) : c.GoesOn (c.startState k) k := by
  refine ⟨?_, ?_, ?_, ?_, ?_, ?_, ?_, c.startState_descs k⟩
  · rw [Ctl.startState_reg, c.reg_startRegs k (ringReg_above (by decide))]
    have hone : bit 1#32 0 = true := rfl
    simp [hone]
  · rw [Ctl.startState_reg, Ctl.reg_startRegs_contract, bit_raised _ (by decide)]
    simp
  · rw [← Ctl.piSeen_startRegs, Ctl.piSeen, Ctl.reg64, Ctl.startState_reg, Ctl.startState_reg, Ctl.piSeen, Ctl.reg64]
  · simp [Ctl.startState, Ctl.modRing_ring]
  · rw [Ctl.startState_reg, c.reg_startRegs k (ringReg_above (by decide))]
    simp
  · rw [Ctl.startState_reg, c.reg_startRegs k (ringReg_above (by decide))]
    simp
  · simp [Ctl.startState, Ctl.modRing_ring]

theorem Ctl.startState_misses {c : Ctl} {k : Nat} (h : c.RingMisses k) : (c.startState k).RingMisses k := by
  have hdomain : (c.startState k).ringDomain k = c.ringDomain k := by
    rw [← c.ringDomain_startRegs k, Ctl.ringDomain, Ctl.rf, Ctl.startState_reg, Ctl.ringDomain, Ctl.rf]
  rw [Ctl.RingMisses, hdomain]
  exact Ctl.Misses.congr h (c.startState_mem k)

/-- The bursts of the ring keep that it goes on. -/
theorem Ctl.GoesOn.keeps {c c' c'' : Ctl} {k : Nat} (h : c.GoesOn c' k) (hk : k < 64) (h' : c'.RingKeeps c'' k) :
    c.GoesOn c'' k := by
  have hcontract : c''.reg rCONTRACT_SEL = c'.reg rCONTRACT_SEL := h'.regs _ (by decide)
  refine ⟨?_, by rw [hcontract, h.locked], ?_, by rw [h'.nextIdx, h.nextIdx], ?_, ?_, by rw [h'.recFault, h.recFault],
    h'.descs.trans h.descs⟩
  · rw [h'.reg hk (by decide), h.enable]
  · rw [← h.piSeen, Ctl.piSeen, Ctl.reg64, h'.reg hk (by decide), h'.reg hk (by decide)]
    rfl
  · rw [h'.reg hk (by decide), h.done]
  · rw [h'.reg hk (by decide), h.failed]

/-- A ring that runs, before its watch is armed and its index read. -/
def Ctl.runState (c : Ctl) (k : Nat) : Ctl :=
  (c.putRingState k 1).modRing k fun r => { r with
    starting := false, gap := 0, polls := 0, interval := max 1 (c.rf (rRING_POLL k) 0 16) + 1 }

theorem Ctl.runRing_eq (c : Ctl) (k : Nat) : c.runRing k = ((c.runState k).armWatch k).readIndex k := rfl

theorem Ctl.reg_runState (c : Ctl) (k o : Nat) :
    (c.runState k).reg o = if rRING_STATUS k = o then setFld (c.reg (rRING_STATUS k)) 0 2 1 else c.reg o := by
  rw [Ctl.runState, Ctl.modRing_reg, Ctl.putRingState, Ctl.reg_setRf]

theorem Ctl.GoesOn.runState {c c' : Ctl} {k : Nat} (h : c.GoesOn c' k) : c.GoesOn (c'.runState k) k := by
  refine ⟨?_, ?_, ?_, ?_, ?_, ?_, ?_, h.descs⟩
  · simpa [Ctl.reg_runState] using h.enable
  · simp (disch := decide) only [Ctl.reg_runState, ringReg_eq_low, if_false, h.locked]
  · simpa [Ctl.piSeen, Ctl.reg64, Ctl.reg_runState] using h.piSeen
  · rw [Ctl.runState, Ctl.modRing_ring, if_pos rfl]
    exact h.nextIdx
  · simpa [Ctl.reg_runState] using h.done
  · simpa [Ctl.reg_runState] using h.failed
  · rw [Ctl.runState, Ctl.modRing_ring, if_pos rfl]
    exact h.recFault

theorem Ctl.RingMisses.runState {c : Ctl} {k : Nat} (h : c.RingMisses k) : (c.runState k).RingMisses k := by
  have hdomain : (c.runState k).ringDomain k = c.ringDomain k := by
    simp [Ctl.ringDomain, Ctl.rf, Ctl.reg_runState]
  rw [Ctl.RingMisses, hdomain]
  exact Ctl.Misses.congr h rfl

/-- Step 5 of Table 4.2 for a ring that goes on. -/
theorem Ctl.GoesOn.runRing {c c' : Ctl} {k : Nat} (h : c.GoesOn c' k) (hk : k < 64) (hm : c'.RingMisses k) :
    c.GoesOn (c'.runRing k) k ∧ (c'.runRing k).ringState k = 1 ∧ ((c'.runRing k).ring k).starting = false := by
  obtain ⟨hmArm, harm⟩ := Ctl.armWatch_of_misses hm.runState
  have hkeep := harm.trans (Ctl.readIndex_of_misses hmArm).2
  rw [Ctl.runRing_eq]
  refine ⟨h.runState.keeps hk hkeep, ?_, ?_⟩
  · rw [Ctl.ringState, Ctl.rf, hkeep.reg hk (by decide)]
    change fld ((c'.runState k).reg (rRING_STATUS k)) 0 2 = 1
    rw [Ctl.reg_runState, if_pos rfl, fld_setFld_same _ _ (by decide)]
    rfl
  · rw [hkeep.starting, Ctl.runState, Ctl.modRing_ring, if_pos rfl]

/-- Steps 4 and 5 of Table 4.2: the ring runs at once unless it holds records (R133). -/
theorem Ctl.startRing_spec {c : Ctl} {k : Nat} (hk : k < 64) (hm : c.RingMisses k) (hstate : c.ringState k = 0) :
    c.GoesOn (c.startRing k) k ∧ (c.startRing k).ringState k = (if c.ringDescs k = [] then 1 else 0) ∧
      ((c.startRing k).ring k).starting = !(c.ringDescs k).isEmpty := by
  obtain ⟨hmRetire, hretire⟩ := Ctl.writeRetire_of_misses (Ctl.startState_misses hm)
  have hgo := (c.startState_goesOn k).keeps hk hretire
  have hdescs : ((c.startState k).writeRetire k).ringDescs k = c.ringDescs k := by
    rw [Ctl.ringDescs, hgo.descs, Ctl.ringDescs]
  rw [Ctl.startRing_eq, hdescs]
  cases hheld : c.ringDescs k with
  | nil => simpa using hgo.runRing hk hmRetire
  | cons d ds =>
    have hstatus : ((c.startState k).writeRetire k).reg (rRING_STATUS k) = (c.startRegs k).reg (rRING_STATUS k) := by
      rw [hretire.reg hk (by decide), Ctl.startState_reg]
    have hzero : ((c.startState k).writeRetire k).ringState k = 0 := by
      rw [← hstate, ← c.ringState_startRegs k, Ctl.ringState, Ctl.rf, hstatus, Ctl.ringState, Ctl.rf]
    have hstarting : (((c.startState k).writeRetire k).ring k).starting = true := by
      rw [hretire.starting, Ctl.startState_starting]
    exact ⟨hgo, hzero, hstarting⟩

/-! ### RING_ENABLE -/

/-- Ring `k` is DISABLED, and not on its way to run. -/
def Ctl.Disabled (c : Ctl) (k : Nat) : Prop := c.ringState k = 0 ∧ (c.ring k).starting = false

/-- ENABLE of a ring that runs, drains or starts changes nothing. -/
theorem Ctl.enableRing_of_not_disabled {c : Ctl} {k : Nat} (h : c.ringState k ≠ 0 ∨ (c.ring k).starting = true) :
    c.enableRing k = c := if_pos (by simpa using h)

theorem Ctl.enableRing_of_disabled {c : Ctl} {k : Nat} (h : c.Disabled k) :
    c.enableRing k = if c.func = 1 then c.raise (rRING_CTL k) 0 else if c.ringConfigOk k then c.startRing k
      else (c.lower (rRING_CTL k) 0).setRf (rRING_STATUS k) 8 4 1 := if_neg (by simp [h.1, h.2])

/-- While a function reset of the rings runs, ENABLE reads 1 and nothing else happens (R393). -/
theorem Ctl.enableRing_deferred {c : Ctl} {k : Nat} (h : c.Disabled k) (hfunc : c.func = 1) :
    c.SetsOnly (c.enableRing k) [rRING_CTL k] ∧ (c.enableRing k).Disabled k ∧ (c.enableRing k).func = 1 ∧
      bit ((c.enableRing k).reg (rRING_CTL k)) 0 = true := by
  rw [Ctl.enableRing_of_disabled h, if_pos hfunc]
  refine ⟨.setReg c _ (by simp), ⟨?_, h.2⟩, hfunc, ?_⟩
  · simpa [Ctl.ringState, Ctl.rf, Ctl.reg_raise] using h.1
  · rw [Ctl.reg_raise, if_pos rfl, bit_raised _ (by decide)]
    simp

/-- ENABLE and the status of a ring are no part of its configuration. -/
theorem Ctl.SetsOnly.ringConfigOk {c c' : Ctl} {k : Nat} (h : c.SetsOnly c' [rRING_CTL k, rRING_STATUS k]) :
    c'.ringConfigOk k = c.ringConfigOk k := by
  have hreg : ∀ o ∈ [rRING_CFG k, rRING_BASE_LO k, rCPL_BASE_LO k, rPI_ADDR_LO k, rRETIRE_ADDR_LO k],
      c'.reg o = c.reg o := fun o ho => h.2 o (by
    simp only [List.mem_cons, List.not_mem_nil, or_false] at ho ⊢
    rcases ho with rfl | rfl | rfl | rfl | rfl <;> simp)
  unfold Ctl.ringConfigOk Ctl.rf
  rw [hreg (rRING_CFG k) (by simp), hreg (rRING_BASE_LO k) (by simp), hreg (rCPL_BASE_LO k) (by simp),
    hreg (rPI_ADDR_LO k) (by simp), hreg (rRETIRE_ADDR_LO k) (by simp)]

/-- A configuration that fails is recorded, and ENABLE reads 0 (R130). -/
theorem Ctl.enableRing_bad {c : Ctl} {k : Nat} (h : c.Disabled k) (hfunc : c.func ≠ 1) (hbad : c.ringConfigOk k = false) :
    c.SetsOnly (c.enableRing k) [rRING_CTL k, rRING_STATUS k] ∧ (c.enableRing k).Disabled k ∧ (c.enableRing k).func ≠ 1 ∧
      (c.enableRing k).ringConfigOk k = false ∧ bit ((c.enableRing k).reg (rRING_CTL k)) 0 = false ∧
      fld ((c.enableRing k).reg (rRING_STATUS k)) 8 4 = 1 := by
  rw [Ctl.enableRing_of_disabled h, if_neg hfunc, if_neg (by simp [hbad])]
  have hstatus : ((c.lower (rRING_CTL k) 0).setRf (rRING_STATUS k) 8 4 1).reg (rRING_STATUS k) =
      setFld (c.reg (rRING_STATUS k)) 8 4 1 := by
    simp [Ctl.reg_setRf, Ctl.reg_lower]
  have honly : c.SetsOnly ((c.lower (rRING_CTL k) 0).setRf (rRING_STATUS k) 8 4 1) [rRING_CTL k, rRING_STATUS k] :=
    (Ctl.SetsOnly.setReg c _ (by simp)).trans (.setReg _ _ (by simp))
  refine ⟨honly, ⟨?_, h.2⟩, hfunc, ?_, ?_, ?_⟩
  · rw [Ctl.ringState, Ctl.rf, hstatus, fld_setFld_apart _ _ (by decide)]
    exact h.1
  · rw [honly.ringConfigOk, hbad]
  · have hctl : ((c.lower (rRING_CTL k) 0).setRf (rRING_STATUS k) 8 4 1).reg (rRING_CTL k) =
        c.reg (rRING_CTL k) &&& ~~~(1#32 <<< 0) := by
      rw [Ctl.reg_setRf, if_neg (by simp), Ctl.reg_lower, if_pos rfl]
    rw [hctl, bit_lowered _ (by decide)]
    simp
  · rw [hstatus, fld_setFld_same _ _ (by decide)]
    rfl

/-- With no other ring waiting for its ENABLE, those that wait are the ring or none (R393). -/
theorem Ctl.startWaiting_of_noneWaits {c : Ctl} {k : Nat} (hk : k < 64) (h : c.noneWaits k) :
    c.startWaiting = if c.enableWaits k then c.enableRing k else c := by
  have hlist : ((List.range 64).filter fun r => c.enableWaits r) = if c.enableWaits k then [k] else [] := by
    have hother : ∀ r ∈ List.range 64, c.enableWaits r = (decide (r = k) && c.enableWaits k) := by
      intro r hr
      by_cases hrk : r = k
      · simp [hrk]
      · simp [hrk, h r (List.mem_range.mp hr) hrk]
    rw [List.filter_congr hother]
    cases c.enableWaits k with
    | false => simp
    | true =>
      have hcount : List.count k (List.range 64) = 1 :=
        List.count_eq_one_of_mem List.nodup_range (List.mem_range.mpr hk)
      simp [List.filter_eq, hcount]
  rw [Ctl.startWaiting, hlist]
  split <;> rfl

/-- A write of ENABLE does what ENABLE does, once or twice. -/
theorem Ctl.writeRingCtl_enable {c : Ctl} {k : Nat} (hk : k < 64) (h : c.noneWaits k) :
    c.writeRingCtl k 1 = c.enableRing k ∨ c.writeRingCtl k 1 = (c.enableRing k).enableRing k := by
  have hwrite : c.writeRingCtl k 1 = c.startWaiting.enableRing k := rfl
  rw [hwrite, Ctl.startWaiting_of_noneWaits hk h]
  split
  · exact .inr rfl
  · exact .inl rfl

theorem Ctl.writeRingCtl_deferred {c : Ctl} {k : Nat} (hk : k < 64) (hwait : c.noneWaits k) (h : c.Disabled k)
    (hfunc : c.func = 1) :
    c.SetsOnly (c.writeRingCtl k 1) [rRING_CTL k] ∧ (c.writeRingCtl k 1).ringState k = 0 ∧
      bit ((c.writeRingCtl k 1).reg (rRING_CTL k)) 0 = true := by
  obtain ⟨honce, hdis, hfunc', hbit⟩ := Ctl.enableRing_deferred h hfunc
  obtain ⟨htwice, hdis', -, hbit'⟩ := Ctl.enableRing_deferred hdis hfunc'
  rcases Ctl.writeRingCtl_enable hk hwait with hw | hw <;> rw [hw]
  · exact ⟨honce, hdis.1, hbit⟩
  · exact ⟨honce.trans htwice, hdis'.1, hbit'⟩

theorem Ctl.writeRingCtl_bad {c : Ctl} {k : Nat} (hk : k < 64) (hwait : c.noneWaits k) (h : c.Disabled k)
    (hfunc : c.func ≠ 1) (hbad : c.ringConfigOk k = false) :
    c.SetsOnly (c.writeRingCtl k 1) [rRING_CTL k, rRING_STATUS k] ∧ (c.writeRingCtl k 1).ringState k = 0 ∧
      bit ((c.writeRingCtl k 1).reg (rRING_CTL k)) 0 = false ∧ fld ((c.writeRingCtl k 1).reg (rRING_STATUS k)) 8 4 = 1 := by
  obtain ⟨honce, hdis, hfunc', hbad', hbit, herr⟩ := Ctl.enableRing_bad h hfunc hbad
  obtain ⟨htwice, hdis', -, -, hbit', herr'⟩ := Ctl.enableRing_bad hdis hfunc' hbad'
  rcases Ctl.writeRingCtl_enable hk hwait with hw | hw <;> rw [hw]
  · exact ⟨honce, hdis.1, hbit, herr⟩
  · exact ⟨honce.trans htwice, hdis'.1, hbit', herr'⟩

/-- A ring whose configuration passes has started, and a second ENABLE finds it so. -/
theorem Ctl.writeRingCtl_ok {c : Ctl} {k : Nat} (hk : k < 64) (hwait : c.noneWaits k) (h : c.Disabled k)
    (hfunc : c.func ≠ 1) (hok : c.ringConfigOk k = true) (hm : c.RingMisses k) :
    c.GoesOn (c.writeRingCtl k 1) k ∧ (c.writeRingCtl k 1).ringState k = (if c.ringDescs k = [] then 1 else 0) ∧
      ((c.writeRingCtl k 1).ring k).starting = !(c.ringDescs k).isEmpty := by
  obtain ⟨hgo, hstate, hstart⟩ := Ctl.startRing_spec hk hm h.1
  have honce : c.enableRing k = c.startRing k := by rw [Ctl.enableRing_of_disabled h, if_neg hfunc, if_pos hok]
  have hstarted : (c.startRing k).ringState k ≠ 0 ∨ ((c.startRing k).ring k).starting = true := by
    rw [hstate, hstart]
    cases c.ringDescs k <;> simp
  have hwrite : c.writeRingCtl k 1 = c.startRing k := by
    rcases Ctl.writeRingCtl_enable hk hwait with hw | hw <;> rw [hw, honce]
    exact Ctl.enableRing_of_not_disabled hstarted
  rw [hwrite]
  exact ⟨hgo, hstate, hstart⟩

/-- An access that takes effect names parts that the block has. -/
theorem State.wf_of_reaches {s : State} {i : Instr} {id : Byte} {off : Nat} (h : s.reaches i id off = true) :
    i.wf s.ctl.part = true := by
  simp only [State.reaches, State.takes, Bool.and_eq_true] at h
  exact h.1.2

/-- Settles O24: the three outcomes of ENABLE, of which the first and the last change registers alone. -/
theorem ringEnable : Obligations.RingEnable := by
  intro s k id hr hstate hstart hcalm hwait
  have hk : k < 64 := of_decide_eq_true (State.wf_of_reaches hr)
  have hdis : s.ctl.Disabled k := ⟨hstate, hstart⟩
  have hexec : exec (.ringEnable k id) s = .next { s with ctl := { s.ctl.writeRingCtl k 1 with regRdata := 0 } } :=
    ctlStep_open_of_reaches hr _
  have hdeferred := Ctl.writeRingCtl_deferred hk hwait hdis
  have hok := fun hfunc hcfg => Ctl.writeRingCtl_ok hk hwait hdis hfunc hcfg (.of_calm hcalm)
  have hbad := Ctl.writeRingCtl_bad hk hwait hdis
  generalize s.ctl.writeRingCtl k 1 = c at hexec hdeferred hok hbad
  refine ⟨_, hexec, fun hfunc => ?_, fun hfunc hcfg => ?_, fun hfunc hcfg => ?_⟩
  · obtain ⟨honly, hzero, hbit⟩ := hdeferred hfunc
    exact ⟨honly.setsRegs 0, hzero, hbit⟩
  · obtain ⟨hgo, hrun, hstarting⟩ := hok hfunc hcfg
    exact ⟨hrun, hstarting, hgo.enable, hgo.locked, hgo.piSeen, hgo.nextIdx, hgo.done, hgo.failed, hgo.recFault⟩
  · obtain ⟨honly, hzero, hbit, herr⟩ := hbad hfunc hcfg
    exact ⟨honly.setsRegs 0, hzero, hbit, herr⟩

end Sys2Proof.Machine

/-!
SUPPORT. What a command leaves of the bank storage, operation by operation, and the settled statement that every step keeps
its canonical form.
-/
namespace Sys2Proof.Machine

/-! ### Commands that leave the bank storage -/

/-- A guarded command whose effect answers the bank storage it was given changes only the control state. -/
theorem fullStep_next_of_cells (i : Instr) (s : State) {f : Ctl → Cells → Ctl × Cells} (hf : ∀ c d, (f c d).2 = d) :
    ∃ c, fullStep i s f = .next { s with ctl := c } := by
  unfold fullStep
  split
  · exact ⟨(f s.ctl s.cells).1, by rw [hf]⟩
  · exact ⟨s.ctl, rfl⟩

theorem execPowerOnReset_next (coolant : Bool) (s : State) :
    ∃ c, execPowerOnReset coolant s = .next { s with ctl := c } := ⟨_, rfl⟩

theorem execSupplyLoss_next (s : State) : ∃ c, execSupplyLoss s = .next { s with ctl := c } := by
  unfold execSupplyLoss
  split
  · exact ⟨s.ctl, rfl⟩
  · exact ⟨_, rfl⟩

/-- COMMIT reads the bank storage for a signature and leaves it (R317). -/
theorem execCommit_next (ring idx : Nat) (s : State) : ∃ c, execCommit ring idx s = .next { s with ctl := c } :=
  fullStep_next_of_cells _ s fun c d => by
    cases c.commitDesc ring idx <;> rfl

/-- A command that is not one of the four with access to the bank storage changes only the control state. -/
theorem exec_next_of_not_storage {i : Instr} (h : i.storage = false) (s : State) :
    ∃ c, exec i s = .next { s with ctl := c } := by
  cases i <;> unfold exec
  case zeroFillDone | round | scrubVisit | wakeComplete => cases h
  case powerOnReset coolant => exact execPowerOnReset_next coolant s
  case supplyLoss => exact execSupplyLoss_next s
  case commit ring idx => exact execCommit_next ring idx s
  case tick | blkrstN | resetInputAsserted | coolantFall | coolantRise | burstResponse | burstTimeout =>
    exact resetStep_next _ s _
  all_goals exact ctlStep_next _ s _

/-! ### Bank accesses -/

theorem Ctl.writeBank_wf (c : Ctl) {d : Cells} (h : d.wf = true) (n b r : Nat) (ws : List Codeword) :
    (c.writeBank d n b r ws).2.wf = true := by
  unfold Ctl.writeBank
  dsimp only
  split
  · exact Cells.writeRow_wf (Cells.writeRow_wf h _ _ _ _) _ _ _ _
  · exact Cells.writeRow_wf h _ _ _ _

theorem Ctl.writeChunk_wf (c : Ctl) {d : Cells} (h : d.wf = true) (j : Job) (q : Nat) : (c.writeChunk d j q).2.wf = true :=
  Ctl.writeBank_wf _ h _ _ _ _

theorem Ctl.updateWord_wf (c : Ctl) {d : Cells} (h : d.wf = true) (j : Job) (k : Key) (t : Nat) (v : Word) (q : Nat)
    (noise reread : List Codeword) : (c.updateWord d j k t v q noise reread).2.wf = true := by
  unfold Ctl.updateWord
  dsimp only
  split
  · exact h
  · split
    · exact h
    · exact Ctl.writeBank_wf _ h _ _ _ _

theorem Ctl.copyRowWrite_wf (c : Ctl) {d : Cells} (h : d.wf = true) (j : Job) (bank spare : Nat) :
    (c.copyRowWrite d j bank spare).2.wf = true := Cells.writeRow_wf h _ _ _ _

theorem Ctl.zeroRow_wf (c : Ctl) {d : Cells} (h : d.wf = true) (j : Job) (pb : Nat) : (c.zeroRow d j pb).2.wf = true :=
  Cells.writeRow_wf h _ _ _ _

theorem Ctl.scrubPuts_wf (c : Ctl) {d : Cells} (h : d.wf = true) (n pb pr : Nat) (ws : List Codeword) :
    (c.scrubPuts d n pb pr ws).2.wf = true := Cells.writeRow_wf h _ _ _ _

theorem Ctl.scrubBack_wf (c : Ctl) {d : Cells} (h : d.wf = true) (j : Job) (pb : Nat) : (c.scrubBack d j pb).2.wf = true :=
  (c.swapJob j none).scrubPuts_wf h _ _ _ _

theorem Ctl.scrubWhole_wf (c : Ctl) {d : Cells} (h : d.wf = true) (n pb pr : Nat) (noise reread verify : List Codeword) :
    (c.scrubWhole d n pb pr noise reread verify).2.wf = true := by
  unfold Ctl.scrubWhole
  dsimp only
  split
  · exact (c.scrubFinds d n pb pr noise reread).1.scrubPuts_wf h _ _ _ _
  · exact h

/-! ### Grants and rounds -/

theorem Ctl.bankAccess_wf (c : Ctl) {d : Cells} (h : d.wf = true) (pb : Nat) (j : Job) (noise reread : List Codeword) :
    (c.bankAccess d pb j noise reread).2.wf = true := by
  unfold Ctl.bankAccess
  split
  next => exact h
  next q _ =>
    cases j.purpose
    case put | clear => exact c.writeChunk_wf h j q
    case update k t v => exact c.updateWord_wf h j k t v q noise reread
    case copyWrite b s => exact c.copyRowWrite_wf h j b s
    case zeroRow => exact c.zeroRow_wf h j pb
    case scrubBack => exact c.scrubBack_wf h j pb
    all_goals exact h

theorem Ctl.grant_wf (c : Ctl) {d : Cells} (h : d.wf = true) (a : ArbId) (w : Nat) (takers : List Nat)
    (noise reread : List Codeword) : (c.grant d a w takers noise reread).2.wf = true := by
  unfold Ctl.grant
  split
  · split
    · exact Ctl.bankAccess_wf _ h _ _ noise reread
    · exact h
  · split <;> exact h
  · split <;> exact h
  · exact h
  · exact h

theorem Ctl.runRound_wf (c : Ctl) {d : Cells} (h : d.wf = true) (a : ArbId) (takers : List Nat)
    (noise reread : List Codeword) : (c.runRound d a takers noise reread).2.wf = true :=
  Ctl.grant_wf _ h a _ takers noise reread

theorem Ctl.scrubRound_wf (c : Ctl) {d : Cells} (h : d.wf = true) (n pb pr : Nat) (p : Purpose)
    (noise reread : List Codeword) : (c.scrubRound d n pb pr p noise reread).2.wf = true := by
  unfold Ctl.scrubRound
  split
  · split
    · exact Ctl.runRound_wf _ h _ _ noise reread
    · exact h
  · exact h

/-! ### The check pass of a wake (R404) -/

theorem Ctl.checkRow_wf (c : Ctl) {d : Cells} (h : d.wf = true) (found : List RowErr) (n : Nat) (v : Nat × Nat) :
    (c.checkRow d found n v).2.wf = true := by
  unfold Ctl.checkRow
  dsimp only
  split
  · exact h
  · exact c.scrubWhole_wf h _ _ _ _ _ _

theorem Ctl.checkSlice_wf (c : Ctl) {d : Cells} (h : d.wf = true) (found : List RowErr) (n : Nat) :
    (c.checkSlice d found n).2.wf = true :=
  List.foldlRecOn (motive := fun x : Ctl × Cells => x.2.wf = true) _ _ h fun x hx v _ => x.1.checkRow_wf hx found n v

theorem Ctl.checkPass_wf (c : Ctl) {d : Cells} (h : d.wf = true) (found : List RowErr) : (c.checkPass d found).2.wf = true :=
  List.foldlRecOn (motive := fun x : Ctl × Cells => x.2.wf = true) _ _ h fun x hx n _ => by
    split
    · exact x.1.checkSlice_wf hx found n
    · exact hx

/-! ### The four commands with access to the bank storage -/

/-- A guarded command whose effect keeps the canonical form leads to well-formed states only. -/
theorem fullStep_wf {i : Instr} {s t : State} {f : Ctl → Cells → Ctl × Cells}
    (hf : ∀ c d, d.wf = true → (f c d).2.wf = true) (hs : s.wf = true) (h : fullStep i s f = .next t) : t.wf = true := by
  unfold fullStep at h
  split at h <;> cases h
  · exact hf s.ctl s.cells hs
  · exact hs

theorem execRound_wf {arb : ArbId} {takers : List Nat} {noise reread : List Codeword} {s t : State} (hs : s.wf = true)
    (h : execRound arb takers noise reread s = .next t) : t.wf = true :=
  fullStep_wf (fun c d hd => by
    split
    · exact hd
    · exact c.useGrant.runRound_wf hd arb takers noise reread) hs h

theorem execScrubVisit_wf {n : Nat} {noise reread verify : List Codeword} {overwritten : Bool} {s t : State}
    (hs : s.wf = true) (h : execScrubVisit n noise reread verify overwritten s = .next t) : t.wf = true :=
  fullStep_wf (fun c d hd => by
    dsimp only
    split
    · exact Ctl.scrubRound_wf _ (Ctl.scrubRound_wf _ (Ctl.scrubRound_wf _ hd _ _ _ _ _ _) _ _ _ _ _ _) _ _ _ _ _ _
    · exact hd) hs h

theorem execWakeComplete_wf {found : List RowErr} {s t : State} (hs : s.wf = true)
    (h : execWakeComplete found s = .next t) : t.wf = true :=
  fullStep_wf (fun c d hd => by
    dsimp only
    split_ifs
    · exact hd
    · exact c.checkPass_wf hd found
    · exact hd) hs h

theorem execZeroFillDone_wf {n : Nat} {s t : State} (hs : s.wf = true) (h : execZeroFillDone n s = .next t) : t.wf = true :=
  fullStep_wf (fun c d hd => by
    dsimp only
    split
    · exact List.foldlRecOn (motive := fun x => Cells.wf x = true) _ _ hd fun x hx b _ => Cells.zeroBank_wf hx n b
    · exact hd) hs h

theorem exec_wf {i : Instr} {s t : State} (hs : s.wf = true) (h : exec i s = .next t) : t.wf = true := by
  cases hi : i.storage with
  | false =>
    obtain ⟨c, hc⟩ := exec_next_of_not_storage hi s
    cases hc.symm.trans h
    exact hs
  | true =>
    cases i
    case round => exact execRound_wf hs h
    case scrubVisit => exact execScrubVisit_wf hs h
    case wakeComplete => exact execWakeComplete_wf hs h
    case zeroFillDone => exact execZeroFillDone_wf hs h
    all_goals cases hi

/-- Settles O3: a step idles or executes its command with the queue's rest, and every write of the bank storage keeps the
canonical form. -/
theorem stepKeepsStorageCanonical : Obligations.StepKeepsStorageCanonical := by
  intro s t hs h
  unfold step at h
  split at h
  next => cases h; exact hs
  next i rest _ => exact exec_wf (s := { s with pending := rest }) hs h

end Sys2Proof.Machine

/-!
SUPPORT. The SECDED code as a linear code: decoding commutes with adding a codeword, so that what is found depends on the
error alone; and the settled statement about single and double errors.
-/
namespace Sys2Proof.Machine

/-! ### Check bits -/

/-- Add a data column to the check bits where its data bit is set (R81). -/
def addColumn (d : Word) (c : Nat) (p : Nat × Nat) : Nat := if d.getLsbD p.2 then c ^^^ p.1 else c

theorem checkBits_eq (d : Word) : checkBits d = secdedCols.zipIdx.foldl (addColumn d) 0 := rfl

theorem addColumn_xor (a b : Word) (x y : Nat) (p : Nat × Nat) :
    addColumn (a ^^^ b) (x ^^^ y) p = addColumn a x p ^^^ addColumn b y p := by
  unfold addColumn
  rw [BitVec.getLsbD_xor]
  cases a.getLsbD p.2 <;> cases b.getLsbD p.2
  · rfl
  · simp [Nat.xor_assoc]
  · simp [Nat.xor_assoc, Nat.xor_comm p.1]
  · simp [Nat.xor_assoc, Nat.xor_left_comm p.1]

theorem foldl_addColumn_xor (a b : Word) (ps : List (Nat × Nat)) : ∀ x y : Nat,
    ps.foldl (addColumn (a ^^^ b)) (x ^^^ y) = ps.foldl (addColumn a) x ^^^ ps.foldl (addColumn b) y := by
  induction ps with
  | nil => exact fun _ _ => rfl
  | cons p ps ih =>
    intro x y
    rw [List.foldl_cons, addColumn_xor, ih]
    rfl

/-- The check bits are linear in the data. -/
theorem checkBits_xor (a b : Word) : checkBits (a ^^^ b) = checkBits a ^^^ checkBits b := foldl_addColumn_xor a b _ 0 0

theorem checkBits_lt (d : Word) : checkBits d < 2 ^ 7 := by
  have hcol : ∀ p ∈ secdedCols.zipIdx, p.1 < 2 ^ 7 := by decide
  rw [checkBits_eq]
  refine List.foldlRecOn (motive := fun c => c < 2 ^ 7) _ _ (by decide) fun c hc p hp => ?_
  unfold addColumn
  split
  · exact Nat.xor_lt_two_pow hc (hcol p hp)
  · exact hc

/-! ### Codewords -/

theorem toNat_encodeCw (d : Word) : (encodeCw d).toNat = d.toNat + checkBits d * 2 ^ 32 := by
  have hd := d.isLt
  have hc := checkBits_lt d
  rw [encodeCw, BitVec.toNat_ofNat]
  omega

@[simp] theorem cwData_encodeCw (d : Word) : cwData (encodeCw d) = d := by
  have hd := d.isLt
  refine BitVec.eq_of_toNat_eq ?_
  rw [cwData, toNat_encodeCw, BitVec.toNat_ofNat]
  omega

theorem cwData_xor (a b : Codeword) : cwData (a ^^^ b) = cwData a ^^^ cwData b := by
  simp only [cwData, BitVec.ofNat_toNat, BitVec.setWidth_xor]

/-- The syndrome of a codeword is that of its error. -/
theorem syndrome_xor (a b : Codeword) : syndrome (a ^^^ b) = syndrome a ^^^ syndrome b := by
  rw [syndrome, cwData_xor, checkBits_xor, BitVec.toNat_xor, Nat.shiftRight_xor_distrib, syndrome, syndrome]
  ac_rfl

@[simp] theorem syndrome_encodeCw (d : Word) : syndrome (encodeCw d) = 0 := by
  have hd := d.isLt
  have hshift : (encodeCw d).toNat >>> 32 = checkBits d := by
    rw [toNat_encodeCw, Nat.shiftRight_eq_div_pow]
    omega
  rw [syndrome, cwData_encodeCw, hshift, Nat.xor_self]

/-! ### Decoding -/

/-- What is found where the data word `d` has been added to all data. -/
def Decoded.added (d : Word) : Decoded → Decoded
  | .ok x => .ok (d ^^^ x)
  | .corrected x => .corrected (d ^^^ x)
  | .uncorrectable => .uncorrectable

/-- The decoder takes a codeword with an error as it takes the error alone. -/
theorem decodeCw_encodeCw_xor (d : Word) (e : Codeword) : decodeCw (encodeCw d ^^^ e) = (decodeCw e).added d := by
  have hs : syndrome (encodeCw d ^^^ e) = syndrome e := by rw [syndrome_xor, syndrome_encodeCw, Nat.zero_xor]
  have hd : cwData (encodeCw d ^^^ e) = d ^^^ cwData e := by rw [cwData_xor, cwData_encodeCw]
  unfold decodeCw
  dsimp only
  rw [hs, hd]
  by_cases hzero : syndrome e = 0
  · simp only [hzero, if_true, Decoded.added]
  · simp only [hzero, if_false]
    cases secdedCols.findIdx? (· = syndrome e) with
    | some n => exact congrArg Decoded.corrected (BitVec.xor_assoc d (cwData e) _)
    | none => dsimp only; split_ifs <;> rfl

theorem decodeCw_zero : decodeCw 0#39 = .ok 0#32 := by decide

/-- The decoder finds the place of a single error (Table 2.9). -/
theorem decodeCw_single : ∀ i < 39, decodeCw (1#39 <<< i) = .corrected 0#32 := by decide +kernel

/-- The columns of the code: those of the data bits, then those of the check bits (Table 2.9). -/
def columns : List Nat := secdedCols ++ [1, 2, 4, 8, 16, 32, 64]

theorem syndrome_single : ∀ (i : Nat) (h : i < columns.length), syndrome (1#39 <<< i) = columns[i] := by decide +kernel

/-- Two columns differ and add up to no third one: every column has an odd number of ones (Table 2.9). -/
theorem columns_pairwise : columns.Pairwise fun a b => a ^^^ b ∉ 0 :: columns := by decide +kernel

theorem decodeCw_uncorrectable {c : Codeword} (h : syndrome c ∉ 0 :: columns) : decodeCw c = .uncorrectable := by
  simp only [columns, List.mem_cons, List.mem_append, not_or] at h
  obtain ⟨hzero, hdata, hcheck⟩ := h
  have hnone : secdedCols.findIdx? (· = syndrome c) = none :=
    List.findIdx?_eq_none_iff.mpr fun x hx => decide_eq_false fun he => hdata (he ▸ hx)
  unfold decodeCw
  simp only [hzero, hnone, List.mem_cons, hcheck, or_self, if_false]

theorem decodeCw_double {i j : Nat} (hij : i < j) (hj : j < 39) :
    decodeCw (1#39 <<< i ^^^ 1#39 <<< j) = .uncorrectable := by
  refine decodeCw_uncorrectable ?_
  rw [syndrome_xor, syndrome_single i (hij.trans hj), syndrome_single j hj]
  exact List.pairwise_iff_getElem.mp columns_pairwise i j _ _ hij

/-- Settles O59: the decoder sees the error alone; a single one shows its column, and a double one no column. -/
theorem secdedCorrectsOneDetectsTwo : Obligations.SecdedCorrectsOneDetectsTwo := by
  refine ⟨fun d => ?_, fun d i hi => ?_, fun d i j hij hj => ?_⟩
  · have h := decodeCw_encodeCw_xor d 0#39
    rwa [BitVec.xor_zero, decodeCw_zero, Decoded.added, BitVec.xor_zero] at h
  · rw [decodeCw_encodeCw_xor, decodeCw_single i hi, Decoded.added, BitVec.xor_zero]
  · rw [BitVec.xor_assoc, decodeCw_encodeCw_xor, decodeCw_double hij hj, Decoded.added]

end Sys2Proof.Machine

/-!
SUPPORT. What completing a descriptor leaves and changes: the operations that withdraw its work, and how its status is fixed, alone
and in a pair.
-/
namespace Sys2Proof.Machine

/-! ### What completions leave -/

/-- The stored registers that completing a descriptor may change: events, counters, the record of a mismatch, BUSY of
ATC_INVAL, the power state. -/
def doneRegs : List Nat :=
  [rATC_INVAL, rPORT_EVT_LO, rPORT_EVT_HI, rXN_STATUS, rREFUSALS, rPAIR_COMPARED, rPAIR_MIS_RING, rPAIR_MIS_IDX_LO,
    rPAIR_MIS_IDX_HI, rPAIR_SIG_LOCAL_LO, rPAIR_SIG_LOCAL_HI, rPAIR_SIG_PEER_LO, rPAIR_SIG_PEER_HI, rPAIR_STATUS, rINT_EVT,
    rPSTATE_STATUS]

/-- `c'` has the tile names, the reference counter, the pairing and the stored registers of `c`, but for the registers of a
completion. -/
structure Ctl.Apart (c c' : Ctl) : Prop where
  names : c'.names = c.names
  refTicks : c'.refTicks = c.refTicks
  paired : c'.paired = c.paired
  regs : c.keeps c' doneRegs

/-- So has it the descriptors. -/
structure Ctl.Beside (c c' : Ctl) : Prop extends c.Apart c' where
  descs : c'.descs = c.descs

theorem Ctl.Apart.refl (c : Ctl) : c.Apart c := ⟨rfl, rfl, rfl, fun _ _ => rfl⟩

theorem Ctl.Apart.trans {c c' c'' : Ctl} (h : c.Apart c') (h' : c'.Apart c'') : c.Apart c'' :=
  ⟨h'.names.trans h.names, h'.refTicks.trans h.refTicks, h'.paired.trans h.paired,
    fun o ho => (h'.regs o ho).trans (h.regs o ho)⟩

theorem Ctl.Beside.refl (c : Ctl) : c.Beside c := ⟨.refl c, rfl⟩

theorem Ctl.Beside.trans {c c' c'' : Ctl} (h : c.Beside c') (h' : c'.Beside c'') : c.Beside c'' :=
  ⟨h.toApart.trans h'.toApart, h'.descs.trans h.descs⟩

/-- Updates that touch no register. -/
theorem Ctl.Apart.of_regs {c c' : Ctl} (hp : c'.part = c.part) (hr : c'.regs = c.regs) (hn : c'.names = c.names)
    (ht : c'.refTicks = c.refTicks) : c.Apart c' := by
  have hreg := Ctl.reg_congr hp hr
  exact ⟨hn, ht, by simp only [Ctl.paired, hreg], fun o _ => hreg o⟩

theorem Ctl.Beside.of_regs {c c' : Ctl} (hp : c'.part = c.part) (hr : c'.regs = c.regs) (hn : c'.names = c.names)
    (ht : c'.refTicks = c.refTicks) (hd : c'.descs = c.descs) : c.Beside c' := ⟨.of_regs hp hr hn ht, hd⟩

theorem Ctl.Beside.each {α : Type} (c : Ctl) (l : List α) {f : Ctl → α → Ctl} (hf : ∀ (c : Ctl) (a : α), c.Beside (f c a)) :
    c.Beside (c.each l f) :=
  Ctl.each_induction (P := c.Beside) (fun e a h => h.trans (hf e a)) l (.refl c)

theorem Ctl.Beside.ite {p : Prop} [Decidable p] {c c' : Ctl} (h : c.Beside c') : c.Beside (if p then c' else c) := by
  split
  · exact h
  · exact .refl c

theorem Ctl.Beside.desc? {c c' : Ctl} (h : c.Beside c') (k : Key) : c'.desc? k = c.desc? k := by
  rw [Ctl.desc?, h.descs, Ctl.desc?]

/-- A register of a completion but PAIR_STATUS, in which the pairing stands. -/
theorem Ctl.Beside.setReg (c : Ctl) {off : Nat} (v : Word) (h : off ∈ doneRegs) (hne : off ≠ rPAIR_STATUS) :
    c.Beside (c.setReg off v) := by
  refine ⟨⟨rfl, rfl, ?_, fun o ho => Ctl.reg_setReg_ne c v fun e => ho (e ▸ h)⟩, rfl⟩
  simp only [Ctl.paired, Ctl.reg_setReg_ne c v hne]

/-- PAIR_STATUS with the bits of the pairing as they were. -/
theorem Ctl.Beside.setPairStatus (c : Ctl) {v : Word} (h31 : bit v 31 = bit (c.reg rPAIR_STATUS) 31)
    (h1 : bit v 1 = bit (c.reg rPAIR_STATUS) 1) : c.Beside (c.setReg rPAIR_STATUS v) := by
  refine ⟨⟨rfl, rfl, ?_, fun o ho => Ctl.reg_setReg_ne c v fun e => ho (e ▸ by decide)⟩, rfl⟩
  rw [Ctl.paired, Ctl.reg_setReg_self, h31, h1, Ctl.paired]

/-! ### Ramps and voltage -/

theorem Ctl.modPower_beside (c : Ctl) (f : Power → Power) : c.Beside (c.modPower f) := .of_regs rfl rfl rfl rfl rfl

theorem Ctl.emit_beside (c : Ctl) (o : Out) : c.Beside (c.emit o) := .of_regs rfl rfl rfl rfl rfl

theorem Ctl.putVreq_beside (c : Ctl) (v : Nat) : c.Beside (c.putVreq v) := by
  unfold Ctl.putVreq
  split
  · exact .refl c
  · dsimp only
    split
    · exact c.modPower_beside _
    · exact .trans (.trans (c.modPower_beside _) (Ctl.modPower_beside _ _)) (Ctl.emit_beside _ _)

theorem Ctl.raiseVreq_beside (c : Ctl) : c.Beside c.raiseVreq := by
  unfold Ctl.raiseVreq
  split
  · exact c.putVreq_beside _
  · exact .refl c

theorem Ctl.startMargin_beside (c : Ctl) : c.Beside c.startMargin := (c.modPower_beside _).trans (Ctl.raiseVreq_beside _)

theorem Ctl.phaseRaise_beside (c : Ctl) (phase : Nat) : c.Beside (c.phaseRaise phase) := by
  unfold Ctl.phaseRaise
  dsimp only
  split
  · exact (c.putVreq_beside _).trans (Ctl.modPower_beside _ _)
  · exact .refl c

theorem Ctl.barrier_beside (c : Ctl) (d : Desc) : c.Beside (c.barrier d) := by
  unfold Ctl.barrier
  dsimp only
  split
  · exact (c.modPower_beside _).trans (Ctl.startMargin_beside _)
  · exact .refl c

theorem Ctl.wakeOnWork_beside (c : Ctl) : c.Beside c.wakeOnWork := by
  have hset : c.Beside (c.setRf rPSTATE_STATUS 0 3 5) := .setReg c _ (by decide) (by decide)
  unfold Ctl.wakeOnWork
  split
  · dsimp only
    split
    · exact hset.trans (Ctl.raiseVreq_beside _)
    · exact (hset.trans (Ctl.modPower_beside _ _)).trans (Ctl.raiseVreq_beside _)
  · exact .refl c

/-! ### Slots and withdrawn work -/

theorem Ctl.modSlot_beside (c : Ctl) (k : Nat) (f : Slot → Slot) : c.Beside (c.modSlot k f) := .of_regs rfl rfl rfl rfl rfl

theorem Ctl.modPort_beside (c : Ctl) (n : Nat) (f : Port → Port) : c.Beside (c.modPort n f) := .of_regs rfl rfl rfl rfl rfl

theorem Ctl.modNet_beside (c : Ctl) (f : Net → Net) : c.Beside (c.modNet f) := .of_regs rfl rfl rfl rfl rfl

theorem Ctl.modMem_beside (c : Ctl) (f : Mem → Mem) : c.Beside (c.modMem f) := .of_regs rfl rfl rfl rfl rfl

theorem Ctl.addJobs_beside (c : Ctl) (js : List Job) : c.Beside (c.addJobs js) := .of_regs rfl rfl rfl rfl rfl

theorem Ctl.setJobs_beside (c : Ctl) (js : List Job) : c.Beside { c with jobs := js } := .of_regs rfl rfl rfl rfl rfl

theorem Ctl.setSlots_beside (c : Ctl) (ks : List Nat) (st : SlotState) (o : Owner) : c.Beside (c.setSlots ks st o) :=
  .each c ks fun c k => c.modSlot_beside k _

theorem Ctl.dropLatches_beside (c : Ctl) (k : Nat) : c.Beside (c.dropLatches k) :=
  .each c _ fun c n => by
    split
    · exact .refl c
    · exact c.modPort_beside n _

theorem Ctl.clearSlots_beside (c : Ctl) (ks : List Nat) : c.Beside (c.clearSlots ks) :=
  .each c ks fun c k =>
    .trans (.trans (c.dropLatches_beside k) (Ctl.setSlots_beside _ _ _ _)) (Ctl.addJobs_beside _ _)

theorem Ctl.reapRetired_beside (c : Ctl) : c.Beside c.reapRetired := c.clearSlots_beside _

theorem Ctl.invalDone_beside (c : Ctl) : c.Beside c.invalDone := by
  unfold Ctl.invalDone
  split
  · exact .setReg c _ (by decide) (by decide)
  · exact .refl c

theorem Ctl.dropBursts_beside (c : Ctl) (f : Burst → Bool) : c.Beside (c.dropBursts f) :=
  (c.modMem_beside _).trans (Ctl.invalDone_beside _)

theorem Ctl.portEvt_beside (c : Ctl) (n : Nat) : c.Beside (c.portEvt n) := by
  unfold Ctl.portEvt Ctl.putMask
  split
  · exact .setReg c _ (by decide) (by decide)
  · exact .setReg c _ (by decide) (by decide)

theorem Ctl.quiesceDone_beside (c : Ctl) (n : Nat) : c.Beside (c.quiesceDone n) := by
  unfold Ctl.quiesceDone
  dsimp only
  split
  · exact (c.modPort_beside n _).trans (Ctl.portEvt_beside _ n)
  · exact .refl c

theorem Ctl.dropAges_beside (c : Ctl) : c.Beside c.dropAges := .of_regs rfl rfl rfl rfl rfl

theorem Ctl.withdraw_beside (c : Ctl) (k : Key) : c.Beside (c.withdraw k) := by
  unfold Ctl.withdraw
  dsimp only
  refine .trans ?_ (.each _ _ fun c n => ?_)
  · refine .trans (.trans (.trans ?_ (Ctl.modNet_beside _ _)) (Ctl.dropBursts_beside _ _)) (Ctl.dropAges_beside _)
    exact c.setJobs_beside _
  · split
    · exact (c.modPort_beside n _).trans (Ctl.quiesceDone_beside _ n)
    · exact .refl c

theorem Ctl.releaseMap_beside (c : Ctl) (k : Key) : c.Beside (c.releaseMap k) := by
  unfold Ctl.releaseMap
  split
  · split <;> exact c.modNet_beside _
  · exact .refl c

/-! ### Words to the peer -/

theorem Ctl.charge_background_beside (c : Ctl) (k n : Nat) : c.Beside (c.charge .background k n) := by
  unfold Ctl.charge Ctl.addAccount
  exact .trans (c.modPower_beside _) (Ctl.modPower_beside _ _)

theorem Ctl.modLink_beside (c : Ctl) (l : Nat) (f : Link → Link) : c.Beside (c.modLink l f) := .of_regs rfl rfl rfl rfl rfl

theorem Ctl.sendLink_beside (c : Ctl) (l kind ctl : Nat) (ws : List Word) : c.Beside (c.sendLink l kind ctl ws) := by
  have hcharge : c.Beside (if ws.isEmpty then c else c.charge .background 6 ws.length) := by
    split
    · exact .refl c
    · exact c.charge_background_beside 6 _
  unfold Ctl.sendLink Ctl.sendLinkFor
  split
  · exact c.modLink_beside l _
  · exact (hcharge.trans (Ctl.emit_beside _ _)).trans (Ctl.modLink_beside _ _ _)

theorem Ctl.setSigs_beside (c : Ctl) (gs : List Sig) : c.Beside { c with sigs := gs } := .of_regs rfl rfl rfl rfl rfl

theorem Ctl.sendOutcome_beside (c : Ctl) (k : Key) (status detail cursor : Nat) :
    c.Beside (c.sendOutcome k status detail cursor) := by
  unfold Ctl.sendOutcome
  split
  · exact (c.sendLink_beside _ _ _ _).trans (Ctl.setSigs_beside _ _)
  · exact .refl c

theorem Ctl.sendSig_beside (c : Ctl) (k : Key) (row : Option Nat) (s : BitVec 64) : c.Beside (c.sendSig k row s) :=
  (c.sendLink_beside _ _ _ _).trans (Ctl.setSigs_beside _ _)

theorem Ctl.haltPair_beside (c : Ctl) (cause : Nat) : c.Beside (c.haltPair cause) := by
  have hraise : c.Beside (c.raise rPAIR_STATUS 30) :=
    .setPairStatus c (by rw [bit_raised _ (by decide)]; simp) (by rw [bit_raised _ (by decide)]; simp)
  have hcause : ∀ c : Ctl, c.Beside (c.setRf rPAIR_STATUS 16 3 cause) := fun c =>
    .setPairStatus c (by rw [bit_setFld, if_neg (by omega)]) (by rw [bit_setFld, if_neg (by omega)])
  unfold Ctl.haltPair
  split
  · exact .refl c
  · exact (hraise.trans (hcause _)).trans (.setReg _ _ (by decide) (by decide))

theorem Ctl.mismatch_beside (c : Ctl) (g : Sig) (a b : BitVec 64) : c.Beside (c.mismatch g a b) := by
  have hset64 : ∀ (c : Ctl) {lo hi : Nat} (v : Nat), lo ∈ doneRegs → hi ∈ doneRegs → lo ≠ rPAIR_STATUS → hi ≠ rPAIR_STATUS →
      c.Beside (c.setReg64 lo hi v) := fun c lo hi v hlo hhi hlo' hhi' => (Ctl.Beside.setReg c _ hlo hlo').trans (.setReg _ _ hhi hhi')
  unfold Ctl.mismatch
  dsimp only
  exact (((((Ctl.Beside.setReg c _ (by decide) (by decide)).trans
    (hset64 _ _ (by decide) (by decide) (by decide) (by decide))).trans
    (hset64 _ _ (by decide) (by decide) (by decide) (by decide))).trans
    (hset64 _ _ (by decide) (by decide) (by decide) (by decide))).trans (Ctl.haltPair_beside _ 1)).trans
    (Ctl.sendLink_beside _ _ _ _ _)

/-! ### Fixing a status -/

/-- `e'` is `e` as far as completing it goes: its words, domain and samples; a descriptor that never reached step 5 counts as begun
now (Table 4.15). -/
structure Desc.Keeps (e e' : Desc) (now : Nat) : Prop where
  key : e'.key = e.key
  words : e'.words = e.words
  domain : e'.domain = e.domain
  caps : e'.caps = e.caps
  mods : e'.mods = e.mods
  committed : e'.committed = e.committed
  started : e'.started = e.started ∨ e'.started = now

theorem Desc.Keeps.refl (e : Desc) (now : Nat) : e.Keeps e now := ⟨rfl, rfl, rfl, rfl, rfl, rfl, .inl rfl⟩

theorem Desc.Keeps.trans {e e' e'' : Desc} {now : Nat} (h : e.Keeps e' now) (h' : e'.Keeps e'' now) : e.Keeps e'' now :=
  ⟨h'.key.trans h.key, h'.words.trans h.words, h'.domain.trans h.domain, h'.caps.trans h.caps, h'.mods.trans h.mods,
    h'.committed.trans h.committed, h'.started.elim (fun hs => by rw [hs]; exact h.started) .inr⟩

/-- `c'` is `c` apart from what completing descriptor `k` touches, which is in `c'` the descriptor `e`. -/
structure Ctl.Leads (c c' : Ctl) (k : Key) (e : Desc) : Prop extends c.Apart c' where
  others : ∀ j, k ≠ j → c'.desc? j = c.desc? j
  self : c'.desc? k = some e

theorem Ctl.Leads.refl {c : Ctl} {k : Key} {e : Desc} (h : c.desc? k = some e) : c.Leads c k e :=
  ⟨.refl c, fun _ _ => rfl, h⟩

theorem Ctl.Leads.beside {c c' c'' : Ctl} {k : Key} {e : Desc} (h : c.Leads c' k e) (h' : c'.Beside c'') : c.Leads c'' k e :=
  ⟨h.toApart.trans h'.toApart, fun j hj => (h'.desc? j).trans (h.others j hj), (h'.desc? k).trans h.self⟩

theorem Ctl.Leads.trans {c c' c'' : Ctl} {k : Key} {e e' : Desc} (h : c.Leads c' k e) (h' : c'.Leads c'' k e') :
    c.Leads c'' k e' :=
  ⟨h.toApart.trans h'.toApart, fun j hj => (h'.others j hj).trans (h.others j hj), h'.self⟩

theorem Ctl.Leads.modDesc {c c' : Ctl} {k : Key} {e : Desc} (h : c.Leads c' k e) {f : Desc → Desc}
    (hf : ∀ d, (f d).key = d.key) : c.Leads (c'.modDesc k f) k (f e) :=
  ⟨h.toApart.trans (.of_regs rfl rfl rfl rfl),
    fun j hj => (c'.desc?_modDesc_ne f hf hj).trans (h.others j hj), by rw [c'.desc?_modDesc_self k f hf, h.self]; rfl⟩

theorem Ctl.setSlotTab_beside (c : Ctl) (ss : Tab Slot) : c.Beside { c with slots := ss } := .of_regs rfl rfl rfl rfl rfl

theorem Ctl.abandonFresh_leads {c : Ctl} {k : Key} {e : Desc} (h : c.desc? k = some e) :
    c.Leads (c.abandonFresh k) k { e with dst := none } := by
  unfold Ctl.abandonFresh
  dsimp only
  refine .modDesc (.beside ?_ (Ctl.clearSlots_beside _ _)) fun _ => rfl
  split
  · exact .beside (.refl h) (.each c _ fun c n => c.modSlot_beside n _)
  · exact .beside (.refl h) (.trans (.each c _ fun c n => c.modSlot_beside n _) (Ctl.setSlotTab_beside _ _))

theorem Ctl.close_leads {c : Ctl} {k : Key} {e : Desc} (h : c.desc? k = some e) :
    ∃ b o n, c.Leads (c.close k) k { e with closed := b, order := o, elapsed := n } := by
  unfold Ctl.close
  rw [h]
  dsimp only
  split
  · exact ⟨e.closed, e.order, e.elapsed, .refl h⟩
  · exact ⟨_, _, _, .beside (.modDesc (f := fun d => { d with closed := true, order := _, elapsed := _ }) (.refl h) fun _ => rfl)
      (.of_regs rfl rfl rfl rfl rfl)⟩

/-- The status of a descriptor as completion writes it (R139, Table 4.15). -/
def Desc.final (d : Desc) (now st de : Nat) : Desc := { d with
  stage := .final, status := st, detail := de, granted := false, deadline := none, proposed := false, sigWait := false,
  started := if d.stage ∈ [Stage.hold, .check] || d.mods.isEmpty then now else d.started }

theorem Desc.final_keeps (d : Desc) (now st de : Nat) : d.Keeps (d.final now st de) now := by
  refine ⟨rfl, rfl, rfl, rfl, rfl, rfl, ?_⟩
  unfold Desc.final
  dsimp only
  split
  · exact .inr rfl
  · exact .inl rfl

/-- Descriptor `e` has become `e'`, which is complete with a status and detail. -/
structure Desc.Finished (e e' : Desc) (now st de : Nat) : Prop extends e.Keeps e' now where
  stage : e'.stage = .final
  status : e'.status = st
  detail : e'.detail = de

/-- A status that is fixed at once (R139). -/
theorem Ctl.fixNow_leads {c : Ctl} {k : Key} {e : Desc} (h : c.desc? k = some e) (hopen : e.completed = false) (st de : Nat) :
    ∃ e', c.Leads (c.fixNow k st de) k e' ∧ e.Finished e' c.refTicks st de := by
  have hfresh := (Ctl.Leads.refl h).beside (c.withdraw_beside k)
  have hfree := (hfresh.trans (Ctl.abandonFresh_leads hfresh.self)).beside (Ctl.releaseMap_beside _ k)
  have hput : ∀ {c' : Ctl} {d : Desc}, c.Leads c' k d → e.Keeps d c.refTicks →
      ∃ e', c.Leads ((c'.modDesc k fun d => d.final c'.refTicks st de).close k).reapRetired k e' ∧
        e.Finished e' c.refTicks st de := by
    intro c' d hd hk
    rw [hd.refTicks]
    have hfinal := hd.modDesc (f := fun d => d.final c.refTicks st de) fun _ => rfl
    obtain ⟨b, o, n, hclose⟩ := Ctl.close_leads hfinal.self
    exact ⟨_, (hfinal.trans hclose).beside (Ctl.reapRetired_beside _),
      (hk.trans (d.final_keeps c.refTicks st de)).trans ⟨rfl, rfl, rfl, rfl, rfl, rfl, .inl rfl⟩, rfl, rfl, rfl⟩
  unfold Ctl.fixNow
  rw [h]
  simp only [hopen, Bool.false_eq_true, if_false]
  refine hput (.beside (.beside (.beside hfree (.ite (Ctl.sendOutcome_beside _ _ _ _ _))) (.ite ?_))
    (.ite (Ctl.barrier_beside _ e))) ⟨rfl, rfl, rfl, rfl, rfl, rfl, .inl rfl⟩
  exact (Ctl.Beside.setReg _ _ (by decide) (by decide)).trans (.setReg _ _ (by decide) (by decide))

theorem Ctl.Leads.fixNow {c c' : Ctl} {k : Key} {e : Desc} (h : c.Leads c' k e) (hopen : e.completed = false) (st de : Nat) :
    ∃ e', c.Leads (c'.fixNow k st de) k e' ∧ e.Finished e' c.refTicks st de := by
  obtain ⟨e', hfix, hdone⟩ := Ctl.fixNow_leads h.self hopen st de
  exact ⟨e', h.trans hfix, h.refTicks ▸ hdone⟩

/-! ### Fixing a status in a pair -/

/-- Descriptor `e` of key `k` has become `e'`, which has a status and detail: it is complete, or waits with them for the peer. -/
structure Desc.Ended (e e' : Desc) (c : Ctl) (k : Key) (st de : Nat) : Prop extends e.Keeps e' c.refTicks where
  status : e'.status = st
  detail : e'.detail = de
  stage : e'.stage = .final ∨
    (e'.stage = .peer ∧ c.paired = true ∧ k.sub = 0 ∧ reconciled st = false ∧ e.committed = false)

theorem Desc.Finished.ended {e e' : Desc} {c : Ctl} {st de : Nat} (h : e.Finished e' c.refTicks st de) (k : Key) :
    e.Ended e' c k st de := ⟨h.toKeeps, h.status, h.detail, .inl h.stage⟩

/-- A descriptor that proposes a status to the peer (R317). -/
def Desc.proposing (d : Desc) (st de : Nat) : Desc :=
  { d with stage := .peer, status := st, detail := de, sigWait := true, proposed := true, deadline := none }

theorem Ctl.propose_leads {c : Ctl} {e : Desc} (h : c.desc? e.key = some e) (st de : Nat) :
    c.Leads (c.propose e st de) e.key (e.proposing st de) := by
  have hput := Ctl.Leads.modDesc (((Ctl.Leads.refl h).beside (c.withdraw_beside e.key)).beside (Ctl.releaseMap_beside _ e.key))
    (f := fun d => d.proposing st de) fun _ => rfl
  unfold Ctl.propose
  dsimp only
  split
  · exact hput
  · exact hput.beside (Ctl.sendSig_beside _ _ _ _)

/-- The peer's signature completes a proposal, halts the pair, or has not come (R317, R319). -/
theorem Ctl.agree_leads {c : Ctl} {e d : Desc} (h : c.desc? d.key = some e) (hstage : e.stage = .peer) (st de : Nat) :
    c.Leads (c.agree d st de) d.key e ∨ ∃ e', c.Leads (c.agree d st de) d.key e' ∧ e.Finished e' c.refTicks st de := by
  unfold Ctl.agree
  dsimp only
  split
  · split
    · exact .inr (Ctl.Leads.fixNow (.beside (.beside (.refl h) (c.setSigs_beside _)) (.setReg _ _ (by decide) (by decide)))
        (by simp [Desc.completed, hstage]) st de)
    · exact .inl (((Ctl.Leads.refl h).beside (c.setSigs_beside _)).beside (Ctl.mismatch_beside _ _ _ _))
  · exact .inl (.refl h)

theorem Ctl.desc?_key {c : Ctl} {k : Key} {e : Desc} (h : c.desc? k = some e) : e.key = k := by
  simpa using List.find?_some h

/-- Fixing a status leaves a descriptor that waits for the peer as it is, or ends it (R139, R316 to R318). -/
theorem Ctl.fix_leads {c : Ctl} {k : Key} {e : Desc} (h : c.desc? k = some e) (hopen : e.completed = false) (st de : Nat) :
    (e.stage = .peer ∧ c.fix k st de = c) ∨ ∃ e', c.Leads (c.fix k st de) k e' ∧ e.Ended e' c k st de := by
  have hkey := Ctl.desc?_key h
  subst hkey
  unfold Ctl.fix
  rw [h]
  dsimp only
  split
  next =>
    obtain ⟨e', hfix, hdone⟩ := Ctl.fixNow_leads h hopen st de
    exact .inr ⟨e', hfix, hdone.ended e.key⟩
  next hpair =>
    simp only [Bool.or_eq_true, not_or, Bool.not_eq_true, Bool.not_eq_false', decide_eq_true_eq, not_not] at hpair
    obtain ⟨⟨⟨⟨-, hpaired⟩, hsub⟩, hrec⟩, hcomm⟩ := hpair
    split
    next hpeer => exact .inl ⟨hpeer, rfl⟩
    next =>
      have hprop := Ctl.propose_leads h st de
      have hkeep : e.Keeps (e.proposing st de) c.refTicks := ⟨rfl, rfl, rfl, rfl, rfl, rfl, .inl rfl⟩
      rcases Ctl.agree_leads hprop.self rfl st de with hwait | ⟨e', hfix, hdone⟩
      · exact .inr ⟨_, hprop.trans hwait, hkeep, rfl, rfl, .inr ⟨rfl, by simpa using hpaired, hsub, hrec, hcomm⟩⟩
      · exact .inr ⟨e', hprop.trans hfix, hkeep.trans (hprop.refTicks ▸ hdone.toKeeps), hdone.status, hdone.detail,
          .inl hdone.stage⟩

/-- A completed descriptor keeps its status. -/
theorem Ctl.fix_of_completed {c : Ctl} {k : Key} {e : Desc} (h : c.desc? k = some e) (hdone : e.completed = true)
    (st de : Nat) : c.fix k st de = c := by
  simp [Ctl.fix, Ctl.fixNow, h, hdone]

theorem Ctl.fix_of_none {c : Ctl} {k : Key} (h : c.desc? k = none) (st de : Nat) : c.fix k st de = c := by
  simp [Ctl.fix, h]

/-- Everything that fixing a status can do: nothing, or end one descriptor. -/
theorem Ctl.fix_cases (c : Ctl) (k : Key) (st de : Nat) :
    c.fix k st de = c ∨ ∃ e e', c.desc? k = some e ∧ e.completed = false ∧ c.Leads (c.fix k st de) k e' ∧
      e.Ended e' c k st de := by
  cases h : c.desc? k with
  | none => exact .inl (Ctl.fix_of_none h st de)
  | some e =>
    cases hopen : e.completed with
    | true => exact .inl (Ctl.fix_of_completed h hopen st de)
    | false =>
      rcases Ctl.fix_leads h hopen st de with ⟨-, hsame⟩ | ⟨e', hleads, hended⟩
      · exact .inl hsame
      · exact .inr ⟨e, e', rfl, hopen, hleads, hended⟩

theorem Ctl.fix_apart (c : Ctl) (k : Key) (st de : Nat) : c.Apart (c.fix k st de) := by
  rcases c.fix_cases k st de with hsame | ⟨_, _, -, -, hleads, -⟩
  · rw [hsame]
    exact .refl c
  · exact hleads.toApart

/-! ### Completing a descriptor -/

theorem Ctl.complete_apart (c : Ctl) (k : Key) (st de : Nat) : c.Apart (c.complete k st de) := by
  unfold Ctl.complete
  split
  · exact c.fix_apart k st de
  · exact (c.fix_apart k st de).trans (Ctl.fix_apart _ _ _ _)

theorem Ctl.fences_apart (c : Ctl) : c.Apart c.fences :=
  Ctl.each_induction (P := c.Apart) (fun e d h => by
    split
    · exact (h.trans (e.fix_apart _ _ _)).trans (Ctl.wakeOnWork_beside _).toApart
    · exact h) _ (.refl c)

theorem Ctl.finish_apart (c : Ctl) (k : Key) (st de : Nat) : c.Apart (c.finish k st de) :=
  (c.complete_apart k st de).trans (Ctl.fences_apart _)

/-- What fixing statuses keeps, of the descriptors and the pairing alone, completing a descriptor keeps, with its FENCEs. -/
theorem Ctl.finish_induction {P : Ctl → Prop} (hbeside : ∀ c c', Ctl.Beside c c' → P c → P c') {st : Nat}
    (hfix : ∀ c k st' de, st' = st ∨ st' = 0 → P c → P (c.fix k st' de)) {c : Ctl} (k : Key) (de : Nat)
    (h : P (c.fix k st de)) : P (c.finish k st de) := by
  have hcomplete : P (c.complete k st de) := by
    unfold Ctl.complete
    split
    · exact h
    · exact hfix _ _ _ _ (.inl rfl) h
  refine Ctl.each_induction (P := P) (fun e d he => ?_) _ hcomplete
  split
  · exact hbeside _ _ (Ctl.wakeOnWork_beside _) (hfix _ _ _ _ (.inr rfl) he)
  · exact he

/-- Descriptor `k` has a status and detail, which no other completion changes any more: it is complete, or waits with them for
the peer. -/
def Ctl.Settled (c : Ctl) (k : Key) (st de : Nat) : Prop :=
  ∃ e, c.desc? k = some e ∧ e.status = st ∧ e.detail = de ∧ (e.stage = .final ∨
    (e.stage = .peer ∧ c.paired = true ∧ k.sub = 0 ∧ reconciled st = false ∧ e.committed = false))

theorem Ctl.Settled.concludes {c : Ctl} {k : Key} {st de : Nat} (h : c.Settled k st de) : c.concludes k st de := by
  obtain ⟨e, hdesc, hst, hde, hfinal | ⟨hpeer, hpaired, -, hrec, -⟩⟩ := h
  · exact ⟨e, hdesc, hst, hde, .inl hfinal⟩
  · exact ⟨e, hdesc, hst, hde, .inr ⟨hpaired, hrec, hpeer⟩⟩

/-- A status that a pair reconciles is final at once (R318). -/
theorem Ctl.Settled.endsWith {c : Ctl} {k : Key} {st de : Nat} (h : c.Settled k st de) (hrec : reconciled st = true) :
    c.endsWith k st de := by
  obtain ⟨e, hdesc, hst, hde, hfinal | ⟨-, -, -, hnot, -⟩⟩ := h
  · exact ⟨e, hdesc, hfinal, hst, hde⟩
  · simp [hrec] at hnot

theorem Ctl.Settled.beside {c c' : Ctl} {k : Key} {st de : Nat} (h : c.Settled k st de) (hb : c.Beside c') :
    c'.Settled k st de := by
  unfold Ctl.Settled
  rw [hb.desc? k, hb.paired]
  exact h

/-- A proposal waits for the peer whatever unreconciled status is fixed next. -/
theorem Ctl.fix_of_proposed {c : Ctl} {k : Key} {e : Desc} (h : c.desc? k = some e) (hstage : e.stage = .peer)
    (hpaired : c.paired = true) (hsub : k.sub = 0) {st : Nat} (hrec : reconciled st = false) (hcomm : e.committed = false)
    (de : Nat) : c.fix k st de = c := by
  simp [Ctl.fix, h, Desc.completed, hstage, hpaired, hsub, hrec, hcomm]

theorem Ctl.Settled.fix {c : Ctl} {k : Key} {st de : Nat} (h : c.Settled k st de) (j : Key) {st' : Nat} (de' : Nat)
    (hst : st' = st ∨ st' = 0) : (c.fix j st' de').Settled k st de := by
  obtain ⟨d, hd, hdst, hdde, hstage⟩ := h
  have hsame : c.fix j st' de' = c → (c.fix j st' de').Settled k st de := fun heq => by
    rw [heq]
    exact ⟨d, hd, hdst, hdde, hstage⟩
  by_cases hj : j = k
  · subst hj
    refine hsame ?_
    rcases hstage with hfinal | ⟨hpeer, hpaired, hsub, hrec, hcomm⟩
    · exact Ctl.fix_of_completed hd (by simp [Desc.completed, hfinal]) _ _
    · refine Ctl.fix_of_proposed hd hpeer hpaired hsub ?_ hcomm _
      rcases hst with rfl | rfl
      · exact hrec
      · rfl
  · rcases c.fix_cases j st' de' with heq | ⟨_, _, -, -, hleads, -⟩
    · exact hsame heq
    · unfold Ctl.Settled
      rw [hleads.others k hj, hleads.paired]
      exact ⟨d, hd, hdst, hdde, hstage⟩

theorem Ctl.fix_settled {c : Ctl} {k : Key} {e : Desc} (h : c.desc? k = some e) (hopen : e.completed = false)
    (hpeer : e.stage ≠ .peer) (st de : Nat) : (c.fix k st de).Settled k st de := by
  rcases Ctl.fix_leads h hopen st de with ⟨hstage, -⟩ | ⟨e', hleads, hended⟩
  · exact absurd hstage hpeer
  · refine ⟨e', hleads.self, hended.status, hended.detail, ?_⟩
    rw [hleads.paired, hended.committed]
    exact hended.stage

theorem Ctl.finish_settled {c : Ctl} {k : Key} {e : Desc} (h : c.desc? k = some e) (hopen : e.completed = false)
    (hpeer : e.stage ≠ .peer) (st de : Nat) : (c.finish k st de).Settled k st de :=
  Ctl.finish_induction (P := fun e => e.Settled k st de) (fun _ _ hb hs => hs.beside hb) (fun _ j _ de' hst hs => hs.fix j de' hst) k de
    (Ctl.fix_settled h hopen hpeer st de)

end Sys2Proof.Machine

/-!
SUPPORT. Step 4: which descriptor a kind command acts on, what a failed check does, and what a descriptor that passes has sampled
when it reaches step 5.
-/
namespace Sys2Proof.Machine

/-! ### The descriptor of a kind command -/

theorem Ctl.desc?_of_admits {c : Ctl} {k kind : Nat} {d : Desc} (h : c.admits k kind d) : c.desc? d.key = some d := by
  obtain ⟨-, hone, -, -, -⟩ := h
  rw [Ctl.desc?, ← List.head?_filter, hone, List.head?_cons]

theorem Ctl.stage_of_admits {c : Ctl} {k kind : Nat} {d : Desc} (h : c.admits k kind d) : d.stage = .check := by
  obtain ⟨hat, -, -, -, -⟩ := h
  simpa using List.find?_some hat

theorem Ctl.kind_of_admits {c : Ctl} {k kind : Nat} {d : Desc} (h : c.admits k kind d) : d.kind = kind := by
  obtain ⟨-, -, hkind, -, -⟩ := h
  exact hkind

/-- A kind command that the block takes has its effect on the descriptor at step 4. -/
theorem ctlStep_of_admits {s : State} {i : Instr} {k kind : Nat} {d : Desc} (ht : s.takes i = true)
    (h : s.ctl.admits k kind d) (f : Ctl → Desc → Ctl) :
    ctlStep i s (fun c => c.admitKind k kind f) = .next { s with ctl := f s.ctl d } := by
  obtain ⟨hat, -, hkind, hlink, hadm⟩ := h
  rw [ctlStep_takes _ ht, Ctl.admitKind, hat]
  simp [hkind, hlink, hadm]

/-! ### Step 5 reached -/

theorem Ctl.modDesc_modDesc (c : Ctl) (k : Key) {f : Desc → Desc} (g : Desc → Desc) (hf : ∀ d, (f d).key = d.key) :
    (c.modDesc k f).modDesc k g = c.modDesc k fun d => g (f d) := by
  unfold Ctl.modDesc
  congr 1
  rw [List.map_map]
  refine List.map_congr_left fun d _ => ?_
  by_cases hd : d.key = k <;> simp [hd, hf]

/-- Descriptor `d0` as it stands at step 5, where `d` is what step 4 saw of it (R53, R75, R178, R198). -/
def Ctl.reaching (c : Ctl) (d d0 : Desc) : Desc := { d0 with
  caps := ((d.reads ++ d.writes).eraseDups).map fun n => (n, (c.name n).inc),
  mods := (List.range 64).map fun i => c.reg (rMODQ_ACTIVE i),
  classRec := if d.kind = 1 then (c.classes.find? (·.1 = fld (d.w 1) 8 8)).map (·.2) else none,
  aux := if d.kind = 8 && d.routeKind = 2 then c.sampleProgram d else [],
  stage := .wait, order := c.nextOrder, started := c.refTicks }

/-- The control state with descriptor `k` at step 5. -/
def Ctl.reached (c : Ctl) (k : Key) : Ctl := (c.sampleAt4 k).reach5 k

/-- A descriptor with the moduli that the table holds. -/
def Ctl.withModuli (c : Ctl) (e : Desc) : Desc := { e with mods := (List.range 64).map fun i => c.reg (rMODQ_ACTIVE i) }

/-- The stream that a TILE_OP takes is given its moduli (R266). -/
def Ctl.giveModuli (c : Ctl) (d : Desc) : Ctl :=
  match c.streamOf d with
  | some e => c.modDesc e.key c.withModuli
  | none => c

theorem Ctl.giveModuli_frame (c : Ctl) (d : Desc) : c.giveModuli d = { c with descs := (c.giveModuli d).descs } := by
  unfold Ctl.giveModuli
  split <;> rfl

/-- Descriptor `d0` with what step 4 samples of it; `d` is what step 4 saw. -/
def Ctl.sampling (c : Ctl) (d d0 : Desc) : Desc := { d0 with
  caps := ((d.reads ++ d.writes).eraseDups).map fun n => (n, (c.name n).inc),
  mods := (List.range 64).map fun i => c.reg (rMODQ_ACTIVE i),
  classRec := if d.kind = 1 then (c.classes.find? (·.1 = fld (d.w 1) 8 8)).map (·.2) else none,
  aux := if d.kind = 8 && d.routeKind = 2 then c.sampleProgram d else [] }

theorem Ctl.sampling_descs (c : Ctl) (ds : List Desc) (d : Desc) : { c with descs := ds }.sampling d = c.sampling d := rfl

theorem Ctl.sampleAt4_eq {c : Ctl} {k : Key} {d : Desc} (h : c.desc? k = some d) :
    c.sampleAt4 k = (c.giveModuli d).modDesc k (c.sampling d) := by
  have hsame : (c.giveModuli d).sampling d = c.sampling d := by
    rw [Ctl.giveModuli_frame, Ctl.sampling_descs]
  unfold Ctl.sampleAt4
  rw [h, ← hsame]
  unfold Ctl.giveModuli
  dsimp only
  cases c.streamOf d with
  | none => rfl
  | some e => rfl

theorem Ctl.reached_eq {c : Ctl} {k : Key} {d : Desc} (h : c.desc? k = some d) :
    c.reached k = { (c.giveModuli d).modDesc k (c.reaching d) with nextOrder := c.nextOrder + 1 } := by
  unfold Ctl.reached Ctl.reach5
  rw [Ctl.sampleAt4_eq h, Ctl.modDesc_modDesc _ k (f := c.sampling d) _ fun _ => rfl, Ctl.giveModuli_frame]
  rfl

/-- Passing step 4 changes descriptors and the step-5 order alone. -/
theorem Ctl.reached_frame {c : Ctl} {k : Key} {d : Desc} (h : c.desc? k = some d) :
    c.reached k = { c with descs := (c.reached k).descs, nextOrder := c.nextOrder + 1 } := by
  rw [Ctl.reached_eq h, Ctl.giveModuli_frame]
  rfl

theorem Ctl.reached_apart {c : Ctl} {k : Key} {d : Desc} (h : c.desc? k = some d) : c.Apart (c.reached k) := by
  rw [Ctl.reached_frame h]
  exact .of_regs rfl rfl rfl rfl

theorem Ctl.reached_mem {c : Ctl} {k : Key} {d : Desc} (h : c.desc? k = some d) : (c.reached k).mem = c.mem := by
  rw [Ctl.reached_frame h]

/-- What stands at step 5 under the key of a descriptor that passed step 4. -/
theorem Ctl.desc?_reached {c : Ctl} {k : Key} {d : Desc} (h : c.desc? k = some d) :
    (c.reached k).desc? k = some (c.reaching d d) := by
  have hkeep : ∃ m, (c.giveModuli d).desc? k = some { d with mods := m } := by
    unfold Ctl.giveModuli
    split
    next e _ =>
      by_cases hk : e.key = k
      · exact ⟨_, by rw [hk, Ctl.desc?_modDesc_self c k c.withModuli fun _ => rfl, h]; rfl⟩
      · exact ⟨d.mods, by rw [Ctl.desc?_modDesc_ne c c.withModuli (fun _ => rfl) hk, h]⟩
    next => exact ⟨d.mods, h⟩
  obtain ⟨m, hm⟩ := hkeep
  rw [Ctl.reached_eq h]
  change ((c.giveModuli d).modDesc k (c.reaching d)).desc? k = _
  rw [Ctl.desc?_modDesc_self _ k (c.reaching d) fun _ => rfl, hm]
  rfl

/-- Only a TILE_OP gives a stream its moduli. -/
theorem Ctl.giveModuli_of_kind {c : Ctl} {d : Desc} (h : d.kind ≠ 1) : c.giveModuli d = c := by
  simp [Ctl.giveModuli, Ctl.streamOf, Desc.takesKey, h]

theorem Ctl.descs_reached {c : Ctl} {k : Key} {d : Desc} (h : c.desc? k = some d) (hkind : d.kind ≠ 1) :
    (c.reached k).descs = c.descs.map fun e => if e.key = k then c.reaching d e else e := by
  rw [Ctl.reached_eq h, Ctl.giveModuli_of_kind hkind]
  rfl

/-! ### The end of step 4 -/

theorem Ctl.admitted_fails {c : Ctl} {d : Desc} {chk : Chk} {st de : Nat} (h : chk = some (st, de)) (f : Ctl → Ctl) :
    c.admitted d chk f = c.finish d.key st de := by rw [h]; rfl

theorem Ctl.admitted_passes {c : Ctl} {d : Desc} {chk : Chk} (h : chk = none) (f : Ctl → Ctl) :
    c.admitted d chk f = f (c.reached d.key) := by rw [h]; rfl

/-- The first check that fails completes the descriptor with its status and detail. -/
theorem Ctl.admitted_concludes {c : Ctl} {d e : Desc} (hdesc : c.desc? d.key = some e) (hstage : e.stage = .check)
    {chk : Chk} {st de : Nat} (h : chk = some (st, de)) (f : Ctl → Ctl) : (c.admitted d chk f).concludes d.key st de := by
  rw [Ctl.admitted_fails h]
  exact (Ctl.finish_settled hdesc (by simp [Desc.completed, hstage]) (by simp [hstage]) st de).concludes

end Sys2Proof.Machine

/-!
SUPPORT. The kinds that act on Keystone or wait: the FENCEs that stand, the test of an ALLOC, and what a PIN does (R98, R100, R116,
R147, R149).
-/
namespace Sys2Proof.Machine

/-! ### The descriptors of a state at step 5 -/

theorem Ctl.mem_of_admits {c : Ctl} {k kind : Nat} {d : Desc} (h : c.admits k kind d) {e : Desc} (he : e ∈ c.descs)
    (hkey : e.key = d.key) : e = d := by
  obtain ⟨-, hone, -, -, -⟩ := h
  simpa [hone] using (List.mem_filter.mpr ⟨he, by simpa using hkey⟩ : e ∈ c.descs.filter fun e => e.key = d.key)

/-- Of the descriptors mapped at one key alone, those of a kind of which there was none else are that one. -/
theorem Ctl.filter_map_of_admits {c : Ctl} {k kind : Nat} {d : Desc} (h : c.admits k kind d) {p : Desc → Bool} {f : Desc → Desc}
    (hself : p (f d) = true) (hother : ∀ e ∈ c.descs, e.key ≠ d.key → p e = false) :
    (c.descs.map fun e => if e.key = d.key then f e else e).filter p = [f d] := by
  have hsame : ∀ e ∈ c.descs, (p ∘ fun e => if e.key = d.key then f e else e) e = decide (e.key = d.key) := by
    intro e he
    by_cases hkey : e.key = d.key
    · obtain rfl := Ctl.mem_of_admits h he hkey
      simp [hself]
    · simp [hkey, hother e he hkey]
  obtain ⟨-, hone, -, -, -⟩ := h
  rw [List.filter_map, List.filter_congr hsame, hone]
  simp

/-! ### FENCE -/

theorem tokenValue_notMem_doneRegs {n : Nat} (h : n < 256) : rTOKEN_VALUE n ∉ doneRegs := fun hmem => by
  have hapart : ∀ o ∈ doneRegs, o < 0x18000 ∨ 0x18800 ≤ o := by decide
  have := hapart _ hmem
  simp only [rTOKEN_VALUE] at this
  omega

/-- A FENCE is met as before where only descriptors have changed, none of them in its key or completion. -/
theorem Ctl.fenceMet_congr {c c' : Ctl} {d d' : Desc} {g : Desc → Desc} (hregs : c.keeps c' doneRegs) (hmem : c'.mem = c.mem)
    (hdescs : c'.descs = c.descs.map g) (hg : ∀ e ∈ c.descs, (g e).key = e.key ∧ (g e).completed = e.completed)
    (hwords : d'.words = d.words) (hkey : d'.key = d.key) : c'.fenceMet d' = c.fenceMet d := by
  have hw : ∀ i, d'.w i = d.w i := fun i => by rw [Desc.w, hwords, Desc.w]
  have htoken : c'.tokenMet d' = c.tokenMet d := by
    have hreg := hregs _ (tokenValue_notMem_doneRegs (n := fld (d.w 2) 0 8) (Nat.mod_lt _ (by decide)))
    rw [Ctl.tokenMet, hw, hw, hreg, Ctl.tokenMet]
  have holder : c'.olderDone d'.key = c.olderDone d.key := by
    have hdone : ∀ e ∈ c.descs, c'.hasCompleted (g e) = c.hasCompleted e := fun e he => by
      simp only [Ctl.hasCompleted, Ctl.writesOut, hmem, hg e he]
    rw [Ctl.olderDone, Ctl.olderDone, hdescs, List.all_map, hkey, Bool.eq_iff_iff, List.all_eq_true, List.all_eq_true]
    refine forall₂_congr fun e he => ?_
    simp only [Function.comp_apply, hdone e he, (hg e he).1]
  simp only [Ctl.fenceMet, hw, htoken, holder]

/-- Where no FENCE may go on, re-evaluating them changes nothing (R149). -/
theorem Ctl.fences_of_unmet {c : Ctl} (h : ∀ e ∈ c.descs, e.kind = 11 → e.stage = .wait → c.fenceMet e = false) :
    c.fences = c := by
  have hlist : ∀ l : List Desc, (∀ e ∈ l, c.fenceMet e = false) →
      (c.each l fun c d => if c.fenceMet d then (c.fix d.key 0 0).wakeOnWork else c) = c := by
    intro l hl
    induction l with
    | nil => rfl
    | cons e l ih =>
      rw [Ctl.each, List.foldl_cons, hl e (List.mem_cons_self ..)]
      exact ih fun e he => hl e (List.mem_cons_of_mem _ he)
  refine hlist _ fun e he => ?_
  obtain ⟨hmem, hwait⟩ := List.mem_filter.mp he
  simp only [Bool.and_eq_true, decide_eq_true_eq] at hwait
  exact h e hmem hwait.1 hwait.2

/-- A FENCE that alone may go on completes with OK (R149). -/
theorem Ctl.fences_settled {c : Ctl} {d : Desc} (hdesc : c.desc? d.key = some d) (hkind : d.kind = 11) (hwait : d.stage = .wait)
    (hmet : c.fenceMet d = true)
    (hother : ∀ e ∈ c.descs, e.kind = 11 → e.stage = .wait → e ≠ d → c.fenceMet e = false) : c.fences.Settled d.key 0 0 := by
  have hlist : ∀ l : List Desc, d ∈ l → (∀ e ∈ l, e ≠ d → c.fenceMet e = false) →
      (c.each l fun c d => if c.fenceMet d then (c.fix d.key 0 0).wakeOnWork else c).Settled d.key 0 0 := by
    intro l hl hrest
    induction l with
    | nil => simp at hl
    | cons e l ih =>
      rw [Ctl.each, List.foldl_cons]
      by_cases he : e = d
      · subst he
        rw [if_pos hmet]
        refine Ctl.each_induction (P := fun c => c.Settled e.key 0 0) (fun c x hc => ?_) l
          ((Ctl.fix_settled hdesc (by simp [Desc.completed, hwait]) (by simp [hwait]) 0 0).beside (Ctl.wakeOnWork_beside _))
        split
        · exact (hc.fix _ _ (.inl rfl)).beside (Ctl.wakeOnWork_beside _)
        · exact hc
      · rw [hrest e (List.mem_cons_self ..) he]
        exact ih ((List.mem_cons.mp hl).resolve_left (Ne.symm he)) fun x hx => hrest x (List.mem_cons_of_mem _ hx)
  refine hlist _ (List.mem_filter.mpr ⟨List.mem_of_find?_eq_some hdesc, by simp [hkind, hwait]⟩) fun e he hne => ?_
  obtain ⟨hmem, hkw⟩ := List.mem_filter.mp he
  simp only [Bool.and_eq_true, decide_eq_true_eq] at hkw
  exact hother e hmem hkw.1 hkw.2 hne

theorem Ctl.phaseRaise_mem (c : Ctl) (phase : Nat) : (c.phaseRaise phase).mem = c.mem := by
  have hput : ∀ v, (c.putVreq v).mem = c.mem := fun v => by
    unfold Ctl.putVreq
    split
    · rfl
    · dsimp only
      split <;> rfl
  unfold Ctl.phaseRaise
  dsimp only
  split
  · exact hput _
  · rfl

/-- A FENCE as step 4 leaves it, waiting (R147). -/
def Ctl.fenceWaiting (c : Ctl) (d e : Desc) : Desc := { c.reaching d e with
  admitted := true, deadline := if (d.w 4).toNat = 0 then none else some (c.after (d.w 4).toNat) }

/-- The control state with a FENCE waiting. -/
def Ctl.fenceReached (c : Ctl) (d : Desc) : Ctl :=
  ((c.reached d.key).phaseRaise d.phaseOf).modDesc d.key fun e => { e with
    admitted := true, deadline := if (d.w 4).toNat = 0 then none else some ((c.reached d.key).after (d.w 4).toNat) }

theorem Ctl.descs_fenceReached {c : Ctl} {d : Desc} (h : c.desc? d.key = some d) (hkind : d.kind = 11) :
    (c.fenceReached d).descs = c.descs.map fun e => if e.key = d.key then c.fenceWaiting d e else e := by
  have hafter : ∀ t, (c.reached d.key).after t = c.after t := fun t => by
    rw [Ctl.reached_frame h]
    rfl
  unfold Ctl.fenceReached
  rw [Ctl.modDesc, (Ctl.phaseRaise_beside _ _).descs, Ctl.descs_reached h (by simp [hkind]), List.map_map]
  refine List.map_congr_left fun e _ => ?_
  by_cases hkey : e.key = d.key
  · simp [hkey, hafter, Ctl.reaching, Ctl.fenceWaiting]
  · simp [hkey]

theorem Ctl.desc?_fenceReached {c : Ctl} {d : Desc} (h : c.desc? d.key = some d) :
    (c.fenceReached d).desc? d.key = some (c.fenceWaiting d d) := by
  have hafter : ∀ t, (c.reached d.key).after t = c.after t := fun t => by
    rw [Ctl.reached_frame h]
    rfl
  unfold Ctl.fenceReached
  rw [Ctl.desc?_modDesc_self, (Ctl.phaseRaise_beside _ _).desc?, Ctl.desc?_reached h]
  · simp [hafter, Ctl.fenceWaiting]
  · exact fun _ => rfl

theorem Ctl.fenceReached_keeps {c : Ctl} {d : Desc} (h : c.desc? d.key = some d) : c.keeps (c.fenceReached d) doneRegs :=
  ((Ctl.reached_apart h).trans (Ctl.phaseRaise_beside _ d.phaseOf).toApart).regs

theorem Ctl.fenceReached_mem {c : Ctl} {d : Desc} (h : c.desc? d.key = some d) : (c.fenceReached d).mem = c.mem :=
  (Ctl.phaseRaise_mem _ d.phaseOf).trans (Ctl.reached_mem h)

/-- Every FENCE of a state is met, or not, as before when one more comes to wait. -/
theorem Ctl.fenceMet_fenceReached {c : Ctl} {k : Nat} {d : Desc} (h : c.admits k 11 d) {e e' : Desc}
    (hwords : e'.words = e.words) (hkey : e'.key = e.key) : (c.fenceReached d).fenceMet e' = c.fenceMet e := by
  have hdesc := Ctl.desc?_of_admits h
  have hstage := Ctl.stage_of_admits h
  refine Ctl.fenceMet_congr (Ctl.fenceReached_keeps hdesc) (Ctl.fenceReached_mem hdesc)
    (Ctl.descs_fenceReached hdesc (Ctl.kind_of_admits h)) (fun x hx => ?_) hwords hkey
  split
  next hxk =>
    obtain rfl := Ctl.mem_of_admits h hx hxk
    simp [Ctl.fenceWaiting, Ctl.reaching, Desc.completed, hstage]
  next => exact ⟨rfl, rfl⟩

/-- No FENCE but the one that has come to wait may go on, where none could before. -/
theorem Ctl.fence_others {c : Ctl} {k : Nat} {d : Desc} (h : c.admits k 11 d)
    (hunmet : ∀ e ∈ c.descs, e.kind = 11 → e.stage = .wait → c.fenceMet e = false) {e : Desc}
    (he : e ∈ (c.fenceReached d).descs) (hkind : e.kind = 11) (hwait : e.stage = .wait) (hne : e ≠ c.fenceWaiting d d) :
    (c.fenceReached d).fenceMet e = false := by
  rw [Ctl.descs_fenceReached (Ctl.desc?_of_admits h) (Ctl.kind_of_admits h), List.mem_map] at he
  obtain ⟨x, hx, rfl⟩ := he
  split at hne
  next hxk =>
    obtain rfl := Ctl.mem_of_admits h hx hxk
    exact absurd rfl hne
  next hxk =>
    rw [if_neg hxk] at hkind hwait ⊢
    rw [Ctl.fenceMet_fenceReached h rfl rfl]
    exact hunmet x hx hkind hwait

/-- FENCE completes where its conditions hold, and else waits with its timeout (R147, R149). -/
theorem exec_fence {s : State} {k : Nat} {d : Desc} (ht : s.takes (.fence k) = true) (h : s.ctl.admits k 11 d)
    (hform : s.ctl.formCheck d = none)
    (hunmet : ∀ e ∈ s.ctl.descs, e.kind = 11 → e.stage = .wait → s.ctl.fenceMet e = false) :
    ∃ t, exec (.fence k) s = .next t ∧ (s.ctl.fenceMet d = true → t.ctl.concludes d.key 0 0) ∧
      (s.ctl.fenceMet d = false → ∃ e, t.ctl.desc? d.key = some e ∧ e.stage = .wait ∧
        e.deadline = if (d.w 4).toNat = 0 then none else some (s.ctl.refTicks + (d.w 4).toNat + 1)) := by
  have hdesc := Ctl.desc?_of_admits h
  have hself : (s.ctl.fenceReached d).fenceMet (s.ctl.fenceWaiting d d) = s.ctl.fenceMet d :=
    Ctl.fenceMet_fenceReached h rfl rfl
  refine ⟨_, ctlStep_of_admits ht h _, fun hmet => ?_, fun hmet => ?_⟩
  · rw [Ctl.admitted_passes hform]
    have hkind : (s.ctl.fenceWaiting d d).kind = 11 := Ctl.kind_of_admits (d := d) h
    exact (Ctl.fences_settled (d := s.ctl.fenceWaiting d d) (Ctl.desc?_fenceReached (d := d) hdesc) hkind rfl (hself.trans hmet)
      fun e he hk hw hne => Ctl.fence_others h hunmet he hk hw hne).concludes
  · rw [Ctl.admitted_passes hform]
    refine ⟨s.ctl.fenceWaiting d d, ?_, rfl, rfl⟩
    change (s.ctl.fenceReached d).fences.desc? d.key = _
    rw [Ctl.fences_of_unmet fun e he hk hw => ?_]
    · exact Ctl.desc?_fenceReached hdesc
    · by_cases hne : e = s.ctl.fenceWaiting d d
      · rw [hne]
        exact hself.trans hmet
      · exact Ctl.fence_others h hunmet he hk hw hne

/-! ### NOP and FREE -/

/-- NOP completes (R134). -/
theorem exec_nop {s : State} {k : Nat} {d : Desc} (ht : s.takes (.nop k) = true) (h : s.ctl.admits k 0 d)
    (hform : s.ctl.formCheck d = none) : ∃ t, exec (.nop k) s = .next t ∧ t.ctl.concludes d.key 0 0 := by
  refine ⟨_, ctlStep_of_admits ht h _, ?_⟩
  rw [Ctl.admitted_passes hform]
  exact (Ctl.finish_settled (Ctl.desc?_reached (Ctl.desc?_of_admits h)) rfl (by simp [Ctl.reaching]) 0 0).concludes

/-- FREE waits for its commit (R54). -/
theorem exec_freeName {s : State} {k : Nat} {d : Desc} (ht : s.takes (.freeName k) = true) (h : s.ctl.admits k 13 d)
    (hchecks : (s.ctl.formCheck d <|> s.ctl.tileChecks d) = none) :
    ∃ t e, exec (.freeName k) s = .next t ∧ t.ctl.desc? d.key = some e ∧ e.stage = .written := by
  refine ⟨_, { s.ctl.reaching d d with stage := .written, admitted := true }, ctlStep_of_admits ht h _, ?_, rfl⟩
  rw [Ctl.admitted_passes hchecks]
  have hreached := Ctl.desc?_reached (Ctl.desc?_of_admits h)
  refine (Ctl.desc?_modDesc_self _ _ _ ?_).trans ?_
  · exact fun _ => rfl
  · rw [(Ctl.phaseRaise_beside _ _).desc?, hreached]
    rfl

/-! ### ALLOC -/

theorem Ctl.reached_capacity {c : Ctl} {k : Key} {d : Desc} (h : c.desc? k = some d) : (c.reached k).capacity = c.capacity := by
  rw [Ctl.reached_frame h]
  rfl

/-- An ALLOC that has not been granted claims nothing (R98). -/
theorem Ctl.reached_claimed {c : Ctl} {k : Nat} {d : Desc} (h : c.admits k 12 d) (hgranted : d.granted = false) :
    (c.reached d.key).claimed = c.claimed := by
  have hdesc := Ctl.desc?_of_admits h
  have hdescs := Ctl.descs_reached hdesc (by simp [Ctl.kind_of_admits h])
  have hsame : ((c.reached d.key).descs.filter fun e => e.kind = 12 && e.granted && !e.completed) =
      c.descs.filter fun e => e.kind = 12 && e.granted && !e.completed := by
    rw [hdescs]
    generalize hl : c.descs = l
    have hsub : ∀ e ∈ l, e.key = d.key → e = d := fun e he hkey => Ctl.mem_of_admits h (hl ▸ he) hkey
    clear hl hdescs
    induction l with
    | nil => rfl
    | cons e l ih =>
      have ih := ih fun e he => hsub e (List.mem_cons_of_mem _ he)
      rw [List.map_cons, List.filter_cons, List.filter_cons, ih]
      by_cases hkey : e.key = d.key
      · obtain rfl := hsub e (List.mem_cons_self ..) hkey
        simp [hgranted, Ctl.reaching]
      · rw [if_neg hkey]
  unfold Ctl.claimed
  rw [hsame, (Ctl.reached_apart hdesc).names]

theorem Ctl.reached_scarce {c : Ctl} {k : Nat} {d : Desc} (h : c.admits k 12 d) (hgranted : d.granted = false) :
    (c.reached d.key).scarce = c.scarce := by
  rw [Ctl.scarce, Ctl.reached_capacity (Ctl.desc?_of_admits h), Ctl.reached_claimed h hgranted, Ctl.scarce]

theorem Ctl.reached_fillsOn {c : Ctl} {k : Key} {d : Desc} (h : c.desc? k = some d) : (c.reached k).fillsOn = c.fillsOn := by
  rw [Ctl.reached_frame h]
  rfl

theorem Ctl.reached_serviceLost {c : Ctl} {k : Key} {d : Desc} (h : c.desc? k = some d) :
    (c.reached k).serviceLost = c.serviceLost := by
  rw [Ctl.reached_frame h]
  rfl

theorem Ctl.reached_shortage {c : Ctl} {k : Nat} {d : Desc} (h : c.admits k 12 d) (hgranted : d.granted = false) :
    (c.reached d.key).shortage = c.shortage := by
  have hdesc := Ctl.desc?_of_admits h
  rw [Ctl.shortage, Ctl.reached_fillsOn hdesc, Ctl.reached_serviceLost hdesc, Ctl.reached_scarce h hgranted, Ctl.shortage]

/-- Where every other ALLOC has been granted, the test is of the new one alone (R98). -/
theorem Ctl.testAllocs_reached {c : Ctl} {k : Nat} {d : Desc} (h : c.admits k 12 d) (hgranted : d.granted = false)
    (hothers : ∀ e ∈ c.descs, e.kind = 12 → e.stage = .wait → e.granted = true) :
    (c.reached d.key).testAllocs = (c.reached d.key).allocTest (c.reaching d d) := by
  have hkind := Ctl.kind_of_admits h
  have hsole : (c.reached d.key).descs.filter (fun d => d.kind = 12 && d.stage = .wait && !d.granted) = [c.reaching d d] := by
    rw [Ctl.descs_reached (Ctl.desc?_of_admits h) (by simp [hkind])]
    refine Ctl.filter_map_of_admits h ?_ fun e he _ => ?_
    · have hnew : (c.reaching d d).kind = 12 ∧ (c.reaching d d).stage = .wait ∧ (c.reaching d d).granted = false :=
        ⟨hkind, rfl, hgranted⟩
      simp [hnew]
    · have := hothers e he
      simp only [Bool.and_eq_false_iff, decide_eq_false_iff_not, Bool.not_eq_false']
      tauto
  unfold Ctl.testAllocs
  rw [hsole]
  rfl

/-- The test of one ALLOC at step 5 (R98, R100, R395). -/
theorem Ctl.allocTest_outcome {c : Ctl} {e : Desc} (hdesc : c.desc? e.key = some e) (hstage : e.stage = .wait) :
    (c.shortage = true → (c.allocTest e).endsWith e.key 0x40 2) ∧
      (c.shortage = false → (c.fillsOn && c.scarce) = true → (c.allocTest e).desc? e.key = some e) ∧
      (c.shortage = false → (c.fillsOn && c.scarce) = false →
        (c.claimed + shapeClaim (e.w 4) + 2048 * fld (c.reg rKS_RESERVE) 8 6 ≤ c.capacity →
          (c.allocTest e).desc? e.key = some { e with granted := true }) ∧
        (c.capacity < c.claimed + shapeClaim (e.w 4) + 2048 * fld (c.reg rKS_RESERVE) 8 6 →
          (c.allocTest e).endsWith e.key 0x40 1 ∧ bit ((c.allocTest e).reg rKS_STATUS) 0 = true)) := by
  have hopen : e.completed = false := by simp [Desc.completed, hstage]
  have hpeer : e.stage ≠ .peer := by simp [hstage]
  refine ⟨fun hshort => ?_, fun hshort hfills => ?_, fun hshort hfills => ⟨fun hroom => ?_, fun hroom => ?_⟩⟩
  · rw [Ctl.allocTest, if_pos hshort]
    exact (Ctl.finish_settled hdesc hopen hpeer _ _).endsWith rfl
  · rw [Ctl.allocTest, if_neg (by simp [hshort]), if_pos hfills]
    exact hdesc
  · rw [Ctl.allocTest, Ctl.rf, if_neg (by simp [hshort]), if_neg (by simp [hfills]), if_pos hroom]
    refine (Ctl.desc?_modDesc_self _ _ _ ?_).trans ?_
    · exact fun _ => rfl
    · rw [hdesc]
      rfl
  · rw [Ctl.allocTest, Ctl.rf, if_neg (by simp [hshort]), if_neg (by simp [hfills]), if_neg (not_le.mpr hroom)]
    refine ⟨(Ctl.finish_settled (c := c.raise rKS_STATUS 0) hdesc hopen hpeer _ _).endsWith rfl, ?_⟩
    rw [(Ctl.finish_apart (c.raise rKS_STATUS 0) _ _ _).regs rKS_STATUS (by decide), Ctl.reg_raise, if_pos rfl,
      bit_raised _ (by decide)]
    simp

/-- ALLOC is granted its claim, completes with NO_ROOM or SHORTAGE, or waits untested (R98, R100, R395). -/
theorem exec_alloc {s : State} {k : Nat} {d : Desc} (ht : s.takes (.alloc k) = true) (h : s.ctl.admits k 12 d)
    (hchecks : (s.ctl.formCheck d <|> s.ctl.tileChecks d) = none) (hgranted : d.granted = false)
    (hothers : ∀ e ∈ s.ctl.descs, e.kind = 12 → e.stage = .wait → e.granted = true) :
    ∃ t, exec (.alloc k) s = .next t ∧ (s.ctl.shortage = true → t.ctl.endsWith d.key 0x40 2) ∧
      (s.ctl.shortage = false → (s.ctl.fillsOn && s.ctl.scarce) = true →
        ∃ e, t.ctl.desc? d.key = some e ∧ e.stage = .wait ∧ e.granted = false) ∧
      (s.ctl.shortage = false → (s.ctl.fillsOn && s.ctl.scarce) = false →
        (s.ctl.claimed + shapeClaim (d.w 4) + 2048 * fld (s.ctl.reg rKS_RESERVE) 8 6 ≤ s.ctl.capacity →
          ∃ e, t.ctl.desc? d.key = some e ∧ e.stage = .wait ∧ e.granted = true) ∧
        (s.ctl.capacity < s.ctl.claimed + shapeClaim (d.w 4) + 2048 * fld (s.ctl.reg rKS_RESERVE) 8 6 →
          t.ctl.endsWith d.key 0x40 1 ∧ bit (t.ctl.reg rKS_STATUS) 0 = true)) := by
  have hdesc := Ctl.desc?_of_admits h
  have hreg := (Ctl.reached_apart hdesc).regs rKS_RESERVE (by decide)
  obtain ⟨hshort, hwait, htest⟩ := Ctl.allocTest_outcome (c := s.ctl.reached d.key)
    (e := s.ctl.reaching d d) (Ctl.desc?_reached hdesc) rfl
  rw [Ctl.reached_shortage h hgranted] at hshort hwait htest
  rw [Ctl.reached_fillsOn hdesc, Ctl.reached_scarce h hgranted] at hwait htest
  rw [Ctl.reached_claimed h hgranted, Ctl.reached_capacity hdesc, hreg] at htest
  refine ⟨_, ctlStep_of_admits ht h _, ?_⟩
  rw [Ctl.admitted_passes hchecks, Ctl.testAllocs_reached h hgranted hothers]
  exact ⟨hshort, fun hs hf => ⟨_, hwait hs hf, rfl, hgranted⟩,
    fun hs hf => ⟨fun hroom => ⟨_, (htest hs hf).1 hroom, rfl, rfl⟩, (htest hs hf).2⟩⟩

/-! ### PIN -/

theorem Ctl.requireMig_beside (c : Ctl) (n : Nat) : c.Beside (c.requireMig n) := by
  have hwant : c.Beside (c.wantMig n) := by
    unfold Ctl.wantMig
    split
    · exact .refl c
    · exact .of_regs rfl rfl rfl rfl rfl
  unfold Ctl.requireMig
  dsimp only
  split
  · exact .refl c
  · split
    · exact hwant
    · split
      next t _ =>
        unfold Ctl.startMig
        dsimp only
        refine .trans (.trans (c.setSlots_beside t.slots .fresh (.mig n)) ?_) (Ctl.addJobs_beside _ _)
        exact .of_regs rfl rfl rfl rfl rfl
      next => exact hwant

/-- A pin that its slices satisfy is recorded, and nothing else of the names changes (R116). -/
theorem Ctl.applyPin_apart {c : Ctl} {n : Nat} {mask : BitVec 64} (offset : Option Nat)
    (hlist : (c.pinList { mask := mask, offset := offset, broken := false }
      ((c.name n).table.span / c.foldFor (c.name n).table.span)).isSome = true) :
    (c.modName n fun r => { r with pin := some { mask := mask, offset := offset, broken := false } }).Beside
      (c.applyPin n mask offset) := by
  unfold Ctl.applyPin
  dsimp only
  rw [if_neg (by simpa [Option.isSome_iff_ne_none] using hlist)]
  split
  · exact .refl _
  · exact Ctl.requireMig_beside _ n

/-- What a PIN does to its name and to its descriptor (R115, R116). -/
theorem Ctl.doPin_outcome {c : Ctl} {d e : Desc} (hdesc : c.desc? d.key = some e) (hstage : e.stage = .wait) {n : Nat}
    (hn : n = fld (d.w 2) 0 14) :
    (bit (c.reg rKS_CTL_ACT) 0 = false → (c.doPin d).endsWith d.key 0x40 4 ∧ (c.doPin d).names = c.names) ∧
      (bit (c.reg rKS_CTL_ACT) 0 = true → bit (d.w 1) 8 = true →
        (c.doPin d).concludes d.key 0 0 ∧ ((c.doPin d).name n).pin = none) ∧
      (bit (c.reg rKS_CTL_ACT) 0 = true → bit (d.w 1) 8 = false →
        (c.pinList { mask := d.addr 4, offset := none, broken := false }
          ((c.name n).table.span / c.foldFor (c.name n).table.span)).isSome = true →
        (c.doPin d).concludes d.key 0 0 ∧ ((c.doPin d).name n).pin = some
          { mask := d.addr 4, offset := if bit (d.w 1) 9 then some (fld (d.w 1) 10 5) else none, broken := false }) := by
  subst hn
  have hopen : e.completed = false := by simp [Desc.completed, hstage]
  have hpeer : e.stage ≠ .peer := by simp [hstage]
  have hrecorded : ∀ {c' : Ctl} {p : Option Pin} (n : Nat), (c.modName n fun r => { r with pin := p }).Beside c' →
      (c'.finish d.key 0 0).concludes d.key 0 0 ∧ ((c'.finish d.key 0 0).name n).pin = p := by
    intro c' p n hb
    refine ⟨(Ctl.finish_settled ((hb.desc? d.key).trans hdesc) hopen hpeer 0 0).concludes, ?_⟩
    rw [Ctl.name, (Ctl.finish_apart _ _ _ _).names, hb.names, Ctl.modName]
    simp
  unfold Ctl.doPin
  dsimp only
  refine ⟨fun hexpert => ?_, fun hexpert hremove => ?_, fun hexpert hrecord hlist => ?_⟩
  · rw [if_pos (by simp [hexpert])]
    exact ⟨(Ctl.finish_settled (c := c.raise rKS_STATUS 3) hdesc hopen hpeer _ _).endsWith rfl, (Ctl.finish_apart _ _ _ _).names⟩
  · rw [if_neg (by simp [hexpert]), if_pos hremove]
    exact hrecorded _ (.refl _)
  · rw [if_neg (by simp [hexpert]), if_neg (by simp [hrecord]), if_neg (by simpa [Option.isSome_iff_ne_none] using hlist)]
    exact hrecorded _ (Ctl.applyPin_apart _ hlist)

theorem Ctl.reached_pinList {c : Ctl} {k : Key} {d : Desc} (h : c.desc? k = some d) (p : Pin) (n : Nat) :
    (c.reached k).pinList p n = c.pinList p n := by
  rw [Ctl.reached_frame h]
  rfl

theorem Ctl.reached_foldFor {c : Ctl} {k : Key} {d : Desc} (h : c.desc? k = some d) (n : Nat) :
    (c.reached k).foldFor n = c.foldFor n := by
  rw [Ctl.reached_frame h]
  rfl

theorem Ctl.reached_name {c : Ctl} {k : Key} {d : Desc} (h : c.desc? k = some d) (n : Nat) :
    (c.reached k).name n = c.name n := by
  rw [Ctl.name, (Ctl.reached_apart h).names, Ctl.name]

/-- PIN needs EXPERT, and then records or removes the pin (R115, R116). -/
theorem exec_pin {s : State} {k n : Nat} {d : Desc} (ht : s.takes (.pin k) = true) (h : s.ctl.admits k 14 d)
    (hchecks : (s.ctl.formCheck d <|> s.ctl.check12 d d.tiles) = none) (hn : n = fld (d.w 2) 0 14) :
    ∃ t, exec (.pin k) s = .next t ∧
      (bit (s.ctl.reg rKS_CTL_ACT) 0 = false → t.ctl.endsWith d.key 0x40 4 ∧ t.ctl.names = s.ctl.names) ∧
      (bit (s.ctl.reg rKS_CTL_ACT) 0 = true → bit (d.w 1) 8 = true →
        t.ctl.concludes d.key 0 0 ∧ (t.ctl.name n).pin = none) ∧
      (bit (s.ctl.reg rKS_CTL_ACT) 0 = true → bit (d.w 1) 8 = false →
        (s.ctl.pinList { mask := d.addr 4, offset := none, broken := false }
          ((s.ctl.name n).table.span / s.ctl.foldFor (s.ctl.name n).table.span)).isSome = true →
        t.ctl.concludes d.key 0 0 ∧ (t.ctl.name n).pin = some
          { mask := d.addr 4, offset := if bit (d.w 1) 9 then some (fld (d.w 1) 10 5) else none, broken := false }) := by
  have hdesc := Ctl.desc?_of_admits h
  have hreached := Ctl.reached_apart hdesc
  have hout := Ctl.doPin_outcome (Ctl.desc?_reached hdesc) rfl hn
  rw [Ctl.reached_name hdesc, Ctl.reached_foldFor hdesc, Ctl.reached_pinList hdesc, hreached.regs rKS_CTL_ACT (by decide),
    hreached.names] at hout
  refine ⟨_, ctlStep_of_admits ht h _, ?_⟩
  rw [Ctl.admitted_passes hchecks]
  exact hout

/-- Settles O42: each kind by its own lemma, on the descriptor that step 4 has let through. -/
theorem simpleKinds : Obligations.SimpleKinds :=
  ⟨fun _ _ _ => exec_nop, fun _ _ _ => exec_fence, fun _ _ _ => exec_alloc, fun _ _ _ => exec_freeName,
    fun _ _ _ _ => exec_pin⟩

end Sys2Proof.Machine

/-!
SUPPORT. The modulus table at a write and at a generation commit (R74, R408): which part of a commit touches its registers.
-/
namespace Sys2Proof.Machine

/-! ### Updates that leave the modulus table -/

/-- Every register of the pending and of the active modulus table keeps its value. -/
def Ctl.KeepsModuli (c c' : Ctl) : Prop := ∀ o, 0x1400 ≤ o → o < 0x1700 → c'.reg o = c.reg o

theorem Ctl.KeepsModuli.refl (c : Ctl) : c.KeepsModuli c := fun _ _ _ => rfl

theorem Ctl.KeepsModuli.trans {c c' c'' : Ctl} (h : c.KeepsModuli c') (h' : c'.KeepsModuli c'') : c.KeepsModuli c'' :=
  fun o hlo hhi => (h' o hlo hhi).trans (h o hlo hhi)

theorem Ctl.KeepsModuli.of_regs {c c' : Ctl} (hp : c'.part = c.part) (hr : c'.regs = c.regs) : c.KeepsModuli c' :=
  fun o _ _ => Ctl.reg_congr hp hr o

theorem Ctl.KeepsModuli.of_apart {c c' : Ctl} (h : c.Apart c') : c.KeepsModuli c' := fun o hlo hhi =>
  h.regs o fun hmem => by
    have houtside : ∀ x ∈ doneRegs, x < 0x1400 ∨ 0x1700 ≤ x := by decide
    have := houtside o hmem
    omega

theorem Ctl.KeepsModuli.setReg (c : Ctl) {off : Nat} (v : Word) (h : off < 0x1400 ∨ 0x1700 ≤ off) :
    c.KeepsModuli (c.setReg off v) := fun o _ _ => Ctl.reg_setReg_ne c v (by omega)

theorem Ctl.KeepsModuli.setRf (c : Ctl) {off : Nat} (lo n v : Nat) (h : off < 0x1400 ∨ 0x1700 ≤ off) :
    c.KeepsModuli (c.setRf off lo n v) := .setReg c _ h

theorem Ctl.KeepsModuli.raise (c : Ctl) {off : Nat} (i : Nat) (h : off < 0x1400 ∨ 0x1700 ≤ off) :
    c.KeepsModuli (c.raise off i) := .setReg c _ h

theorem Ctl.KeepsModuli.lower (c : Ctl) {off : Nat} (i : Nat) (h : off < 0x1400 ∨ 0x1700 ≤ off) :
    c.KeepsModuli (c.lower off i) := .setReg c _ h

theorem Ctl.KeepsModuli.count (c : Ctl) {off : Nat} (n : Nat) (h : off < 0x1400 ∨ 0x1700 ≤ off) :
    c.KeepsModuli (c.count off n) := .setReg c _ h

theorem Ctl.KeepsModuli.each {α : Type} (c : Ctl) (l : List α) {f : Ctl → α → Ctl}
    (hf : ∀ (c : Ctl), ∀ a ∈ l, c.KeepsModuli (f c a)) : c.KeepsModuli (c.each l f) := by
  induction l generalizing c with
  | nil => exact .refl c
  | cons a l ih =>
    exact (hf c a (List.mem_cons_self ..)).trans (ih _ fun c x hx => hf c x (List.mem_cons_of_mem _ hx))

theorem Ctl.activate_keepsModuli (c : Ctl) {ps : List (Nat × Nat)} (h : ∀ p ∈ ps, p.2 < 0x1400 ∨ 0x1700 ≤ p.2) :
    c.KeepsModuli (c.activate ps) :=
  .each c ps fun c p hp => .setReg c _ (h p hp)

theorem Ctl.zeroRegs_keepsModuli (c : Ctl) {offs : List Nat} (h : ∀ o ∈ offs, o < 0x1400 ∨ 0x1700 ≤ o) :
    c.KeepsModuli (c.zeroRegs offs) := fun o hlo hhi => by
  rw [Ctl.zeroRegs_reg, if_neg fun hmem => by have := h o hmem; omega]

/-! ### Copying pending registers -/

theorem Ctl.activate_reg_of_notMem (c : Ctl) {ps : List (Nat × Nat)} {o : Nat} (h : o ∉ ps.map (·.2)) :
    (c.activate ps).reg o = c.reg o := by
  induction ps generalizing c with
  | nil => rfl
  | cons p ps ih =>
    simp only [List.map_cons, List.mem_cons, not_or] at h
    exact (ih _ h.2).trans (Ctl.reg_setReg_ne c _ (Ne.symm h.1))

/-- Each active register takes its pending one, where no register is both and none is taken twice. -/
theorem Ctl.activate_reg (c : Ctl) {ps : List (Nat × Nat)} (hapart : ∀ p ∈ ps, ∀ q ∈ ps, p.2 ≠ q.1)
    (honce : (ps.map (·.2)).Nodup) {p : Nat × Nat} (hp : p ∈ ps) : (c.activate ps).reg p.2 = c.reg p.1 := by
  induction ps generalizing c with
  | nil => simp at hp
  | cons q ps ih =>
    rw [List.map_cons, List.nodup_cons] at honce
    change ((c.setReg q.2 (c.reg q.1)).activate ps).reg p.2 = c.reg p.1
    rcases List.mem_cons.mp hp with rfl | hrest
    · rw [Ctl.activate_reg_of_notMem _ honce.1, Ctl.reg_setReg_self]
    · rw [ih _ (fun a ha b hb => hapart a (List.mem_cons_of_mem _ ha) b (List.mem_cons_of_mem _ hb)) honce.2 hrest]
      exact Ctl.reg_setReg_ne c _ (hapart q (List.mem_cons_self ..) p hp)

/-! ### The parts of a commit -/

theorem Ctl.dropOperand_beside (c : Ctl) (q : Key) (n : Nat) : c.Beside (c.dropOperand q n) := by
  unfold Ctl.dropOperand
  dsimp only
  split
  · exact .trans (.trans (c.modPort_beside n _) (Ctl.setJobs_beside _ _)) (Ctl.modNet_beside _ _)
  · exact .refl c

theorem Ctl.dropPrefetch_keepsModuli (c : Ctl) (k : Key) : c.KeepsModuli (c.dropPrefetch k) := by
  have hfrom : ∀ {c' : Ctl} {d : Desc} (f : Desc → Desc), c'.desc? k = some d → c.Beside c' →
      c.KeepsModuli ((((c'.withdraw k).abandonFresh k).modDesc k f).count rPF_DROPPED 1) := by
    intro c' d f hd hb
    have hfresh := Ctl.abandonFresh_leads (((c'.withdraw_beside k).desc? k).trans hd)
    refine .trans (.trans (.of_apart (hb.toApart.trans ((c'.withdraw_beside k).toApart.trans hfresh.toApart))) ?_)
      (.count _ 1 (by decide))
    exact .of_regs rfl rfl
  unfold Ctl.dropPrefetch
  split
  next d hd =>
    split
    · split
      next q _ =>
        have hb := Ctl.Beside.each c (List.range c.slicesN) fun c n => c.dropOperand_beside q n
        exact hfrom _ ((hb.desc? k).trans hd) hb
      next => exact hfrom _ hd (.refl c)
    · exact .refl c
  next => exact .refl c

/-- The moduli and the registers that a commit copies them to. -/
def moduliCopies : List (Nat × Nat) := (List.range 64).map fun i => (rMODQ_TABLE i, rMODQ_ACTIVE i)

theorem Ctl.activate_moduli (c : Ctl) {k : Nat} (hk : k < 64) :
    (c.activate moduliCopies).reg (rMODQ_ACTIVE k) = c.reg (rMODQ_TABLE k) := by
  have hapart : ∀ p ∈ moduliCopies, ∀ q ∈ moduliCopies, p.2 ≠ q.1 := by
    simp only [moduliCopies, List.mem_map, List.mem_range]
    rintro _ ⟨i, -, rfl⟩ _ ⟨j, hj, rfl⟩ heq
    simp only [rMODQ_ACTIVE, rMODQ_TABLE] at heq
    omega
  have honce : (moduliCopies.map (·.2)).Nodup := by
    rw [moduliCopies, List.map_map]
    exact List.nodup_range.map fun i j hij => by simpa using hij
  exact c.activate_reg hapart honce (p := (rMODQ_TABLE k, rMODQ_ACTIVE k)) (List.mem_map.mpr ⟨k, List.mem_range.mpr hk, rfl⟩)

/-- The active modulus table becomes the pending one (R408). -/
theorem Ctl.activateModuli_reg (c : Ctl) {k : Nat} (hk : k < 64) :
    c.activateModuli.reg (rMODQ_ACTIVE k) = c.reg (rMODQ_TABLE k) := by
  have hdrop : ∀ (c : Ctl) (ds : List Desc), c.KeepsModuli (c.each ds fun c d => c.dropPrefetch d.key) := fun c ds =>
    .each c ds fun c d _ => c.dropPrefetch_keepsModuli d.key
  unfold Ctl.activateModuli
  dsimp only
  refine (hdrop _ _ _ ?_ ?_).trans (c.activate_moduli hk)
  · simp only [rMODQ_ACTIVE]
    omega
  · simp only [rMODQ_ACTIVE]
    omega

theorem Ctl.activateReserve_keepsModuli (c : Ctl) : c.KeepsModuli c.activateReserve := by
  unfold Ctl.activateReserve
  split
  · exact .setRf c _ _ _ (by decide)
  · exact .trans (.raise c _ (by decide)) (.raise _ _ (by decide))

theorem Ctl.activateArb_keepsModuli (c : Ctl) : c.KeepsModuli c.activateArb := by
  have hcopy := c.activate_keepsModuli
    (ps := (rARB_CTL, rARB_CTL_ACT) :: (List.range 7).map fun i => (rARB_WEIGHT i, rARB_WEIGHT_ACT i)) (by decide)
  unfold Ctl.activateArb
  split
  · exact .trans (.trans (.raise c _ (by decide)) (.setRf _ _ _ _ (by decide))) (.raise _ _ (by decide))
  · dsimp only
    split
    · exact hcopy
    · exact hcopy.trans (.lower _ _ (by decide))

theorem Ctl.activateEnergy_keepsModuli (c : Ctl) : c.KeepsModuli c.activateEnergy := by
  have hcopy := c.activate_keepsModuli (ps := ((List.range 10).map fun k => (rEC k, rEC_ACT k)) ++
    [(rSTATIC_NJ, rSTATIC_NJ_ACT), (rTICK_CAL, rTICK_CAL_ACT), (rKINIT, rKINIT_ACT)]) (by decide)
  unfold Ctl.activateEnergy
  dsimp only
  refine .trans (.trans (.trans (.trans (.trans hcopy (.setRf _ _ _ _ ?_)) (.lower _ _ ?_)) (.lower _ _ ?_))
    (Ctl.zeroRegs_keepsModuli _ ?_)) (Ctl.KeepsModuli.of_apart (Ctl.modPower_beside _ _).toApart) <;> decide

theorem Ctl.settle_keepsModuli (c : Ctl) : c.KeepsModuli c.settle := by
  unfold Ctl.settle
  split
  · exact .refl c
  · dsimp only
    split
    · exact .raise c _ (by decide)
    · exact .each c _ fun c n _ => .of_apart (c.requireMig_beside n).toApart

theorem Ctl.activateInt_keepsModuli (c : Ctl) : c.KeepsModuli c.activateInt := by
  have hcopy : c.KeepsModuli ((c.activate [(rINT_CTL, rINT_CTL_ACT)]).setRf rKS_SEED 16 16 (c.rf rKS_SEED 0 16)) :=
    .trans (c.activate_keepsModuli (by decide)) (.setRf _ _ _ _ (by decide))
  have hend : ∀ {c' : Ctl} {p : Prop} [Decidable p], c.KeepsModuli c' →
      c.KeepsModuli (if p then (c'.lower rINT_STATUS 16).settle else c') := by
    intro c' p _ h
    split
    · exact h.trans (.trans (.lower c' _ (by decide)) (Ctl.settle_keepsModuli _))
    · exact h
  unfold Ctl.activateInt
  dsimp only
  refine hend ?_
  split
  · exact hcopy.trans (.of_regs rfl rfl)
  · exact hcopy

/-- A commit makes the pending modulus table the active one (R74, R408). -/
theorem Ctl.commitGen_moduli (c : Ctl) {k : Nat} (hk : k < 64) : c.commitGen.reg (rMODQ_ACTIVE k) = c.reg (rMODQ_TABLE k) := by
  have hbefore (v : Word) (n : Nat) :
      c.KeepsModuli { (c.keepBlockArbs.setReg rGEN_STATUS v).zeroRegs [rGEN_CONV_LO, rGEN_CONV_HI] with arbGen := n } := by
    have harbs : c.KeepsModuli c.keepBlockArbs := .each c _ fun c a _ => .of_regs rfl rfl
    exact (harbs.trans (.setReg _ v (by decide))).trans (Ctl.zeroRegs_keepsModuli _ (by decide))
  have hafter (c : Ctl) :
      c.KeepsModuli ((c.activate [(rKS_CTL, rKS_CTL_ACT)]).activateReserve.activateArb.activateEnergy.activateInt) :=
    .trans (.trans (.trans (.trans (c.activate_keepsModuli (by decide)) (Ctl.activateReserve_keepsModuli _))
      (Ctl.activateArb_keepsModuli _)) (Ctl.activateEnergy_keepsModuli _)) (Ctl.activateInt_keepsModuli _)
  unfold Ctl.commitGen
  dsimp only
  refine (hafter _ _ ?_ ?_).trans ((Ctl.activateModuli_reg _ hk).trans (hbefore _ _ _ ?_ ?_)) <;>
    simp only [rMODQ_ACTIVE, rMODQ_TABLE] <;> omega

/-! ### A write of the table -/

/-- A modulus, or 0, goes to the pending copy (R74). -/
theorem Ctl.writeModulus_accepted {d : Word} (h : d = 0 ∨ (d.toNat % 2 = 1 ∧ 3 ≤ d.toNat ∧ d.toNat < 2 ^ 31)) (c : Ctl) (k : Nat) :
    c.writeModulus k d = c.setReg (rMODQ_TABLE k) d := by
  have hok : modulusOk d = true := by
    rcases h with rfl | ⟨hodd, hlow, hhigh⟩
    · rfl
    · have hlt : d.toNat < 2147483648 := hhigh
      simp [modulusOk, hodd, hlow, hlt]
  rw [Ctl.writeModulus, if_pos hok]

/-- Every other value sets MODTAB_ERR alone (R74). -/
theorem Ctl.writeModulus_rejected {d : Word} (h : (d ≠ 0 ∧ d.toNat % 2 = 0) ∨ d = 1 ∨ 2 ^ 31 ≤ d.toNat) (c : Ctl) (k : Nat) :
    c.writeModulus k d = (c.raise rMODTAB_STATUS 16).setRf rMODTAB_STATUS 0 6 k := by
  have hbad : modulusOk d = false := by
    have hzero : d ≠ 0 → d.toNat ≠ 0 := fun hd hn => hd (BitVec.eq_of_toNat_eq (by simpa using hn))
    rcases h with ⟨hne, heven⟩ | rfl | hhigh
    · simp [modulusOk, hzero hne, heven]
    · rfl
    · simp [modulusOk]
      omega
  rw [Ctl.writeModulus, hbad, if_neg (by decide)]

theorem Ctl.writeModulus_setsOnly (c : Ctl) (k : Nat) (d : Word) :
    c.SetsOnly (c.writeModulus k d) [rMODQ_TABLE k, rMODTAB_STATUS] := by
  unfold Ctl.writeModulus
  split
  · exact .setReg c _ (by simp)
  · exact .trans (.setReg c _ (by simp)) (.setReg _ _ (by simp))

theorem modqTable_ne_status {s : State} {k : Nat} {id : Byte} {d : Word} (h : s.takes (.modqTableWrite k id d) = true) :
    rMODQ_TABLE k ≠ rMODTAB_STATUS := by
  have hk : k < 64 := by
    simp only [State.takes, Bool.and_eq_true] at h
    exact of_decide_eq_true h.2
  simp only [rMODQ_TABLE, rMODTAB_STATUS]
  omega

/-- Settles O11: a write sets one pending entry or MODTAB_ERR, and of a commit the copying of the table alone touches the active
one. -/
theorem modulusTableWrite : Obligations.ModulusTableWrite := by
  refine ⟨fun s i id hi hconv => ?_, fun s k id d hr => ?_⟩
  · rcases hi with ⟨rfl, hr⟩ | ⟨rfl, ht, hdef⟩
    · refine ⟨_, ctlStep_open_of_reaches hr _, fun k hk => ?_⟩
      rw [Ctl.go, if_pos hconv]
      exact s.ctl.commitGen_moduli hk
    · refine ⟨_, ctlStep_takes _ ht, fun k hk => ?_⟩
      rw [if_pos (by rw [hdef, hconv]; rfl)]
      exact Ctl.commitGen_moduli { s.ctl with deferredCommit := false } hk
  · have ht : s.takes (.modqTableWrite k id d) = true := (Bool.and_eq_true _ _ ▸ hr).1
    have hne := modqTable_ne_status ht
    refine ⟨_, ctlStep_open_of_reaches hr _, (s.ctl.writeModulus_setsOnly k d).setsRegs 0, fun hgood => ?_, fun hbad => ?_⟩
    · change (s.ctl.writeModulus k d).reg _ = _ ∧ (s.ctl.writeModulus k d).reg _ = _
      rw [Ctl.writeModulus_accepted hgood]
      exact ⟨Ctl.reg_setReg_self _ _ _, Ctl.reg_setReg_ne _ _ hne⟩
    · change (s.ctl.writeModulus k d).reg _ = _ ∧ bit ((s.ctl.writeModulus k d).reg _) 16 = true
      rw [Ctl.writeModulus_rejected hbad, Ctl.reg_setRf, Ctl.reg_setRf, if_neg (Ne.symm hne), if_pos rfl, Ctl.reg_raise,
        Ctl.reg_raise, if_neg (Ne.symm hne), if_pos rfl, bit_setFld, if_neg (by omega), bit_raised _ (by decide)]
      simp

end Sys2Proof.Machine

/-!
SUPPORT. What happens to a descriptor from step 5 on keeps what step 4 sampled of it, as far as its kind command takes it (R53, R75,
R134, R138).
-/
namespace Sys2Proof.Machine

/-! ### A descriptor that has passed step 4 -/

/-- `e` holds what step 4 sampled of `d0` at tick `now`, and stands beyond it. -/
structure Desc.Sampled (d0 e : Desc) (now : Nat) : Prop where
  words : e.words = d0.words
  domain : e.domain = d0.domain
  caps : e.caps = d0.caps
  mods : e.mods = d0.mods
  started : e.started = now
  stage : e.stage ∉ [Stage.hold, .check]

theorem Desc.Sampled.ended {d0 e e' : Desc} {c : Ctl} {k : Key} {st de : Nat} (h : d0.Sampled e c.refTicks)
    (he : e.Ended e' c k st de) : d0.Sampled e' c.refTicks := by
  refine ⟨he.words.trans h.words, he.domain.trans h.domain, he.caps.trans h.caps, he.mods.trans h.mods, ?_, ?_⟩
  · rcases he.started with hs | hs
    · rw [hs, h.started]
    · exact hs
  · rcases he.stage with hs | ⟨hs, -⟩ <;> rw [hs] <;> decide

theorem Desc.Sampled.w {d0 e : Desc} {now : Nat} (h : d0.Sampled e now) (i : Nat) : e.w i = d0.w i := by
  rw [Desc.w, h.words, Desc.w]

theorem Desc.Sampled.kind {d0 e : Desc} {now : Nat} (h : d0.Sampled e now) : e.kind = d0.kind := by
  rw [Desc.kind, h.words, Desc.kind]

/-- `c'` has the reference counter and the modulus table of `c`, and under `k` a descriptor with the samples of `d0`. -/
structure Ctl.Through (c c' : Ctl) (k : Key) (d0 : Desc) : Prop where
  refTicks : c'.refTicks = c.refTicks
  moduli : c.KeepsModuli c'
  self : ∃ e, c'.desc? k = some e ∧ d0.Sampled e c.refTicks

theorem Ctl.Through.apart {c c' c'' : Ctl} {k : Key} {d0 : Desc} (h : c.Through c' k d0) (ha : c'.Apart c'')
    (hk : c''.desc? k = c'.desc? k) : c.Through c'' k d0 :=
  ⟨ha.refTicks.trans h.refTicks, h.moduli.trans (.of_apart ha), hk ▸ h.self⟩

theorem Ctl.Through.beside {c c' c'' : Ctl} {k : Key} {d0 : Desc} (h : c.Through c' k d0) (hb : c'.Beside c'') :
    c.Through c'' k d0 := h.apart hb.toApart (hb.desc? k)

theorem Ctl.Through.count {c c' : Ctl} {k : Key} {d0 : Desc} (h : c.Through c' k d0) {off : Nat} (n : Nat)
    (hoff : off < 0x1400 ∨ 0x1700 ≤ off) : c.Through (c'.count off n) k d0 :=
  ⟨h.refTicks, h.moduli.trans (.count _ n hoff), h.self⟩

/-- The memory path goes on beside the descriptors. -/
theorem Ctl.Through.walks {c c' c'' : Ctl} {k : Key} {d0 : Desc} (h : c.Through c' k d0) (hw : c'.Walks c'') :
    c.Through c'' k d0 := by
  have hframe := hw.frame
  refine ⟨by rw [hframe]; exact h.refTicks, h.moduli.trans fun o hlo hhi => hw.keeps o ?_, by rw [hframe]; exact h.self⟩
  rintro hmem
  have hmisses : 0x1700 ≤ rATC_MISSES := by decide
  have := List.mem_singleton.mp hmem
  omega

/-- A change of any descriptor that keeps the samples where it is this one. -/
theorem Ctl.Through.modDesc {c c' : Ctl} {k : Key} {d0 : Desc} (h : c.Through c' k d0) (j : Key) {f : Desc → Desc}
    (hkey : ∀ d, (f d).key = d.key) (hf : ∀ e, d0.Sampled e c.refTicks → d0.Sampled (f e) c.refTicks) :
    c.Through (c'.modDesc j f) k d0 := by
  obtain ⟨e, hdesc, hsampled⟩ := h.self
  refine ⟨h.refTicks, h.moduli.trans (.of_regs rfl rfl), ?_⟩
  by_cases hj : j = k
  · subst hj
    exact ⟨f e, by rw [c'.desc?_modDesc_self j f hkey, hdesc]; rfl, hf e hsampled⟩
  · exact ⟨e, by rw [c'.desc?_modDesc_ne f hkey hj, hdesc], hsampled⟩

theorem Ctl.Through.fix {c c' : Ctl} {k : Key} {d0 : Desc} (h : c.Through c' k d0) (j : Key) (st de : Nat) :
    c.Through (c'.fix j st de) k d0 := by
  rcases c'.fix_cases j st de with heq | ⟨e, e', hdesc, -, hleads, hended⟩
  · rw [heq]
    exact h
  · by_cases hj : j = k
    · subst hj
      obtain ⟨e0, hdesc0, hsampled⟩ := h.self
      obtain rfl : e0 = e := Option.some.inj (hdesc0.symm.trans hdesc)
      refine ⟨hleads.refTicks.trans h.refTicks, h.moduli.trans (.of_apart hleads.toApart), e', hleads.self, ?_⟩
      rw [← h.refTicks] at hsampled ⊢
      exact hsampled.ended hended
    · exact h.apart hleads.toApart (hleads.others k hj)

theorem Ctl.Through.finish {c c' : Ctl} {k : Key} {d0 : Desc} (h : c.Through c' k d0) (j : Key) (st de : Nat) :
    c.Through (c'.finish j st de) k d0 :=
  Ctl.finish_induction (P := fun e => c.Through e k d0) (fun _ _ hb he => he.beside hb) (fun _ j _ de _ he => he.fix j _ de) j de
    (h.fix j st de)

theorem Ctl.Through.each {α : Type} {c c' : Ctl} {k : Key} {d0 : Desc} (h : c.Through c' k d0) (l : List α) {f : Ctl → α → Ctl}
    (hf : ∀ c' a, c.Through c' k d0 → c.Through (f c' a) k d0) : c.Through (c'.each l f) k d0 :=
  Ctl.each_induction (P := fun e => c.Through e k d0) hf l h

/-- A descriptor that has just reached step 5. -/
theorem Ctl.through_reached {c : Ctl} {k : Key} {d : Desc} (h : c.desc? k = some d) :
    c.Through (c.reached k) k (c.reaching d d) :=
  have hapart := Ctl.reached_apart h
  ⟨hapart.refTicks, .of_apart hapart, c.reaching d d, Ctl.desc?_reached h, rfl, rfl, rfl, rfl, rfl, by simp [Ctl.reaching]⟩

/-! ### Row signatures -/

theorem Ctl.Through.compareRow {c c' : Ctl} {k : Key} {d0 : Desc} (h : c.Through c' k d0) (g : Sig) :
    c.Through (c'.compareRow g) k d0 := by
  have hsigs := h.beside (c'.setSigs_beside (c'.sigs.filter fun s => s ≠ g))
  unfold Ctl.compareRow
  split
  · dsimp only
    split
    · refine Ctl.Through.count ?_ 1 (by decide)
      split
      · exact hsigs.modDesc _ (fun _ => rfl) fun _ he => ⟨he.words, he.domain, he.caps, he.mods, he.started, he.stage⟩
      · exact hsigs
    · exact hsigs.beside (Ctl.mismatch_beside _ _ _ _)
  · exact h

theorem Ctl.Through.signRow {c c' : Ctl} {k : Key} {d0 : Desc} (h : c.Through c' k d0) (d : Desc) :
    c.Through (c'.signRow d) k d0 := by
  unfold Ctl.signRow
  split
  · exact h
  · split
    · refine Ctl.Through.compareRow (.beside ?_ (Ctl.sendSig_beside _ _ _ _)) _
      exact h.modDesc _ (fun _ => rfl) fun _ he => ⟨he.words, he.domain, he.caps, he.mods, he.started, he.stage⟩
    · exact h

theorem Ctl.Through.signRows {c c' : Ctl} {k : Key} {d0 : Desc} (h : c.Through c' k d0) (j : Key) (rows : Nat) :
    c.Through (c'.signRows j rows) k d0 :=
  h.each _ fun c' _ h' => by
    split
    · exact h'.signRow _
    · exact h'

/-! ### Rows -/

theorem Ctl.modBurst_beside (c : Ctl) (p : BPurpose) (f : Burst → Burst) : c.Beside (c.modBurst p f) := c.modMem_beside _

theorem Ctl.Through.feedRow {c c' : Ctl} {k : Key} {d0 : Desc} (h : c.Through c' k d0) (j : Key) (row : Nat) :
    c.Through (c'.feedRow j row) k d0 := by
  unfold Ctl.feedRow
  split
  · exact h
  next d _ =>
    have hlines : ∀ c', c.Through c' k d0 → c.Through (c'.each (d.writeRuns row) fun c r => c.each (List.range r.parts) fun c p =>
        match d.lineBytes row r p with
        | some bs => c.modBurst (.tensorWr j row r.block p) fun b => { b with data := bs }
        | none => c) k d0 := fun c' h' =>
      h'.each _ fun c' r h' => h'.each _ fun c' p h' => by
        split
        · exact h'.beside (Ctl.modBurst_beside _ _ _)
        · exact h'
    have hsigned : ∀ c', c.Through c' k d0 → c.Through (if c'.paired && d.memDst then c'.signRows j d.rowsN else c') k d0 := by
      intro c' h'
      split
      · exact h'.signRows j _
      · exact h'
    have hfrag : ∀ (c' : Ctl) (i : Nat) (job : Job), c.Through c' k d0 →
        c.Through ((c'.modDesc j fun d => { d with aux := d.aux.set i 1 }).addJobs [job]) k d0 := by
      intro c' i job h'
      refine Ctl.Through.beside ?_ (Ctl.addJobs_beside _ _)
      exact h'.modDesc _ (fun _ => rfl) fun _ he => ⟨he.words, he.domain, he.caps, he.mods, he.started, he.stage⟩
    have hput := hsigned _ (hlines _ h)
    dsimp only
    split
    next t _ =>
      split
      · exact hput
      · refine hput.each _ fun c' b h' => ?_
        split
        · exact h'
        · split
          · exact hfrag _ _ _ h'
          · exact h'
    next => exact hput

theorem Desc.readBursts_domain (d : Desc) (row : Nat) {b : Burst} (h : b ∈ d.readBursts row) : b.domain = d.domain := by
  simp only [Desc.readBursts, List.mem_flatMap, List.mem_map] at h
  obtain ⟨r, -, p, -, rfl⟩ := h
  split <;> rfl

theorem Desc.writeBursts_domain (d : Desc) (row : Nat) {b : Burst} (h : b ∈ d.writeBursts row) : b.domain = d.domain := by
  simp only [Desc.writeBursts, List.mem_flatMap, List.mem_map] at h
  obtain ⟨r, -, p, -, rfl⟩ := h
  rfl

theorem Ctl.Through.startRows {c c' : Ctl} {k : Key} {d0 : Desc} (h : c.Through c' k d0) (hm : c'.Misses d0.domain) :
    c.Through (c'.startRows k) k d0 := by
  obtain ⟨e, hdesc, hsampled⟩ := h.self
  unfold Ctl.startRows
  rw [hdesc]
  dsimp only
  have hreads : (c'.addJobs (((List.range e.rowsN).drop e.cursor).flatMap e.readJobs)).Misses d0.domain := hm.congr rfl
  obtain ⟨-, hwalk⟩ := Ctl.request_of_misses hreads
    (bs := ((List.range e.rowsN).drop e.cursor).flatMap fun r => e.readBursts r ++ e.writeBursts r) fun b hb => by
      obtain ⟨r, -, hr⟩ := List.mem_flatMap.mp hb
      rw [← hsampled.domain]
      exact (List.mem_append.mp hr).elim (e.readBursts_domain r) (e.writeBursts_domain r)
  exact Ctl.Through.each ((h.beside (c'.addJobs_beside _)).walks hwalk) _ fun c' r h' => h'.feedRow k r

theorem Ctl.Through.tensorProgress {c c' : Ctl} {k : Key} {d0 : Desc} (h : c.Through c' k d0) (j : Key) :
    c.Through (c'.tensorProgress j) k d0 := by
  have hwritten : c.Through (c'.modDesc j fun d => { d with stage := .written }) k d0 :=
    h.modDesc _ (fun _ => rfl) fun _ he => ⟨he.words, he.domain, he.caps, he.mods, he.started, by simp⟩
  unfold Ctl.tensorProgress
  split
  · exact h
  · split
    · exact h
    · split
      · split
        · exact h.finish _ _ _
        · exact h
      · split
        · exact h
        · split
          · split
            · exact hwritten
            · exact h
          · split
            · exact h.finish _ _ _
            · exact h

theorem Ctl.Through.startTensor {c c' : Ctl} {k : Key} {d0 : Desc} (h : c.Through c' k d0) (hm : c'.Misses d0.domain) :
    c.Through (c'.startTensor k) k d0 := (h.startRows hm).tensorProgress k

/-! ### Key streams -/

theorem Ctl.startDawn_beside (c : Ctl) : c.Beside c.startDawn := by
  unfold Ctl.startDawn
  split
  · exact (c.modPower_beside _).trans (Ctl.startMargin_beside _)
  · exact .refl c

theorem Ctl.startLanes_beside (c : Ctl) (k : Key) (t : FragTable) : c.Beside (c.startLanes k t) :=
  .trans (.each c (laneWork t) fun c x => c.modPort_beside x.1 _) (Ctl.startDawn_beside _)

theorem Ctl.Through.startKeyTile {c c' : Ctl} {k : Key} {d0 : Desc} (h : c.Through c' k d0) (hm : c'.Misses d0.domain) :
    c.Through (c'.startKeyTile k) k d0 := by
  unfold Ctl.startKeyTile
  split
  · split
    · split
      · exact h.beside (Ctl.startLanes_beside _ _ _)
      · exact h.startTensor hm
    · exact h
  · exact h

theorem Ctl.setSlots_mem (c : Ctl) (ks : List Nat) (st : SlotState) (o : Owner) : (c.setSlots ks st o).mem = c.mem :=
  Ctl.each_induction (P := fun e => e.mem = c.mem) (fun e k h => (e.modSlot_mem k _).trans h) ks rfl

/-- A prefetch samples the same modulus table that step 4 did. -/
theorem Ctl.Through.tryPrefetch {c c' : Ctl} {k : Key} {d0 : Desc} (h : c.Through c' k d0) (hm : c'.Misses d0.domain)
    (hmods : d0.mods = (List.range 64).map fun i => c.reg (rMODQ_ACTIVE i)) : c.Through (c'.tryPrefetch k) k d0 := by
  have htable : ∀ c', c.Through c' k d0 → ((List.range 64).map fun i => c'.reg (rMODQ_ACTIVE i)) = d0.mods := by
    intro c' h'
    rw [hmods]
    refine List.map_congr_left fun i hi => h'.moduli _ ?_ ?_ <;> simp only [rMODQ_ACTIVE] <;> have := List.mem_range.mp hi <;> omega
  obtain ⟨e, hdesc, hsampled⟩ := h.self
  unfold Ctl.tryPrefetch
  rw [hdesc]
  dsimp only
  split
  · exact h
  · split
    · exact h.count 1 (by decide)
    next t _ =>
      have hslots := h.beside (c'.setSlots_beside t.slots .fresh (.desc k))
      have hdst : ∀ (p : Bool) (w : Nat), c.Through ((c'.setSlots t.slots .fresh (.desc k)).modDesc k fun d => { d with
          dst := some t, prefetched := true, phase := w,
          mods := if p then d.mods
            else (List.range 64).map fun i => (c'.setSlots t.slots .fresh (.desc k)).reg (rMODQ_ACTIVE i) }) k d0 := by
        refine fun p w => hslots.modDesc _ (fun _ => rfl) fun x hx => ⟨hx.words, hx.domain, hx.caps, ?_, hx.started, hx.stage⟩
        rw [htable _ hslots]
        cases p
        · rfl
        · exact hx.mods
      split
      · exact (hdst _ _).beside (Ctl.startLanes_beside _ _ _)
      · refine (hdst _ _).walks (And.right (Ctl.request_of_misses (D := d0.domain)
          (hm.congr ((Ctl.modDesc_mem _ _ _).trans (c'.setSlots_mem _ _ _))) fun b hb => ?_))
        obtain ⟨r, -, hr⟩ := List.mem_flatMap.mp hb
        obtain ⟨x, hx, rfl⟩ := List.mem_map.mp hr
        exact (e.readBursts_domain r hx).trans hsampled.domain

theorem Ctl.Through.startStream {c c' : Ctl} {k : Key} {d0 : Desc} (h : c.Through c' k d0) (hm : c'.Misses d0.domain)
    (hmods : d0.mods = (List.range 64).map fun i => c.reg (rMODQ_ACTIVE i)) : c.Through (c'.startStream k) k d0 :=
  Ctl.Through.tryPrefetch (h.modDesc _ (fun _ => rfl) fun _ he => ⟨he.words, he.domain, he.caps, he.mods, he.started, by simp⟩)
    (hm.congr rfl) hmods

/-! ### Step 5 -/

/-- What runs at step 5 keeps the samples, for a kind that step 4 hands on at once where it needs no slots. -/
theorem Ctl.Through.startKind {c c' : Ctl} {d d0 : Desc} (h : c.Through c' d.key d0) (hm : c'.Misses d0.domain)
    (hmods : d0.mods = (List.range 64).map fun i => c.reg (rMODQ_ACTIVE i)) (hkind : d.kind ∈ [2, 3, 4, 9]) :
    c.Through (c'.startKind d) d.key d0 := by
  simp only [List.mem_cons, List.not_mem_nil, or_false] at hkind
  unfold Ctl.startKind
  rcases hkind with hk | hk | hk | hk <;> simp only [hk]
  · exact h.startTensor hm
  · exact h.startTensor hm
  · exact h.startTensor hm
  · split
    · exact h.startStream hm hmods
    · exact h.startKeyTile hm

theorem Ctl.Through.pass5 {c c' : Ctl} {d d0 : Desc} (h : c.Through c' d.key d0) (hm : c'.Misses d0.domain)
    (hmods : d0.mods = (List.range 64).map fun i => c.reg (rMODQ_ACTIVE i)) (hkind : d.kind ∈ [2, 3, 4, 9]) :
    c.Through (c'.pass5 d none) d.key d0 := by
  have hne : d.kind ≠ 1 := fun h1 => by simp [h1] at hkind
  unfold Ctl.pass5
  dsimp only
  rw [if_neg hne]
  refine Ctl.Through.startKind ?_ (hm.congr ((Ctl.phaseRaise_mem _ _).trans rfl)) hmods hkind
  refine Ctl.Through.modDesc (.beside ?_ (Ctl.phaseRaise_beside _ _)) _ (fun _ => rfl) fun _ he =>
    ⟨he.words, he.domain, he.caps, he.mods, he.started, by simp⟩
  exact h.modDesc _ (fun _ => rfl) fun _ he => ⟨he.words, he.domain, he.caps, he.mods, he.started, he.stage⟩

theorem Desc.Sampled.dRef {d0 e : Desc} {now : Nat} (h : d0.Sampled e now) : e.dRef = d0.dRef := by
  rw [Desc.dRef, Desc.tiles, Desc.dRef, Desc.tiles]
  simp only [h.w, h.kind]

/-- A descriptor that needs no slots goes on from step 5 at once. -/
theorem Ctl.Through.tryPass5 {c c' : Ctl} {k : Key} {d0 : Desc} (h : c.Through c' k d0) (hm : c'.Misses d0.domain)
    (hmods : d0.mods = (List.range 64).map fun i => c.reg (rMODQ_ACTIVE i)) (hkind : d0.kind ∈ [2, 3, 4, 9])
    (hnone : d0.dRef = none) : c.Through (c'.tryPass5 k) k d0 := by
  obtain ⟨e, hdesc, hsampled⟩ := h.self
  have hkey := Ctl.desc?_key hdesc
  subst hkey
  unfold Ctl.tryPass5
  rw [hdesc]
  dsimp only
  split
  · exact h.finish _ _ _
  · split
    · exact h.finish _ _ _
    · split
      · exact h.finish _ _ _
      · split
        · exact h.each _ fun c' n h' => h'.beside (c'.requireMig_beside n)
        · rw [hsampled.dRef, hnone]
          exact h.pass5 hm hmods (hsampled.kind ▸ hkind)

theorem Ctl.Through.enter5 {c c' : Ctl} {d d0 : Desc} (h : c.Through c' d.key d0) (hm : c'.Misses d0.domain)
    (hmods : d0.mods = (List.range 64).map fun i => c.reg (rMODQ_ACTIVE i)) (hkind : d0.kind ∈ [2, 3, 4, 9])
    (hsame : d0.dRef = d.dRef) : c.Through (c'.enter5 d) d.key d0 := by
  unfold Ctl.enter5
  split
  next hnone => exact h.tryPass5 hm hmods hkind (hsame.trans (Option.isNone_iff_eq_none.mp hnone))
  next => exact h

end Sys2Proof.Machine

/-!
SUPPORT. The ten kinds that go on to step 5, at step 4 (R134, R138, Table 1.1): each is an admission by the checks of its kind.
-/
namespace Sys2Proof.Machine

/-! ### The end of step 4 for a kind that goes on -/

/-- From `c` to `c'` descriptor `d` ends step 4 by the outcome of its checks: the first that fails completes it, and where none
does it stands at step 5 or beyond, with its samples (R53, R75). -/
def Ctl.EndsStep4 (c c' : Ctl) (d : Desc) (chk : Chk) : Prop :=
  (∀ st de, chk = some (st, de) → c'.concludes d.key st de) ∧
  (chk = none → ∃ e, c'.desc? d.key = some e ∧ e.stage ∉ [.hold, .check] ∧ e.started = c.refTicks ∧
    e.mods = ((List.range 64).map fun j => c.reg (rMODQ_ACTIVE j)) ∧
    e.caps = ((d.reads ++ d.writes).eraseDups).map fun n => (n, (c.name n).inc))

theorem Ctl.admitted_endsStep4 {c : Ctl} {d : Desc} (hdesc : c.desc? d.key = some d) (hstage : d.stage = .check) (chk : Chk)
    {f : Ctl → Ctl} (hf : c.Through (f (c.reached d.key)) d.key (c.reaching d d)) :
    c.EndsStep4 (c.admitted d chk f) d chk := by
  refine ⟨fun st de h => Ctl.admitted_concludes hdesc hstage h f, fun h => ?_⟩
  rw [Ctl.admitted_passes h]
  obtain ⟨e, he, hsampled⟩ := hf.self
  exact ⟨e, he, hsampled.stage, hsampled.started, hsampled.mods, hsampled.caps⟩

/-- The indexed moves, the reductions and a PERMUTE stop at step 5. -/
theorem Ctl.admitted_id_endsStep4 {c : Ctl} {d : Desc} (hdesc : c.desc? d.key = some d) (hstage : d.stage = .check) (chk : Chk) :
    c.EndsStep4 (c.admitted d chk id) d chk :=
  Ctl.admitted_endsStep4 hdesc hstage chk (Ctl.through_reached hdesc)

/-- A memory kind goes on where it needs no slots. -/
theorem Ctl.admitTensor_endsStep4 {c : Ctl} {d : Desc} (hdesc : c.desc? d.key = some d) (hstage : d.stage = .check)
    (hcalm : c.calm d.domain = true) (hkind : d.kind ∈ [2, 3, 4, 9]) (more : Chk) :
    c.EndsStep4 (c.admitTensor d more) d (c.formCheck d <|> c.tileChecks d <|> more <|> c.poisonCheck d) :=
  Ctl.admitted_endsStep4 hdesc hstage _ ((Ctl.through_reached hdesc).enter5
    ((Ctl.Misses.of_calm hcalm).congr (Ctl.reached_mem hdesc)) rfl hkind rfl)

/-! ### The stream of a TILE_OP -/

theorem Ctl.takeStream_apart (c : Ctl) (d : Desc) : c.Apart (c.takeStream d) := by
  unfold Ctl.takeStream
  split
  · split
    · exact .of_regs rfl rfl rfl rfl
    · exact .refl c
  · exact .refl c

theorem Ctl.desc?_setPartner {c : Ctl} {k : Key} {d : Desc} (h : ∃ p, c.desc? k = some { d with partner := p }) (j : Key)
    (n : Option Nat) : ∃ p, (c.modDesc j fun x => { x with partner := n }).desc? k = some { d with partner := p } := by
  obtain ⟨p, hp⟩ := h
  by_cases hj : j = k
  · subst hj
    refine ⟨n, (Ctl.desc?_modDesc_self _ _ _ ?_).trans (by rw [hp]; rfl)⟩
    exact fun _ => rfl
  · refine ⟨p, (Ctl.desc?_modDesc_ne _ _ ?_ hj).trans hp⟩
    exact fun _ => rfl

/-- Taking a stream changes of a descriptor its partner alone (R138). -/
theorem Ctl.desc?_takeStream {c : Ctl} {d : Desc} (h : c.desc? d.key = some d) :
    ∃ p, (c.takeStream d).desc? d.key = some { d with partner := p } := by
  unfold Ctl.takeStream
  split
  · split
    · exact Ctl.desc?_setPartner (Ctl.desc?_setPartner ⟨d.partner, h⟩ _ _) _ _
    · exact ⟨d.partner, h⟩
  · exact ⟨d.partner, h⟩

/-- A TILE_OP takes its stream, and then its checks decide. -/
theorem Ctl.admitTileOp_endsStep4 {c : Ctl} {d d' : Desc} (hdesc : c.desc? d.key = some d) (hstage : d.stage = .check)
    (hkind : d.kind = 1) (hd' : (c.takeStream d).desc? d.key = some d') :
    c.EndsStep4 (c.admitTileOp d) d ((c.takeStream d).kindChecks d') := by
  have hapart := c.takeStream_apart d
  obtain ⟨p, hp⟩ := Ctl.desc?_takeStream hdesc
  obtain rfl : { d with partner := p } = d' := Option.some.inj (hp.symm.trans hd')
  have hkind' : ({ d with partner := p } : Desc).kind = 1 := hkind
  have hend := Ctl.admitted_id_endsStep4 (d := { d with partner := p }) hp hstage
    ((c.takeStream d).kindChecks { d with partner := p })
  have hadmit : c.admitTileOp d =
      (c.takeStream d).admitted { d with partner := p } ((c.takeStream d).kindChecks { d with partner := p }) id := by
    rw [Ctl.admitTileOp, Ctl.kindChecks, if_pos hkind', hp]
  rw [hadmit]
  obtain ⟨hfail, hpass⟩ := hend
  refine ⟨hfail, fun h => ?_⟩
  obtain ⟨e, he, hst, hstart, hmods, hcaps⟩ := hpass h
  have hreg : ∀ j ∈ List.range 64, (c.takeStream d).reg (rMODQ_ACTIVE j) = c.reg (rMODQ_ACTIVE j) := fun j hj =>
    Ctl.KeepsModuli.of_apart hapart _ (by simp only [rMODQ_ACTIVE]; omega)
      (by have := List.mem_range.mp hj; simp only [rMODQ_ACTIVE]; omega)
  refine ⟨e, he, hst, hstart.trans hapart.refTicks, hmods.trans (List.map_congr_left hreg), hcaps.trans ?_⟩
  simp only [Ctl.name, hapart.names]
  rfl

/-! ### The ten kinds -/

theorem Ctl.atStep4_of_kind {c : Ctl} {d : Desc} (h : d.kind ≠ 1) : c.atStep4 d = c := if_neg h

/-- A kind that takes no stream has its own checks alone. -/
theorem Ctl.endsStep4_of_admits {s : State} {i : Instr} {k kind : Nat} {d d' : Desc} (ht : s.takes i = true)
    (h : s.ctl.admits k kind d) (hne : kind ≠ 1) (hd' : (s.ctl.atStep4 d).desc? d.key = some d') {f : Ctl → Desc → Ctl}
    (hexec : exec i s = ctlStep i s fun c => c.admitKind k kind f)
    (hf : s.ctl.desc? d.key = some d → d.stage = .check → s.ctl.EndsStep4 (f s.ctl d) d (s.ctl.kindChecks d)) :
    ∃ t, exec i s = .next t ∧ s.ctl.EndsStep4 t.ctl d ((s.ctl.atStep4 d).kindChecks d') := by
  have hdesc := Ctl.desc?_of_admits h
  rw [Ctl.atStep4_of_kind (by rw [Ctl.kind_of_admits h]; exact hne)] at hd' ⊢
  obtain rfl : d = d' := Option.some.inj (hdesc.symm.trans hd')
  exact ⟨_, hexec.trans (ctlStep_of_admits ht h f), hf hdesc (Ctl.stage_of_admits h)⟩

theorem Ctl.kindChecks_tensor {c : Ctl} {d : Desc} (h : d.kind ∈ [2, 3, 9]) :
    c.kindChecks d = (c.formCheck d <|> c.tileChecks d <|> none <|> c.poisonCheck d) := by
  simp only [List.mem_cons, List.not_mem_nil, or_false] at h
  rcases h with h | h | h <;> simp [Ctl.kindChecks, h]

theorem Ctl.kindChecks_relayout {c : Ctl} {d : Desc} (h : d.kind = 4) :
    c.kindChecks d = (c.formCheck d <|> c.tileChecks d <|> c.overlapCheck d <|> c.poisonCheck d) := by
  simp [Ctl.kindChecks, h]

theorem Ctl.kindChecks_permute {c : Ctl} {d : Desc} (h : d.kind = 8) :
    c.kindChecks d = (c.formCheck d <|> c.tileChecks d <|> c.routeChecks d <|> c.poisonCheck d) := by
  simp [Ctl.kindChecks, h]

theorem Ctl.kindChecks_indexed {c : Ctl} {d : Desc} (h : d.kind ∈ [5, 6, 7, 10]) :
    c.kindChecks d = (c.formCheck d <|> c.tileChecks d <|> d.indexChecks <|> c.poisonCheck d) := by
  simp only [List.mem_cons, List.not_mem_nil, or_false] at h
  rcases h with h | h | h | h <;> simp [Ctl.kindChecks, h]

/-- A memory kind: its checks, with those of its kind alone where it has any. -/
theorem Ctl.endsStep4_of_tensor {s : State} {i : Instr} {k kind : Nat} {d d' : Desc} (ht : s.takes i = true)
    (h : s.ctl.admits k kind d) (hd' : (s.ctl.atStep4 d).desc? d.key = some d') (hcalm : s.ctl.calm d.domain = true)
    (hkind : kind ∈ [2, 3, 4, 9]) {more : Ctl → Desc → Chk}
    (hexec : exec i s = ctlStep i s fun c => c.admitKind k kind fun c d => c.admitTensor d (more c d))
    (hchecks : s.ctl.kindChecks d = (s.ctl.formCheck d <|> s.ctl.tileChecks d <|> more s.ctl d <|> s.ctl.poisonCheck d)) :
    ∃ t, exec i s = .next t ∧ s.ctl.EndsStep4 t.ctl d ((s.ctl.atStep4 d).kindChecks d') := by
  refine Ctl.endsStep4_of_admits ht h (fun h1 => by simp [h1] at hkind) hd' hexec fun hdesc hstage => ?_
  rw [hchecks]
  exact Ctl.admitTensor_endsStep4 hdesc hstage hcalm (by rw [Ctl.kind_of_admits h]; exact hkind) _

/-- An indexed move or a reduction. -/
theorem Ctl.endsStep4_of_indexed {s : State} {i : Instr} {k kind : Nat} {d d' : Desc} (ht : s.takes i = true)
    (h : s.ctl.admits k kind d) (hd' : (s.ctl.atStep4 d).desc? d.key = some d') (hkind : kind ∈ [5, 6, 7, 10])
    (hexec : exec i s = ctlStep i s fun c => c.admitKind k kind fun c d => c.admitIndexed d) :
    ∃ t, exec i s = .next t ∧ s.ctl.EndsStep4 t.ctl d ((s.ctl.atStep4 d).kindChecks d') := by
  refine Ctl.endsStep4_of_admits ht h (fun h1 => by simp [h1] at hkind) hd' hexec fun hdesc hstage => ?_
  rw [Ctl.kindChecks_indexed (by rw [Ctl.kind_of_admits h]; exact hkind)]
  exact Ctl.admitted_id_endsStep4 hdesc hstage _

/-- A PERMUTE whose destination is a tile of its own block. -/
theorem Ctl.endsStep4_of_permute {s : State} {k : Nat} {d d' : Desc} (ht : s.takes (.permute k) = true)
    (h : s.ctl.admits k 8 d) (hd' : (s.ctl.atStep4 d).desc? d.key = some d')
    (halias : (d.dRef.bind fun t => s.ctl.quoinEntry t.name) = none) :
    ∃ t, exec (.permute k) s = .next t ∧ s.ctl.EndsStep4 t.ctl d ((s.ctl.atStep4 d).kindChecks d') := by
  refine Ctl.endsStep4_of_admits ht h (by decide) hd' rfl fun hdesc hstage => ?_
  rw [halias, Ctl.kindChecks_permute (Ctl.kind_of_admits h)]
  exact Ctl.admitted_id_endsStep4 hdesc hstage _

/-- Settles O41: each kind's admission ends step 4 by its checks, and what follows step 4 at once keeps what it sampled. -/
theorem admissionOfKinds : Obligations.AdmissionOfKinds := by
  intro s k i kind d d' hmem ht h hd' hcalm halias
  change ∃ t, exec i s = .next t ∧ s.ctl.EndsStep4 t.ctl d ((s.ctl.atStep4 d).kindChecks d')
  have hkind := Ctl.kind_of_admits h
  simp only [List.mem_cons, Prod.mk.injEq, List.not_mem_nil, or_false] at hmem
  rcases hmem with ⟨rfl, rfl⟩ | ⟨rfl, rfl⟩ | ⟨rfl, rfl⟩ | ⟨rfl, rfl⟩ | ⟨rfl, rfl⟩ | ⟨rfl, rfl⟩ | ⟨rfl, rfl⟩ | ⟨rfl, rfl⟩ |
    ⟨rfl, rfl⟩ | ⟨rfl, rfl⟩
  case inl =>
    rw [Ctl.atStep4, if_pos hkind] at hd' ⊢
    exact ⟨_, ctlStep_of_admits ht h _,
      Ctl.admitTileOp_endsStep4 (Ctl.desc?_of_admits h) (Ctl.stage_of_admits h) hkind hd'⟩
  · exact Ctl.endsStep4_of_tensor ht h hd' hcalm (by decide) rfl (Ctl.kindChecks_tensor (by simp [hkind]))
  · exact Ctl.endsStep4_of_tensor ht h hd' hcalm (by decide) rfl (Ctl.kindChecks_tensor (by simp [hkind]))
  · exact Ctl.endsStep4_of_tensor ht h hd' hcalm (by decide) rfl (Ctl.kindChecks_relayout hkind)
  · exact Ctl.endsStep4_of_indexed ht h hd' (by decide) rfl
  · exact Ctl.endsStep4_of_indexed ht h hd' (by decide) rfl
  · exact Ctl.endsStep4_of_indexed ht h hd' (by decide) rfl
  · exact Ctl.endsStep4_of_permute ht h hd' (halias rfl)
  · exact Ctl.endsStep4_of_tensor ht h hd' hcalm (by decide) rfl (Ctl.kindChecks_tensor (by simp [hkind]))
  · exact Ctl.endsStep4_of_indexed ht h hd' (by decide) rfl

end Sys2Proof.Machine

/-!
SUPPORT. A state that refutes the statement about the rename reserve: with a slice table out of order, dropping a prefetch lists a
returning slice a second time, and the capacity grows in the course of the commit.
-/
namespace Sys2Proof.Machine

/-! ### A slice table that is not rising -/

/-- The key of the one descriptor of `unsortedState`. -/
def prefetchKey : Key := { ring := 0, idx := 0, sub := 0 }

/-- A KEYSTREAM that waits at step 5 with its first rows prefetched; its row 0 is of modulus entry 0. -/
def prefetchedStream : Desc := { Desc.fetched prefetchKey 0 [9] with stage := .wait, prefetched := true }

/-- A slice that returns from a fence, with a fragment of the prefetch in its key lane. -/
def returningSlice : Slice :=
  { Slice.reset with
    fstate := .returning
    port := { Port.reset with lane := [{ key := prefetchKey, row := 0, block := 0 }] } }

/-- The reset state with slice 0 as the only one to fill, listed behind slice 1; modulus entry 0 pending with another value than its
active one; RESERVE_MIB 8 and ACTIVE_MIB 32. -/
def unsortedState : State :=
  { State.reset with ctl := { (State.reset.ctl.setReg (rMODQ_TABLE 0) 3).setReg rKS_RESERVE 0x2008 with
      filling := []
      fillWait := []
      descs := [prefetchedStream]
      slices := [(1, Slice.reset), (0, returningSlice)] } }

theorem unsortedState_reaches : unsortedState.reaches (.genCommit 0) 0 rGEN_COMMIT = true ∧
    unsortedState.ctl.converged = true := by decide +kernel

/-- A reserve of 8 MiB exceeds the capacity of one returning slice. -/
theorem unsortedState_reserve : unsortedState.ctl.claimed + 2048 * fld (unsortedState.ctl.reg rKS_RESERVE) 0 6 = 16384 ∧
    unsortedState.ctl.capacity = 8192 ∧ fld (unsortedState.ctl.reg rKS_RESERVE) 8 6 = 32 := by decide +kernel

/-- Emptying the key lane of slice 0 enters it in front of slice 1 with its old entry left behind, and the commit, which drops the
prefetch before it tests the reserve, makes 8 MiB active. -/
theorem unsortedState_commit : (unsortedState.ctl.dropPrefetch prefetchKey).slices.map (·.1) = [0, 1, 0] ∧
    (unsortedState.ctl.dropPrefetch prefetchKey).capacity = 16384 ∧
    fld (unsortedState.ctl.commitGen.reg rKS_RESERVE) 8 6 = 8 := by decide +kernel

/-- GEN_COMMIT of a converged block leaves the registers of the commit (R408). -/
theorem exec_genCommit_regs {s : State} {id : Byte} (hreaches : s.reaches (.genCommit id) id rGEN_COMMIT = true)
    (hconv : s.ctl.converged = true) : ∃ t, exec (.genCommit id) s = .next t ∧ ∀ o, t.ctl.reg o = s.ctl.commitGen.reg o := by
  refine ⟨_, ctlStep_open_of_reaches hreaches _, fun o => ?_⟩
  rw [Ctl.go, if_pos hconv]
  rfl

/-- Refutes O12 by an ill-formed state: the statement admits a slice table whose keys do not rise, in which a slice that returns
counts twice once the commit has dropped a prefetch, so that a reserve above the capacity before the commit becomes active. -/
theorem not_reserveWrite : ¬ Obligations.ReserveWrite := by
  intro h
  obtain ⟨hreaches, hconv⟩ := unsortedState_reaches
  obtain ⟨hneed, hcap, hactive⟩ := unsortedState_reserve
  obtain ⟨-, -, hmade⟩ := unsortedState_commit
  obtain ⟨t, hexec, hregs⟩ := exec_genCommit_regs hreaches hconv
  obtain ⟨t', hexec', -, hreject⟩ := h.1 unsortedState (.genCommit 0) 0 (.inl ⟨rfl, hreaches⟩) hconv
  obtain rfl : t = t' := Host.Outcome.next.inj (hexec.symm.trans hexec')
  obtain ⟨hkept, -⟩ := hreject (by rw [hneed, hcap]; decide)
  rw [hregs, hmade, hactive] at hkept
  exact absurd hkept (by decide)

end Sys2Proof.Machine

/-!
SUPPORT. Tokens and FENCEs that time out (R148, R149): the FENCEs that a token write lets go on complete, whatever other FENCEs do
before them.
-/
namespace Sys2Proof.Machine

/-- Fixing one descriptor's status leaves every other descriptor. -/
theorem Ctl.desc?_fix_ne (c : Ctl) {j k : Key} (h : j ≠ k) (st de : Nat) : (c.fix j st de).desc? k = c.desc? k := by
  rcases c.fix_cases j st de with hsame | ⟨_, _, -, -, hleads, -⟩
  · rw [hsame]
  · exact hleads.others k h

/-- One waiting FENCE re-evaluated (R149). -/
def Ctl.fenceStep (c : Ctl) (d : Desc) : Ctl := if c.fenceMet d then (c.fix d.key 0 0).wakeOnWork else c

theorem Ctl.fences_eq (c : Ctl) :
    c.fences = c.each (c.descs.filter fun d => d.kind = 11 && d.stage = .wait) Ctl.fenceStep := rfl

theorem Ctl.fenceStep_apart (c : Ctl) (d : Desc) : c.Apart (c.fenceStep d) := by
  unfold Ctl.fenceStep
  split
  · exact (c.fix_apart _ _ _).trans (Ctl.wakeOnWork_beside _).toApart
  · exact .refl c

theorem Ctl.Settled.fenceStep {c : Ctl} {k : Key} {de : Nat} (h : c.Settled k 0 de) (d : Desc) :
    (c.fenceStep d).Settled k 0 de := by
  unfold Ctl.fenceStep
  split
  · exact (h.fix _ _ (.inl rfl)).beside (Ctl.wakeOnWork_beside _)
  · exact h

/-- A FENCE that a re-evaluation lets go on settles what stands under its key. -/
theorem Ctl.fenceStep_settled {c : Ctl} {d e : Desc} (hdesc : c.desc? d.key = some e) (hwait : e.stage = .wait)
    (hmet : c.fenceMet d = true) : (c.fenceStep d).Settled d.key 0 0 := by
  rw [Ctl.fenceStep, if_pos hmet]
  exact (Ctl.fix_settled hdesc (by simp [Desc.completed, hwait]) (by simp [hwait]) 0 0).beside (Ctl.wakeOnWork_beside _)

/-- A re-evaluation settles what stands under its key, or leaves it. -/
theorem Ctl.fenceStep_cases {c : Ctl} {x : Key} {e : Desc} (hdesc : c.desc? x = some e) (hwait : e.stage = .wait) (d : Desc) :
    (c.fenceStep d).Settled x 0 0 ∨ (c.fenceStep d).desc? x = some e := by
  by_cases hmet : c.fenceMet d = true
  · by_cases hkey : d.key = x
    · subst hkey
      exact .inl (Ctl.fenceStep_settled hdesc hwait hmet)
    · rw [Ctl.fenceStep, if_pos hmet, (Ctl.wakeOnWork_beside _).desc?, c.desc?_fix_ne hkey, hdesc]
      exact .inr rfl
  · rw [Ctl.fenceStep, if_neg hmet]
    exact .inr hdesc

/-- A FENCE that may go on for as long as the registers stand completes with OK (R149). -/
theorem Ctl.fences_settle {c : Ctl} {d : Desc} (hdesc : c.desc? d.key = some d) (hkind : d.kind = 11) (hwait : d.stage = .wait)
    (hmet : ∀ c', c.Apart c' → c'.fenceMet d = true) : c.fences.Settled d.key 0 0 := by
  have hlist : ∀ (l : List Desc) (c' : Ctl), c.Apart c' → d ∈ l → c'.desc? d.key = some d →
      (c'.each l Ctl.fenceStep).Settled d.key 0 0 := by
    intro l
    induction l with
    | nil => intro c' _ hl; simp at hl
    | cons e l ih =>
      intro c' hapart hl hd
      rw [Ctl.each, List.foldl_cons]
      have hdone : (c'.fenceStep e).Settled d.key 0 0 → ((c'.fenceStep e).each l Ctl.fenceStep).Settled d.key 0 0 :=
        Ctl.each_induction (P := fun c => c.Settled d.key 0 0) (fun _ x hc => hc.fenceStep x) l
      rcases List.mem_cons.mp hl with rfl | hrest
      · exact hdone (Ctl.fenceStep_settled hd hwait (hmet c' hapart))
      · rcases Ctl.fenceStep_cases hd hwait e with hset | hstay
        · exact hdone hset
        · exact ih _ (hapart.trans (c'.fenceStep_apart e)) hrest hstay
  rw [Ctl.fences_eq]
  exact hlist _ c (.refl c) (List.mem_filter.mpr ⟨List.mem_of_find?_eq_some hdesc, by simp [hkind, hwait]⟩) hdesc

/-- A FENCE on a token alone may go on once the token is at WAIT_VALUE or beyond, modulo 2^32 (R149). -/
theorem Ctl.fenceMet_of_token {c : Ctl} {d : Desc} {n : Nat} {v : Word} (holder : bit (d.w 1) 8 = false) (hn : fld (d.w 2) 0 8 = n)
    (hv : c.reg (rTOKEN_VALUE n) = v) (hreached : (v.toNat + 2 ^ 32 - (d.w 3).toNat) % 2 ^ 32 < 2 ^ 31) :
    c.fenceMet d = true := by
  have hsub : (v - d.w 3).toNat = (v.toNat + 2 ^ 32 - (d.w 3).toNat) % 2 ^ 32 := by
    have hlt := (d.w 3).isLt
    rw [BitVec.toNat_sub]
    congr 1
    omega
  have htoken : c.tokenMet d = true := by
    rw [Ctl.tokenMet, hn, hv, hsub]
    exact decide_eq_true hreached
  simp [Ctl.fenceMet, htoken, holder]

/-- A driver's write of a token stores it, and every FENCE that waits on it alone goes on (R148, R149). -/
theorem Ctl.writeToken_spec (c : Ctl) {n : Nat} (hn : n < 256) (v : Word) :
    (c.writeToken n v).reg (rTOKEN_VALUE n) = v ∧
      ∀ x d, c.desc? x = some d → d.kind = 11 → d.stage = .wait → bit (d.w 1) 8 = false → fld (d.w 2) 0 8 = n →
        (v.toNat + 2 ^ 32 - (d.w 3).toNat) % 2 ^ 32 < 2 ^ 31 → (c.writeToken n v).concludes x 0 0 := by
  have hstored : ∀ c', (c.setReg (rTOKEN_VALUE n) v).Apart c' → c'.reg (rTOKEN_VALUE n) = v := fun c' ha =>
    (ha.regs _ (tokenValue_notMem_doneRegs hn)).trans (Ctl.reg_setReg_self c _ v)
  refine ⟨hstored _ (Ctl.fences_apart _), fun x d hdesc hkind hwait holder htok hreached => ?_⟩
  obtain rfl := Ctl.desc?_key hdesc
  exact (Ctl.fences_settle (c := c.setReg (rTOKEN_VALUE n) v) hdesc hkind hwait fun c' ha =>
    Ctl.fenceMet_of_token holder htok (hstored c' ha) hreached).concludes

/-- Settles O28: a token write re-evaluates the FENCEs, and a FENCE whose timeout has passed ends with a status that a pair
reconciles. -/
theorem tokensAndFenceTimeout : Obligations.TokensAndFenceTimeout := by
  refine ⟨fun s n id v hr => ?_, fun s k i dl d ht hdesc hkind hwait hdl hdue hnight => ?_⟩
  · obtain ⟨hreg, hconcl⟩ := s.ctl.writeToken_spec (of_decide_eq_true (State.wf_of_reaches hr)) v
    exact ⟨_, ctlStep_open_of_reaches hr _, hreg, fun x d hd hk hw _ holder htok hmet => hconcl x d hd hk hw holder htok hmet⟩
  · have hexec : exec (.fenceTimeout k i) s = .next { s with ctl := s.ctl.finish { ring := k, idx := i, sub := 0 } 0x40 7 } := by
      change execFenceTimeout k i s = _
      rw [execFenceTimeout, ctlStep_takes _ ht]
      simp [hdesc, hdl, hkind, hwait, hnight, Ctl.due, hdue]
    obtain ⟨e, he, hfinal, hst, hde⟩ := (Ctl.finish_settled hdesc (by simp [Desc.completed, hwait]) (by simp [hwait])
      0x40 7).endsWith rfl
    exact ⟨_, e, hexec, (Ctl.desc?_key hdesc) ▸ he, hfinal, hst, hde⟩

end Sys2Proof.Machine

/-!
SUPPORT. A burst that is requested while no translation of its domain is cached waits for its translation; how rings settle; and
the settled statement about fetches and records.
-/
namespace Sys2Proof.Machine

/-! ### Requested bursts wait -/

/-- Every burst that needs a translation is of domain `D`, misses, and needs a walk. -/
structure Ctl.NeedsWalks (c : Ctl) (D : Nat) : Prop extends c.Misses D where
  translated : ∀ b ∈ c.mem.bursts, b.state = .need → b.access ≠ 5

theorem Ctl.NeedsWalks.of_calm {c : Ctl} {D : Nat} (h : c.calm D = true) : c.NeedsWalks D := by
  refine ⟨.of_calm h, fun b hb hneed => ?_⟩
  simp only [Ctl.calm, Bool.and_eq_true, List.all_eq_true, decide_eq_true_eq] at h
  exact absurd hneed (h.1 b hb)

theorem Ctl.NeedsWalks.congr {c c' : Ctl} {D : Nat} (h : c.NeedsWalks D) (hm : c'.mem = c.mem) : c'.NeedsWalks D :=
  ⟨h.toMisses.congr hm, by rw [hm]; exact h.translated⟩

/-- A burst waits for its translation: one of the same purpose, address and data needs it, or waits on a walk. -/
def Ctl.Awaits (c : Ctl) (b0 : Burst) : Prop :=
  ∃ b ∈ c.mem.bursts, b.purpose = b0.purpose ∧ b.state ∈ [BState.need, .walking] ∧ b.va = b0.va ∧ b.data = b0.data

/-- Bursts of a purpose come to wait on a walk. -/
def Ctl.toWalk (c : Ctl) (p : BPurpose) : Ctl := c.modBurst p fun b => { b with state := .walking }

theorem Ctl.Awaits.toWalk {c : Ctl} {b0 : Burst} (h : c.Awaits b0) (p : BPurpose) : (c.toWalk p).Awaits b0 := by
  obtain ⟨b, hb, hp, hs, hva, hdata⟩ := h
  refine ⟨_, List.mem_map_of_mem hb, ?_⟩
  split
  · exact ⟨hp, by simp, hva, hdata⟩
  · exact ⟨hp, hs, hva, hdata⟩

theorem Ctl.toWalk_translated {c : Ctl} (h : ∀ b ∈ c.mem.bursts, b.state = .need → b.access ≠ 5) (p : BPurpose) :
    ∀ b ∈ (c.toWalk p).mem.bursts, b.state = .need → b.access ≠ 5 := by
  intro b hb hneed
  obtain ⟨e, he, rfl⟩ := List.mem_map.mp hb
  split at hneed
  next => simp at hneed
  next hkeep => rw [if_neg hkeep]; exact h e he hneed

/-- A burst of an uncached domain that needs a translation goes on to wait on a walk, or stays as it is (R240, R242). -/
theorem Ctl.translate_bursts {c : Ctl} {D : Nat} (h : c.NeedsWalks D) (p : BPurpose) :
    (c.translate p).mem.bursts = c.mem.bursts ∨ (c.translate p).mem.bursts = (c.toWalk p).mem.bursts := by
  unfold Ctl.translate
  split
  next => exact .inl rfl
  next b hb =>
    have hmem := List.mem_of_find?_eq_some hb
    have hneed := List.find?_some hb
    simp only [Bool.and_eq_true, decide_eq_true_eq] at hneed
    rw [h.needs b hmem hneed.2, h.cached_eq_none, if_neg (h.translated b hmem hneed.2)]
    split_ifs
    · exact .inl rfl
    · exact .inr rfl
    · exact .inr rfl
    · exact .inl rfl

theorem Ctl.translate_awaits {c : Ctl} {D : Nat} (h : c.NeedsWalks D) (p : BPurpose) :
    (c.translate p).NeedsWalks D ∧ ∀ b, c.Awaits b → (c.translate p).Awaits b := by
  have hmiss := (Ctl.translate_of_misses h.toMisses p).1
  rcases Ctl.translate_bursts h p with hsame | hwalk
  · exact ⟨⟨hmiss, by rw [hsame]; exact h.translated⟩, fun b hb => by rw [Ctl.Awaits, hsame]; exact hb⟩
  · exact ⟨⟨hmiss, by rw [hwalk]; exact Ctl.toWalk_translated h.translated p⟩,
      fun b hb => by rw [Ctl.Awaits, hwalk]; exact hb.toWalk p⟩

/-- What is requested waits, and what waits already goes on waiting (R239). -/
theorem Ctl.request_awaits {c : Ctl} {D : Nat} (h : c.NeedsWalks D) {bs : List Burst}
    (hbs : ∀ b ∈ bs, b.domain = D ∧ b.state = .need ∧ b.access ≠ 5) :
    (c.request bs).NeedsWalks D ∧ c.Walks (c.request bs) ∧ ∀ b, b ∈ bs ∨ c.Awaits b → (c.request bs).Awaits b := by
  have hadd : (c.addBursts bs).NeedsWalks D := by
    refine ⟨⟨h.uncached, fun b hb hneed => ?_⟩, fun b hb hneed => ?_⟩ <;> rcases List.mem_append.mp hb with hb | hb
    · exact h.needs b hb hneed
    · exact (hbs b hb).1
    · exact h.translated b hb hneed
    · exact (hbs b hb).2.2
  have hawait : ∀ b, b ∈ bs ∨ c.Awaits b → (c.addBursts bs).Awaits b := by
    rintro b (hb | ⟨e, he, hwait⟩)
    · exact ⟨b, List.mem_append_right _ hb, rfl, by simp [(hbs b hb).2.1], rfl, rfl⟩
    · exact ⟨e, List.mem_append_left _ he, hwait⟩
  have hpump : (c.request bs).NeedsWalks D ∧ ∀ b, (c.addBursts bs).Awaits b → (c.request bs).Awaits b :=
    Ctl.each_induction (P := fun e => e.NeedsWalks D ∧ ∀ b, (c.addBursts bs).Awaits b → e.Awaits b)
      (fun e p he => ⟨(Ctl.translate_awaits he.1 p).1, fun b hb => (Ctl.translate_awaits he.1 p).2 b (he.2 b hb)⟩) _
      ⟨hadd, fun _ hb => hb⟩
  exact ⟨hpump.1, (Ctl.request_of_misses h.toMisses fun b hb => (hbs b hb).1).2, fun b hb => hpump.2 b (hawait b hb)⟩

/-- One burst of ring traffic requested. -/
theorem Ctl.request_one {c : Ctl} {D : Nat} (h : c.NeedsWalks D) (p : BPurpose) {cls access : Nat} (haccess : access ≠ 5)
    (va : Addr) (data : List (Option Byte)) :
    (c.request [newBurst p cls access D va data]).NeedsWalks D ∧ c.Walks (c.request [newBurst p cls access D va data]) ∧
      ∀ b, b = newBurst p cls access D va data ∨ c.Awaits b → (c.request [newBurst p cls access D va data]).Awaits b := by
  obtain ⟨hneeds, hwalks, hawaits⟩ := Ctl.request_awaits h (bs := [newBurst p cls access D va data])
    fun b hb => by rw [List.mem_singleton.mp hb]; exact ⟨rfl, rfl, haccess⟩
  exact ⟨hneeds, hwalks, fun b hb => hawaits b (hb.imp_left List.mem_singleton.mpr)⟩

/-- The rings and the descriptors stand beside the memory path. -/
theorem Ctl.Walks.ring {c c' : Ctl} (h : c.Walks c') (k : Nat) : c'.ring k = c.ring k := by
  have hrings : c'.rings = c.rings := by rw [h.frame]
  rw [Ctl.ring, hrings, Ctl.ring]

theorem Ctl.Walks.desc? {c c' : Ctl} (h : c.Walks c') (k : Key) : c'.desc? k = c.desc? k := by
  have hdescs : c'.descs = c.descs := by rw [h.frame]
  rw [Ctl.desc?, hdescs, Ctl.desc?]

/-! ### The end of a function reset, and of a drain -/

/-- The end of a function reset touches `func` and READY alone (R393). -/
theorem Ctl.funcSettle_frame (c : Ctl) :
    c.funcSettle = { c with regs := c.funcSettle.regs, func := c.funcSettle.func } ∧ c.keeps c.funcSettle [rREADY] := by
  have hup : ∀ c : Ctl, c.readyUp = { c with regs := c.readyUp.regs } ∧ c.keeps c.readyUp [rREADY] := by
    intro c
    have hraise : ∀ (c : Ctl) (i : Nat), c.SetsOnly (c.raise rREADY i) [rREADY] := fun c i => .setReg c _ (by simp)
    have hif : ∀ (p : Prop) [Decidable p] (c : Ctl) (i : Nat), c.SetsOnly (if p then c.raise rREADY i else c) [rREADY] := by
      intro p _ c i
      split
      · exact hraise c i
      · exact Ctl.SetsOnly.refl c _
    unfold Ctl.readyUp
    split
    · exact Ctl.SetsOnly.refl c _
    · exact Ctl.SetsOnly.trans (hif _ c 2) (hif _ _ 5)
  unfold Ctl.funcSettle
  dsimp only
  split
  · obtain ⟨hframe, hkeeps⟩ := hup { c with func := 0 }
    exact ⟨by rw [hframe], hkeeps⟩
  · exact ⟨rfl, fun _ _ => rfl⟩

@[simp] theorem Ctl.funcSettle_rings (c : Ctl) : c.funcSettle.rings = c.rings := by rw [c.funcSettle_frame.1]

@[simp] theorem Ctl.funcSettle_ring (c : Ctl) (k : Nat) : c.funcSettle.ring k = c.ring k := by
  rw [Ctl.ring, Ctl.funcSettle_rings, Ctl.ring]

@[simp] theorem Ctl.funcSettle_mem (c : Ctl) : c.funcSettle.mem = c.mem := by rw [c.funcSettle_frame.1]

@[simp] theorem Ctl.funcSettle_descs (c : Ctl) : c.funcSettle.descs = c.descs := by rw [c.funcSettle_frame.1]

/-- The registers of a ring lie above READY. -/
theorem Ctl.reg_funcSettle (c : Ctl) {base k : Nat} (h : rREADY < base) :
    c.funcSettle.reg (base + 0x100 * k) = c.reg (base + 0x100 * k) := by
  have hne : base + 0x100 * k ≠ rREADY := by omega
  exact c.funcSettle_frame.2 _ (List.mem_singleton.not.mpr hne)

/-- A DRAINING ring settles in its registers alone. -/
theorem Ctl.settleRing_cases (c : Ctl) (k : Nat) : c.settleRing k = c ∨ ∃ v,
    c.settleRing k = ((c.putRingState k 0).setReg64 (rRING_HEAD_LO k) (rRING_HEAD_HI k) v).funcSettle := by
  unfold Ctl.settleRing
  split
  · exact .inr ⟨_, rfl⟩
  · exact .inl rfl

@[simp] theorem Ctl.settleRing_rings (c : Ctl) (k : Nat) : (c.settleRing k).rings = c.rings := by
  rcases c.settleRing_cases k with h | ⟨v, h⟩ <;> rw [h]
  rw [Ctl.funcSettle_rings]
  rfl

@[simp] theorem Ctl.settleRing_ring (c : Ctl) (k j : Nat) : (c.settleRing k).ring j = c.ring j := by
  rw [Ctl.ring, Ctl.settleRing_rings, Ctl.ring]

@[simp] theorem Ctl.settleRing_mem (c : Ctl) (k : Nat) : (c.settleRing k).mem = c.mem := by
  rcases c.settleRing_cases k with h | ⟨v, h⟩ <;> rw [h]
  rw [Ctl.funcSettle_mem]
  rfl

@[simp] theorem Ctl.settleRing_descs (c : Ctl) (k : Nat) : (c.settleRing k).descs = c.descs := by
  rcases c.settleRing_cases k with h | ⟨v, h⟩ <;> rw [h]
  rw [Ctl.funcSettle_descs]
  rfl

/-! ### DESCRIPTOR_FETCH (R125) -/

theorem exec_descriptorFetch {s : State} {k : Nat} (ht : s.takes .descriptorFetch = true) (hadmit : s.ctl.admitting = true)
    (hnode : s.ctl.nodeValid = true) (hidle : ∀ r < 64, (s.ctl.ring r).fetching = false)
    (hcalm : s.ctl.calm (s.ctl.ringDomain k) = true)
    (hnext : ((List.range 64).map fun i => (s.ctl.fetchPtr + i) % 64).find? s.ctl.fetchable = some k) :
    ∃ t, exec .descriptorFetch s = .next t ∧ t.ctl.fetchPtr = (k + 1) % 64 ∧ (t.ctl.ring k).fetching = true ∧
      t.ctl.Awaits (newBurst (.fetch k (s.ctl.ring k).nextIdx) 0 3 (s.ctl.ringDomain k)
        (s.ctl.descAddr k (s.ctl.ring k).nextIdx) []) := by
  have hnone : ((List.range 64).any fun r => (s.ctl.ring r).fetching) = false := by
    rw [List.any_eq_false]
    intro r hr
    simp [hidle r (List.mem_range.mp hr)]
  let c : Ctl := { s.ctl.modRing k (fun r => { r with fetching := true }) with fetchPtr := (k + 1) % 64 }
  let b := newBurst (.fetch k (s.ctl.ring k).nextIdx) 0 3 (s.ctl.ringDomain k) (s.ctl.descAddr k (s.ctl.ring k).nextIdx) []
  have hexec : exec .descriptorFetch s = .next { s with ctl := c.request [b] } := by
    change execDescriptorFetch s = _
    rw [execDescriptorFetch, ctlStep_takes _ ht]
    simp only [hadmit, hnode, hnone, hnext, Bool.not_true, Bool.or_false, Bool.false_eq_true, if_false]
    rfl
  have hneeds : c.NeedsWalks (s.ctl.ringDomain k) := (Ctl.NeedsWalks.of_calm hcalm).congr rfl
  obtain ⟨-, hwalks, hawaits⟩ := Ctl.request_one hneeds (.fetch k (s.ctl.ring k).nextIdx) (cls := 0) (access := 3) (by decide)
    (s.ctl.descAddr k (s.ctl.ring k).nextIdx) []
  refine ⟨_, hexec, ?_, ?_, hawaits b (.inl rfl)⟩
  · change (c.request [b]).fetchPtr = _
    rw [hwalks.frame]
  · change ((c.request [b]).ring k).fetching = true
    rw [hwalks.ring]
    change ((s.ctl.modRing k fun r => { r with fetching := true }).ring k).fetching = true
    rw [Ctl.modRing_ring, if_pos rfl]

/-! ### COMPLETION_RECORD (R142 to R144) -/

/-- The record of a descriptor is written: words 1 to 7 first, at its place (R142). -/
theorem Ctl.writeRecord_spec {c : Ctl} {d : Desc} (hdesc : c.desc? d.key = some d)
    (hcalm : c.calm (c.ringDomain d.key.ring) = true) :
    (∃ e, ((c.modDesc d.key fun d => { d with stage := .record }).writeRecord d true).desc? d.key = some e ∧
      e.stage = .record) ∧
    ((c.modDesc d.key fun d => { d with stage := .record }).writeRecord d true).Awaits
      (newBurst (.recordHi d.key true) 0 4 (c.ringDomain d.key.ring) (c.recordAddr d.key.ring d.key.idx)
        (lineData ((c.recordAddr d.key.ring d.key.idx).toNat % 64 + 4) (((d.record true).drop 1).flatMap wordBytes))) := by
  have hneeds : (c.modDesc d.key fun d => { d with stage := .record }).NeedsWalks (c.ringDomain d.key.ring) :=
    (Ctl.NeedsWalks.of_calm hcalm).congr rfl
  obtain ⟨-, hwalks, hawaits⟩ := Ctl.request_one hneeds (.recordHi d.key true) (cls := 0) (access := 4) (by decide)
    (c.recordAddr d.key.ring d.key.idx)
    (lineData ((c.recordAddr d.key.ring d.key.idx).toNat % 64 + 4) (((d.record true).drop 1).flatMap wordBytes))
  refine ⟨⟨{ d with stage := .record }, ?_, rfl⟩, hawaits _ (.inl rfl)⟩
  refine (hwalks.desc? d.key).trans ((Ctl.desc?_modDesc_self _ _ _ ?_).trans ?_)
  · exact fun _ => rfl
  · rw [hdesc]
    rfl

theorem exec_completionRecord {s : State} {d : Desc} (ht : s.takes (.completionRecord d.key.ring d.key.idx) = true)
    (hsub : d.key.sub = 0) (hdesc : s.ctl.desc? d.key = some d) (hnext : s.ctl.recordNext d = true) (hnight : s.ctl.pstate ≠ 4)
    (hshadow : s.ctl.shadow = false) :
    exec (.completionRecord d.key.ring d.key.idx) s = .next { s with ctl :=
      if (s.ctl.ring d.key.ring).recFault then
        (s.ctl.modRing d.key.ring fun r => { r with held := r.held ++ [d.key] }).settleRing d.key.ring
      else (s.ctl.modDesc d.key fun d => { d with stage := .record }).writeRecord d true } := by
  have hkey : ({ ring := d.key.ring, idx := d.key.idx, sub := 0 } : Key) = d.key := by rw [← hsub]
  change execCompletionRecord _ _ s = _
  rw [execCompletionRecord, ctlStep_takes _ ht]
  simp [hkey, hdesc, hnext, hnight, hshadow]

/-- Settles O27: a fetch and a record each request one burst, which misses and so waits. -/
theorem fetchesAndRecords : Obligations.FetchesAndRecords := by
  refine ⟨fun s k ht hadmit hnode hidle hcalm hnext => ?_, fun s k i d ht hdesc hnext hnight hshadow hcalm => ?_⟩
  · obtain ⟨t, hexec, hptr, hfetch, b, hb, hp, hstate, hva, -⟩ := exec_descriptorFetch ht hadmit hnode hidle hcalm hnext
    exact ⟨t, hexec, hptr, hfetch, b, hb, hp, hstate, hva⟩
  · have hkey := Ctl.desc?_key hdesc
    obtain ⟨rfl, rfl, hsub⟩ : d.key.ring = k ∧ d.key.idx = i ∧ d.key.sub = 0 := by rw [hkey]; exact ⟨rfl, rfl, rfl⟩
    rw [← hkey] at hdesc
    refine ⟨_, exec_completionRecord ht hsub hdesc hnext hnight hshadow, fun hfault => ?_, fun hfault => ?_⟩
    · simp only [hfault, if_true, Ctl.settleRing_ring, Ctl.settleRing_mem, Ctl.modRing_mem, and_true]
      rw [Ctl.modRing_ring, if_pos rfl]
      simp
    · obtain ⟨hrecord, b, hb, hp, -, hva, hdata⟩ := Ctl.writeRecord_spec hdesc hcalm
      simp only [hfault, Bool.false_eq_true, if_false]
      exact ⟨hrecord, b, hb, hp, hva, by rw [hdata, hva]; rfl⟩

end Sys2Proof.Machine

/-!
SUPPORT. What the pacer's tick leaves unchanged, how a watch comes and goes, and the settled statement about looking for work.
-/
namespace Sys2Proof.Machine

/-! ### The pacer's tick touches power and group alone -/

/-- `c'` is `c` but for power, the group and what they drive and count. -/
structure Ctl.Paces (c c' : Ctl) : Prop where
  frame : c' = { c with regs := c'.regs, power := c'.power, group := c'.group, outbox := c'.outbox }
  keeps : c.keeps c' [rHELD_TICKS]

theorem Ctl.Paces.refl (c : Ctl) : c.Paces c := ⟨rfl, fun _ _ => rfl⟩

theorem Ctl.Paces.trans {c c' c'' : Ctl} (h : c.Paces c') (h' : c'.Paces c'') : c.Paces c'' :=
  ⟨by rw [h'.frame, h.frame], fun o ho => (h'.keeps o ho).trans (h.keeps o ho)⟩

theorem Ctl.paces_modPower (c : Ctl) (f : Power → Power) : c.Paces (c.modPower f) := ⟨rfl, fun _ _ => rfl⟩

theorem Ctl.paces_modGroup (c : Ctl) (f : Group → Group) : c.Paces (c.modGroup f) := ⟨rfl, fun _ _ => rfl⟩

theorem Ctl.paces_emit (c : Ctl) (o : Out) : c.Paces (c.emit o) := ⟨rfl, fun _ _ => rfl⟩

theorem Ctl.paces_heldTick (c : Ctl) : c.Paces (c.count rHELD_TICKS 1) :=
  ⟨rfl, fun _ ho => Ctl.reg_setReg_ne c _ (Ne.symm (List.mem_singleton.not.mp ho))⟩

theorem Ctl.paces_putVreq (c : Ctl) (v : Nat) : c.Paces (c.putVreq v) := by
  unfold Ctl.putVreq
  dsimp only
  split_ifs
  · exact .refl c
  · exact c.paces_modPower _
  · exact ((c.paces_modPower _).trans (Ctl.paces_modPower _ _)).trans (Ctl.paces_emit _ _)

theorem Ctl.paces_startMargin (c : Ctl) : c.Paces c.startMargin := by
  have hraise : ∀ c : Ctl, c.Paces c.raiseVreq := by
    intro c
    unfold Ctl.raiseVreq
    split
    · exact c.paces_putVreq _
    · exact .refl c
  exact (c.paces_modPower fun p => { p with margin := true, marginEnd := none }).trans (hraise _)

theorem Ctl.paces_fullGate (c : Ctl) : c.Paces c.fullGate := ⟨rfl, fun _ _ => rfl⟩

theorem Ctl.paces_applyTarget (c : Ctl) (t limit : Nat) : c.Paces (c.applyTarget t limit) := by
  refine (c.paces_modPower fun p => { p with target := t, limit := limit }).trans ?_
  unfold Ctl.applyTarget
  dsimp only
  split_ifs
  · exact Ctl.paces_modPower _ _
  · exact Ctl.paces_modPower _ _
  · exact Ctl.paces_modPower _ _
  · exact (Ctl.paces_modPower _ _).trans (Ctl.paces_startMargin _)
  · exact (Ctl.paces_modPower _ _).trans (Ctl.paces_fullGate _)
  · exact Ctl.paces_modPower _ _

theorem Ctl.paces_duskEnd (c : Ctl) : c.Paces c.duskEnd := by
  unfold Ctl.duskEnd
  split
  · split
    · exact (c.paces_modPower _).trans (Ctl.paces_fullGate _)
    · exact .refl c
  · exact .refl c

theorem Ctl.paces_groupTick (c : Ctl) : c.Paces c.groupTick := by
  refine (c.paces_modPower fun p => { p with added := c.tokensPerTick }).trans ?_
  unfold Ctl.groupTick
  dsimp only
  split_ifs
  · exact .refl _
  · exact (Ctl.paces_heldTick _).trans (Ctl.paces_modGroup _ _)
  · exact Ctl.paces_modGroup _ _

theorem Ctl.paces_paceTick (c : Ctl) : c.Paces c.paceTick := by
  have htarget : ∀ c : Ctl, c.Paces c.duskEnd.groupTick := fun c => c.paces_duskEnd.trans (Ctl.paces_groupTick _)
  unfold Ctl.paceTick
  split
  · exact ((c.paces_applyTarget _ _).trans (Ctl.paces_modPower _ _)).trans (htarget _)
  · exact htarget c

theorem Ctl.paces_windowTick (c : Ctl) : c.Paces c.windowTick := ⟨rfl, fun _ _ => rfl⟩

theorem Ctl.paces_paceInTurn (c : Ctl) : c.Paces c.paceInTurn := by
  unfold Ctl.paceInTurn Ctl.paceNow
  split_ifs
  · exact .refl c
  · exact ((c.paces_modPower _).trans (Ctl.paces_paceTick _)).trans (Ctl.paces_windowTick _)
  · exact .refl c

/-! ### A producer index is read (R126, R128) -/

/-- The producer index of ring `k` may be read: the ring runs, no read of it is under way, and what it requests waits. -/
structure Ctl.MayRead (c : Ctl) (k : Nat) : Prop where
  running : c.ringState k = 1
  node : c.nodeValid = true
  idle : (c.ring k).reading = false
  calm : c.calm (c.ringDomain k) = true

/-- The read of the producer index of a ring. -/
def Ctl.indexRead (c : Ctl) (k : Nat) : Burst :=
  newBurst (.index k) 0 3 (c.ringDomain k) (BitVec.ofNat 64 (c.reg64 (rPI_ADDR_LO k) (rPI_ADDR_HI k))) []

/-- Whether an index may be read, and where, does not change with the pacer's tick. -/
theorem Ctl.Paces.mayRead {c c' : Ctl} {k : Nat} (h : c.Paces c') (hk : k < 64) (hread : c.MayRead k) :
    c'.MayRead k ∧ c'.indexRead k = c.indexRead k ∧ c'.ring k = c.ring k := by
  have hreg : ∀ {base : Nat}, base ≤ 0x100FC → c'.reg (base + 0x100 * k) = c.reg (base + 0x100 * k) := fun hbase =>
    h.keeps _ (List.mem_singleton.not.mpr (by rw [rHELD_TICKS]; omega))
  have hring : c'.ring k = c.ring k := by rw [h.frame]; rfl
  have hdomain : c'.ringDomain k = c.ringDomain k := by rw [Ctl.ringDomain, Ctl.rf, hreg (by decide)]; rfl
  refine ⟨⟨?_, ?_, by rw [hring, hread.idle], ?_⟩, ?_, hring⟩
  · rw [Ctl.ringState, Ctl.rf, hreg (by decide)]
    exact hread.running
  · rw [Ctl.nodeValid, h.keeps _ (by decide)]
    exact hread.node
  · rw [hdomain, h.frame]
    exact hread.calm
  · rw [Ctl.indexRead, hdomain, Ctl.reg64, hreg (by decide), hreg (by decide)]
    rfl

/-- A change of the ring's own notes leaves open whether its index may be read. -/
theorem Ctl.MayRead.modRing {c : Ctl} {k : Nat} (h : c.MayRead k) {f : Ring → Ring} (hf : ∀ r, (f r).reading = r.reading) :
    (c.modRing k f).MayRead k :=
  ⟨h.running, h.node, by rw [Ctl.modRing_ring, if_pos rfl, hf, h.idle], h.calm⟩

/-- Then the ring reads its index, and the read waits for its translation. -/
theorem Ctl.MayRead.readIndex {c : Ctl} {k : Nat} (h : c.MayRead k) :
    (c.readIndex k).NeedsWalks ((c.readIndex k).ringDomain k) ∧ (c.readIndex k).Awaits (c.indexRead k) ∧
      (c.readIndex k).ring k = { c.ring k with reading := true } := by
  have hread : c.readIndex k = (c.modRing k fun r => { r with reading := true }).request [c.indexRead k] := by
    have hrun : c.running k = true := decide_eq_true h.running
    rw [Ctl.readIndex, hrun, h.node, h.idle]
    rfl
  have hcalm : (c.modRing k fun r => { r with reading := true }).NeedsWalks (c.ringDomain k) :=
    (Ctl.NeedsWalks.of_calm h.calm).congr rfl
  obtain ⟨hneeds, hwalks, hawaits⟩ := Ctl.request_one hcalm (.index k) (cls := 0) (access := 3) (by decide)
    (BitVec.ofNat 64 (c.reg64 (rPI_ADDR_LO k) (rPI_ADDR_HI k))) []
  rw [hread]
  refine ⟨?_, hawaits _ (.inl rfl), ?_⟩
  · rw [Ctl.indexRead, (hwalks.ringKeeps k).ringDomain]
    exact hneeds
  · rw [Ctl.indexRead, hwalks.ring, Ctl.modRing_ring, if_pos rfl]

/-- Arming a watch leaves a read that waits waiting, and the ring but for its watch. -/
theorem Ctl.armWatch_awaits {c : Ctl} {k : Nat} {b : Burst} (hneeds : c.NeedsWalks (c.ringDomain k)) (hb : c.Awaits b) :
    (c.armWatch k).Awaits b ∧ (c.armWatch k).ring k = { c.ring k with watch := ((c.armWatch k).ring k).watch } := by
  unfold Ctl.armWatch
  split
  · have hcalm : (c.modRing k fun r => { r with watch := .translating }).NeedsWalks (c.ringDomain k) := hneeds.congr rfl
    obtain ⟨-, hwalks, hawaits⟩ := Ctl.request_one hcalm (.watch k) (cls := 0) (access := 3) (by decide)
      (BitVec.ofNat 64 (c.reg64 (rPI_ADDR_LO k) (rPI_ADDR_HI k))) []
    refine ⟨hawaits b (.inr hb), ?_⟩
    dsimp only
    rw [hwalks.ring, Ctl.modRing_ring, if_pos rfl]
  · exact ⟨hb, rfl⟩

/-! ### The write-watch (R127, R272) -/

theorem Ctl.arming_eq {c : Ctl} {k d : Nat} (h : (c.ring k).watch = .arming d) : c.arming k = some d := by
  rw [Ctl.arming, h]

/-- A watch that falls is off: WATCH_FALLBACK is set, WATCH_ACTIVE clear, and the ring goes on as it was. -/
theorem Ctl.watchFalls_spec (c : Ctl) (k : Nat) :
    ((c.watchFalls k).ring k).watch = .off ∧ bit ((c.watchFalls k).reg (rRING_STATUS k)) 16 = true ∧
      bit ((c.watchFalls k).reg (rRING_STATUS k)) 15 = false ∧ (c.watchFalls k).ringState k = c.ringState k := by
  have hreg : (c.watchFalls k).reg (rRING_STATUS k) =
      (c.reg (rRING_STATUS k) ||| 1#32 <<< 16) &&& ~~~(1#32 <<< 15) := by
    rw [Ctl.watchFalls, Ctl.reg_funcSettle _ (by decide), Ctl.reg_lower, if_pos rfl, Ctl.reg_raise, if_pos rfl]
    rfl
  have hbit : ∀ j, bit ((c.watchFalls k).reg (rRING_STATUS k)) j =
      ((bit (c.reg (rRING_STATUS k)) j || decide (j = 16)) && !decide (j = 15)) := by
    intro j
    rw [hreg, bit_lowered _ (by decide), bit_raised _ (by decide)]
  refine ⟨?_, by rw [hbit]; simp, by rw [hbit]; simp, fld_congr fun j hj => ?_⟩
  · rw [Ctl.watchFalls, Ctl.funcSettle_ring]
    change ((c.modRing k fun r => { r with watch := .off }).ring k).watch = .off
    rw [Ctl.modRing_ring, if_pos rfl]
  · have h15 : 0 + j ≠ 15 := by omega
    have h16 : 0 + j ≠ 16 := by omega
    rw [hbit, decide_eq_false h15, decide_eq_false h16]
    simp

theorem Ctl.watchArmed_spec (c : Ctl) (k : Nat) :
    ((((c.modRing k fun r => { r with watch := .armed }).raise (rRING_STATUS k) 15).funcSettle).ring k).watch = .armed ∧
      bit ((((c.modRing k fun r => { r with watch := .armed }).raise (rRING_STATUS k) 15).funcSettle).reg
        (rRING_STATUS k)) 15 = true := by
  constructor
  · rw [Ctl.funcSettle_ring]
    change ((c.modRing k fun r => { r with watch := .armed }).ring k).watch = .armed
    rw [Ctl.modRing_ring, if_pos rfl]
  · rw [Ctl.reg_funcSettle _ (by decide), Ctl.reg_raise, if_pos rfl, bit_raised _ (by decide)]
    simp

/-! ### The commands -/

theorem exec_poll {s : State} {k : Nat} (ht : s.takes (.poll k) = true) (hdue : (s.ctl.paceInTurn.ring k).pollDue = true)
    (hmay : s.ctl.paceInTurn.mayPoll = true) :
    exec (.poll k) s =
      .next { s with ctl := (s.ctl.paceInTurn.modRing k fun r => { r with pollDue := false }).readIndex k } := by
  change execPoll k s = _
  rw [execPoll, ctlStep_takes _ ht]
  simp only [hdue, hmay, Bool.and_true, if_true]

theorem exec_backstopRead {s : State} {k : Nat} (ht : s.takes (.backstopRead k) = true)
    (hdue : (s.ctl.paceInTurn.ring k).backDue = true) (hmay : s.ctl.paceInTurn.mayPoll = true) :
    exec (.backstopRead k) s = .next { s with ctl :=
      ((s.ctl.paceInTurn.modRing k fun r => { r with backDue := false }).readIndex k).armWatch k } := by
  change execBackstopRead k s = _
  rw [execBackstopRead, ctlStep_takes _ ht]
  simp only [hdue, hmay, Bool.and_true, if_true]

theorem exec_watchHit {s : State} {k : Nat} (ht : s.takes (.watchHit k) = true) (hw : (s.ctl.ring k).watch = .armed) :
    exec (.watchHit k) s = .next { s with ctl := s.ctl.readIndex k } := by
  change execWatchHit k s = _
  rw [execWatchHit, ctlStep_takes _ ht, if_pos hw]

theorem exec_watchAccept {s : State} {k d : Nat} (ht : s.takes (.watchAccept k) = true) (hw : (s.ctl.ring k).watch = .arming d) :
    exec (.watchAccept k) s = .next { s with ctl :=
      ((s.ctl.modRing k fun r => { r with watch := .armed }).raise (rRING_STATUS k) 15).funcSettle } := by
  change execWatchAccept k s = _
  rw [execWatchAccept, ctlStep_takes _ ht, Ctl.arming_eq hw]
  rfl

/-- REFUSE, LOST and no answer in time all let the watch fall. -/
theorem exec_watchFalls {s : State} {k d : Nat} {i : Instr} (ht : s.takes i = true)
    (hi : (i = .watchRefuse k ∧ (s.ctl.ring k).watch = .arming d) ∨ (i = .watchLost k ∧ (s.ctl.ring k).watch = .armed) ∨
      (i = .watchTimeout k ∧ (s.ctl.ring k).watch = .arming d ∧ d ≤ s.ctl.refTicks)) :
    exec i s = .next { s with ctl := s.ctl.watchFalls k } := by
  obtain ⟨rfl, hw⟩ | ⟨rfl, hw⟩ | ⟨rfl, hw, hdue⟩ := hi
  · change execWatchRefuse k s = _
    rw [execWatchRefuse, ctlStep_takes _ ht, Ctl.arming_eq hw]
    rfl
  · change execWatchLost k s = _
    rw [execWatchLost, ctlStep_takes _ ht, if_pos hw]
  · change execWatchTimeout k s = _
    rw [execWatchTimeout, ctlStep_takes _ ht, Ctl.arming_eq hw]
    simp [Ctl.due, hdue]

/-- A taken command of a ring names one of the 64 rings. -/
theorem State.ring_lt_of_takes {s : State} {i : Instr} {k : Nat} (ht : s.takes i = true)
    (hwf : i.wf s.ctl.part = decide (k < 64)) : k < 64 := by
  rw [State.takes, Bool.and_eq_true, hwf] at ht
  exact of_decide_eq_true ht.2

/-- The index of ring `k` is being read, and the read that `c` would request waits. -/
def Ctl.Looks (c : Ctl) (k : Nat) (c' : Ctl) : Prop := (c'.ring k).reading = true ∧ c'.Awaits (c.indexRead k)

theorem poll_looks {s : State} {k : Nat} (ht : s.takes (.poll k) = true) (hread : s.ctl.MayRead k)
    (hdue : (s.ctl.ring k).pollDue = true) (hmay : s.ctl.paceInTurn.mayPoll = true) :
    ∃ t, exec (.poll k) s = .next t ∧ s.ctl.Looks k t.ctl ∧ (t.ctl.ring k).pollDue = false := by
  obtain ⟨hread', hburst, hring⟩ := s.ctl.paces_paceInTurn.mayRead (State.ring_lt_of_takes ht rfl) hread
  obtain ⟨-, hawaits, hafter⟩ := (hread'.modRing (f := fun r => { r with pollDue := false }) fun _ => rfl).readIndex
  rw [Ctl.modRing_ring, if_pos rfl] at hafter
  exact ⟨_, exec_poll ht (hring ▸ hdue) hmay, ⟨by rw [hafter], hburst ▸ hawaits⟩, by rw [hafter]⟩

theorem backstopRead_looks {s : State} {k : Nat} (ht : s.takes (.backstopRead k) = true) (hread : s.ctl.MayRead k)
    (hdue : (s.ctl.ring k).backDue = true) (hmay : s.ctl.paceInTurn.mayPoll = true) :
    ∃ t, exec (.backstopRead k) s = .next t ∧ s.ctl.Looks k t.ctl ∧ (t.ctl.ring k).backDue = false := by
  obtain ⟨hread', hburst, hring⟩ := s.ctl.paces_paceInTurn.mayRead (State.ring_lt_of_takes ht rfl) hread
  obtain ⟨hneeds, hawaits, hafter⟩ :=
    (hread'.modRing (f := fun r => { r with backDue := false }) fun _ => rfl).readIndex
  obtain ⟨hawaits', harmed⟩ := Ctl.armWatch_awaits hneeds hawaits
  rw [hafter, Ctl.modRing_ring, if_pos rfl] at harmed
  exact ⟨_, exec_backstopRead ht (hring ▸ hdue) hmay, ⟨by rw [harmed], hburst ▸ hawaits'⟩, by rw [harmed]⟩

theorem watchHit_looks {s : State} {k : Nat} (ht : s.takes (.watchHit k) = true) (hread : s.ctl.MayRead k)
    (hw : (s.ctl.ring k).watch = .armed) : ∃ t, exec (.watchHit k) s = .next t ∧ s.ctl.Looks k t.ctl := by
  obtain ⟨-, hawaits, hafter⟩ := hread.readIndex
  exact ⟨_, exec_watchHit ht hw, by rw [hafter], hawaits⟩

/-- Settles O26: what looks for work requests the index read, which waits; a watch is armed or falls. -/
theorem lookingForWork : Obligations.LookingForWork := by
  refine ⟨fun s k i ht hrun hnode hidle hcalm hi => ?_, fun s k d ht hw => ?_, fun s k d i ht hi => ?_⟩
  · have hread : s.ctl.MayRead k := ⟨hrun, hnode, hidle, hcalm⟩
    obtain ⟨rfl, hdue, hmay⟩ | ⟨rfl, hdue, hmay⟩ | ⟨rfl, hw⟩ := hi
    · obtain ⟨t, hexec, ⟨hreading, b, hb, hp, hstate, hva, -⟩, hafter⟩ := poll_looks ht hread hdue hmay
      exact ⟨t, hexec, hreading, ⟨b, hb, hp, hstate, hva⟩, fun _ => hafter, nofun⟩
    · obtain ⟨t, hexec, ⟨hreading, b, hb, hp, hstate, hva, -⟩, hafter⟩ := backstopRead_looks ht hread hdue hmay
      exact ⟨t, hexec, hreading, ⟨b, hb, hp, hstate, hva⟩, nofun, fun _ => hafter⟩
    · obtain ⟨t, hexec, hreading, b, hb, hp, hstate, hva, -⟩ := watchHit_looks ht hread hw
      exact ⟨t, hexec, hreading, ⟨b, hb, hp, hstate, hva⟩, nofun, nofun⟩
  · exact ⟨_, exec_watchAccept ht hw, s.ctl.watchArmed_spec k⟩
  · exact ⟨_, exec_watchFalls ht hi, s.ctl.watchFalls_spec k⟩

end Sys2Proof.Machine

/-!
SUPPORT. What completing descriptors does to the rings and to the list of descriptors: no ring changes, and no descriptor goes back
before step 5.
-/
namespace Sys2Proof.Machine

/-! ### Descriptors that are handled -/

/-- `e'` is `e` later on: the same descriptor, with the sources it had, admitted if it was, and not back before step 5. -/
structure Desc.Handled (e e' : Desc) : Prop where
  key : e'.key = e.key
  srcs : e'.srcs = e.srcs
  admitted : e.admitted = true → e'.admitted = true
  begun : e.stage ∉ [Stage.hold, .check] → e'.stage ∉ [Stage.hold, .check]

theorem Desc.Handled.refl (e : Desc) : e.Handled e := ⟨rfl, rfl, id, id⟩

theorem Desc.Handled.trans {e e' e'' : Desc} (h : e.Handled e') (h' : e'.Handled e'') : e.Handled e'' :=
  ⟨h'.key.trans h.key, h'.srcs.trans h.srcs, h'.admitted ∘ h.admitted, h'.begun ∘ h.begun⟩

/-- A descriptor whose stage alone matters moves on to a stage from step 5 on. -/
theorem Desc.Handled.of_stage {e e' : Desc} (hk : e'.key = e.key) (hs : e'.srcs = e.srcs) (ha : e'.admitted = e.admitted)
    (hst : e'.stage = e.stage ∨ e'.stage ∉ [Stage.hold, .check]) : e.Handled e' :=
  ⟨hk, hs, fun h => ha.trans h, fun h => hst.elim (fun heq => heq ▸ h) id⟩

/-- Each descriptor of `c'` is the one of `c` at its place, later on. -/
def Ctl.Tends (c c' : Ctl) : Prop := ∃ g : Desc → Desc, c'.descs = c.descs.map g ∧ ∀ e : Desc, e.Handled (g e)

theorem Ctl.Tends.of_descs {c c' : Ctl} (h : c'.descs = c.descs) : c.Tends c' := ⟨id, by rw [h, List.map_id], .refl⟩

theorem Ctl.Tends.refl (c : Ctl) : c.Tends c := .of_descs rfl

theorem Ctl.Tends.trans {c c' c'' : Ctl} (h : c.Tends c') (h' : c'.Tends c'') : c.Tends c'' := by
  obtain ⟨g, hg, hgood⟩ := h
  obtain ⟨g', hg', hgood'⟩ := h'
  exact ⟨g' ∘ g, by rw [hg', hg, List.map_map], fun e => (hgood e).trans (hgood' (g e))⟩

theorem Ctl.Beside.tends {c c' : Ctl} (h : c.Beside c') : c.Tends c' := .of_descs h.descs

theorem Ctl.tends_modDesc (c : Ctl) (k : Key) {f : Desc → Desc} (hf : ∀ e : Desc, e.Handled (f e)) : c.Tends (c.modDesc k f) := by
  refine ⟨fun e => if e.key = k then f e else e, rfl, fun e => ?_⟩
  dsimp only
  split
  · exact hf e
  · exact .refl e

theorem Ctl.Tends.each {α : Type} (c : Ctl) (l : List α) {f : Ctl → α → Ctl} (hf : ∀ (c : Ctl) (a : α), c.Tends (f c a)) :
    c.Tends (c.each l f) :=
  Ctl.each_induction (P := c.Tends) (fun e a h => h.trans (hf e a)) l (.refl c)

theorem find?_map_of_key {l : List Desc} {g : Desc → Desc} (hg : ∀ e, (g e).key = e.key) (k : Key) :
    (l.map g).find? (·.key = k) = (l.find? (·.key = k)).map g := by
  rw [List.find?_map]
  congr 2
  funext e
  simp [hg]

/-- What stands under a key is what stood there, later on. -/
theorem Ctl.Tends.desc? {c c' : Ctl} (h : c.Tends c') {k : Key} {e : Desc} (he : c.desc? k = some e) :
    ∃ e', c'.desc? k = some e' ∧ e.Handled e' := by
  obtain ⟨g, hg, hgood⟩ := h
  refine ⟨g e, ?_, hgood e⟩
  rw [Ctl.desc?, hg, find?_map_of_key fun e => (hgood e).key]
  rw [Ctl.desc?] at he
  rw [he]
  rfl

/-! ### Completions -/

/-- `c'` is `c` after completions: apart from their registers, with the rings as they were and the descriptors later on. -/
structure Ctl.Ends (c c' : Ctl) : Prop extends c.Apart c' where
  rings : c'.rings = c.rings
  tends : c.Tends c'

theorem Ctl.Ends.refl (c : Ctl) : c.Ends c := ⟨.refl c, rfl, .refl c⟩

theorem Ctl.Ends.trans {c c' c'' : Ctl} (h : c.Ends c') (h' : c'.Ends c'') : c.Ends c'' :=
  ⟨h.toApart.trans h'.toApart, h'.rings.trans h.rings, h.tends.trans h'.tends⟩

theorem Ctl.Beside.ends {c c' : Ctl} (h : c.Beside c') (hr : c'.rings = c.rings) : c.Ends c' := ⟨h.toApart, hr, h.tends⟩

theorem Ctl.ends_modDesc (c : Ctl) (k : Key) {f : Desc → Desc} (hf : ∀ e : Desc, e.Handled (f e)) : c.Ends (c.modDesc k f) :=
  ⟨.of_regs rfl rfl rfl rfl, rfl, c.tends_modDesc k hf⟩

theorem Ctl.Ends.each {α : Type} (c : Ctl) (l : List α) {f : Ctl → α → Ctl} (hf : ∀ (c : Ctl) (a : α), c.Ends (f c a)) :
    c.Ends (c.each l f) :=
  Ctl.each_induction (P := c.Ends) (fun e a h => h.trans (hf e a)) l (.refl c)

theorem Ctl.Ends.ite {p : Prop} [Decidable p] {c c' : Ctl} (h : c.Ends c') : c.Ends (if p then c' else c) := by
  split
  · exact h
  · exact .refl c

/-! ### The operations of a completion leave the rings -/

theorem Ctl.each_rings {α : Type} {f : Ctl → α → Ctl} (hf : ∀ c a, (f c a).rings = c.rings) (c : Ctl) (l : List α) :
    (c.each l f).rings = c.rings :=
  Ctl.each_induction (P := fun e => e.rings = c.rings) (fun e a h => (hf e a).trans h) l rfl

theorem Ctl.ends_modSlot (c : Ctl) (k : Nat) (f : Slot → Slot) : c.Ends (c.modSlot k f) := (c.modSlot_beside k f).ends rfl

theorem Ctl.ends_setSlots (c : Ctl) (ks : List Nat) (st : SlotState) (o : Owner) : c.Ends (c.setSlots ks st o) :=
  .each c ks fun c k => c.ends_modSlot k _

theorem Ctl.ends_clearSlots (c : Ctl) (ks : List Nat) : c.Ends (c.clearSlots ks) := by
  have hdrop : ∀ (c : Ctl) (k : Nat), (c.dropLatches k).rings = c.rings := by
    intro c k
    refine Ctl.each_rings (fun c n => ?_) c _
    split <;> rfl
  refine (c.clearSlots_beside ks).ends (Ctl.each_rings (fun c k => ?_) c ks)
  rw [Ctl.addJobs_rings, (Ctl.ends_setSlots _ _ _ _).rings, hdrop]

theorem Ctl.ends_reapRetired (c : Ctl) : c.Ends c.reapRetired := c.ends_clearSlots _

@[simp] theorem Ctl.invalDone_rings (c : Ctl) : c.invalDone.rings = c.rings := by
  unfold Ctl.invalDone
  split <;> rfl

theorem Ctl.ends_dropBursts (c : Ctl) (f : Burst → Bool) : c.Ends (c.dropBursts f) :=
  (c.dropBursts_beside f).ends (Ctl.invalDone_rings _)

theorem Ctl.portEvt_rings (c : Ctl) (n : Nat) : (c.portEvt n).rings = c.rings := by
  unfold Ctl.portEvt Ctl.putMask
  split <;> rfl

theorem Ctl.quiesceDone_rings (c : Ctl) (n : Nat) : (c.quiesceDone n).rings = c.rings := by
  unfold Ctl.quiesceDone
  dsimp only
  split
  · exact Ctl.portEvt_rings _ n
  · rfl

theorem Ctl.ends_withdraw (c : Ctl) (k : Key) : c.Ends (c.withdraw k) := by
  refine (c.withdraw_beside k).ends ((Ctl.each_rings (fun c n => ?_) _ _).trans (Ctl.invalDone_rings _))
  dsimp only
  split
  · exact Ctl.quiesceDone_rings _ n
  · rfl

theorem Ctl.ends_releaseMap (c : Ctl) (k : Key) : c.Ends (c.releaseMap k) := by
  refine (c.releaseMap_beside k).ends ?_
  unfold Ctl.releaseMap
  split
  · split <;> rfl
  · rfl

theorem Ctl.sendLink_rings (c : Ctl) (l kind ctl : Nat) (ws : List Word) : (c.sendLink l kind ctl ws).rings = c.rings := by
  have hcharge : ∀ (c : Ctl) (k n : Nat), (c.charge .background k n).rings = c.rings := fun _ _ _ => rfl
  unfold Ctl.sendLink Ctl.sendLinkFor
  split
  · rfl
  · dsimp only
    rw [Ctl.modLink_rings, Ctl.emit_rings]
    split
    · rfl
    · exact hcharge c _ _

theorem Ctl.ends_sendOutcome (c : Ctl) (k : Key) (status detail cursor : Nat) : c.Ends (c.sendOutcome k status detail cursor) := by
  refine (c.sendOutcome_beside k status detail cursor).ends ?_
  unfold Ctl.sendOutcome
  split
  · exact Ctl.sendLink_rings _ _ _ _ _
  · rfl

theorem Ctl.ends_sendSig (c : Ctl) (k : Key) (row : Option Nat) (s : BitVec 64) : c.Ends (c.sendSig k row s) :=
  (c.sendSig_beside k row s).ends (Ctl.sendLink_rings _ _ _ _ _)

theorem Ctl.ends_mismatch (c : Ctl) (g : Sig) (a b : BitVec 64) : c.Ends (c.mismatch g a b) := by
  have hhalt : ∀ (c : Ctl) (cause : Nat), (c.haltPair cause).rings = c.rings := by
    intro c cause
    unfold Ctl.haltPair
    split <;> rfl
  exact (c.mismatch_beside g a b).ends ((Ctl.sendLink_rings _ _ _ _ _).trans (hhalt _ 1))

theorem Ctl.raiseVreq_rings (c : Ctl) : c.raiseVreq.rings = c.rings := by
  unfold Ctl.raiseVreq
  split
  · rw [(c.paces_putVreq _).frame]
  · rfl

theorem Ctl.ends_barrier (c : Ctl) (d : Desc) : c.Ends (c.barrier d) := by
  refine (c.barrier_beside d).ends ?_
  unfold Ctl.barrier
  dsimp only
  split
  · rw [(Ctl.paces_startMargin _).frame]
    rfl
  · rfl

theorem Ctl.ends_wakeOnWork (c : Ctl) : c.Ends c.wakeOnWork := by
  refine c.wakeOnWork_beside.ends ?_
  unfold Ctl.wakeOnWork
  split
  · dsimp only
    rw [Ctl.raiseVreq_rings]
    split <;> rfl
  · rfl

/-! ### Fixing a status -/

theorem Ctl.ends_abandonFresh (c : Ctl) (k : Key) : c.Ends (c.abandonFresh k) := by
  have hfree : ∀ (c : Ctl) (ks : List Nat), c.Ends (c.each ks fun c n => c.modSlot n fun s => { s with owner := .none }) :=
    fun c ks => .each c ks fun c n => c.ends_modSlot n _
  unfold Ctl.abandonFresh
  dsimp only
  refine .trans (.trans ?_ (Ctl.ends_clearSlots _ _)) (Ctl.ends_modDesc _ _ fun e => .of_stage rfl rfl rfl (.inl rfl))
  split
  · exact hfree c _
  · exact (hfree c _).trans ((Ctl.setSlotTab_beside _ _).ends rfl)

theorem Ctl.ends_close (c : Ctl) (k : Key) : c.Ends (c.close k) := by
  unfold Ctl.close
  split
  · exact .refl c
  · split
    · exact .refl c
    · refine .trans (c.ends_modDesc k fun e => ?_) (Ctl.Beside.ends (.of_regs rfl rfl rfl rfl rfl) rfl)
      exact .of_stage rfl rfl rfl (.inl rfl)

theorem Ctl.ends_fixNow (c : Ctl) (k : Key) (st de : Nat) : c.Ends (c.fixNow k st de) := by
  have hrefuse : ∀ (c : Ctl), c.Ends ((c.setRf rXN_STATUS 16 8 de).count rREFUSALS 1) := fun c =>
    ((Ctl.Beside.setReg _ _ (by decide) (by decide)).trans (.setReg _ _ (by decide) (by decide))).ends rfl
  unfold Ctl.fixNow
  split
  · exact .refl c
  · split
    · exact .refl c
    · refine .trans (.trans (.trans ?_ (Ctl.ends_modDesc _ k fun e => ?_)) (Ctl.ends_close _ k)) (Ctl.ends_reapRetired _)
      · refine .trans (.trans (.trans ?_ (.ite (Ctl.ends_sendOutcome _ _ _ _ _))) (.ite (hrefuse _))) (.ite (Ctl.ends_barrier _ _))
        exact ((c.ends_withdraw k).trans (Ctl.ends_abandonFresh _ k)).trans (Ctl.ends_releaseMap _ k)
      · exact .of_stage rfl rfl rfl (.inr (by simp))

theorem Ctl.ends_propose (c : Ctl) (d : Desc) (st de : Nat) : c.Ends (c.propose d st de) := by
  have hput : c.Ends (((c.withdraw d.key).releaseMap d.key).modDesc d.key fun e => e.proposing st de) :=
    ((c.ends_withdraw d.key).trans (Ctl.ends_releaseMap _ _)).trans
      (Ctl.ends_modDesc _ _ fun e => .of_stage rfl rfl rfl (.inr (by simp [Desc.proposing])))
  unfold Ctl.propose
  dsimp only
  split
  · exact hput
  · exact hput.trans (Ctl.ends_sendSig _ _ _ _)

theorem Ctl.ends_agree (c : Ctl) (d : Desc) (st de : Nat) : c.Ends (c.agree d st de) := by
  have hsigs : ∀ gs, c.Ends { c with sigs := gs } := fun gs => (c.setSigs_beside gs).ends rfl
  have hcount : ∀ c : Ctl, c.Ends (c.count rPAIR_COMPARED 1) := fun c =>
    (Ctl.Beside.setReg c _ (by decide) (by decide)).ends rfl
  unfold Ctl.agree
  dsimp only
  split
  · split
    · exact ((hsigs _).trans (hcount _)).trans (Ctl.ends_fixNow _ _ _ _)
    · exact (hsigs _).trans (Ctl.ends_mismatch _ _ _ _)
  · exact .refl c

theorem Ctl.ends_fix (c : Ctl) (k : Key) (st de : Nat) : c.Ends (c.fix k st de) := by
  unfold Ctl.fix
  split
  · exact .refl c
  · split
    · exact c.ends_fixNow k st de
    · split
      · exact .refl c
      · exact (c.ends_propose _ st de).trans (Ctl.ends_agree _ _ st de)

theorem Ctl.ends_complete (c : Ctl) (k : Key) (st de : Nat) : c.Ends (c.complete k st de) := by
  unfold Ctl.complete
  split
  · exact c.ends_fix k st de
  · exact (c.ends_fix k st de).trans (Ctl.ends_fix _ _ st de)

theorem Ctl.ends_fences (c : Ctl) : c.Ends c.fences :=
  .each c _ fun c _ => .ite ((c.ends_fix _ _ _).trans (Ctl.ends_wakeOnWork _))

theorem Ctl.ends_finish (c : Ctl) (k : Key) (st de : Nat) : c.Ends (c.finish k st de) :=
  (c.ends_complete k st de).trans (Ctl.ends_fences _)

end Sys2Proof.Machine

/-!
SUPPORT. A ring that is disabled or aborted (R131 to R133): what draining leaves of it, and the settled statement about RING_DISABLE
and RING_ABORT.
-/
namespace Sys2Proof.Machine

/-! ### What a ring's draining leaves -/

/-- From `c` to `c'` rings and their registers stay, and every descriptor that is left is one of `c`, later on. -/
structure Ctl.Clears (c c' : Ctl) : Prop where
  regs : ∀ o, 0x10000 ≤ o → o < 0x14000 → c'.reg o = c.reg o
  rings : c'.rings = c.rings
  descs : ∀ d ∈ c'.descs, ∃ e ∈ c.descs, e.Handled d

theorem Ctl.Clears.refl (c : Ctl) : c.Clears c := ⟨fun _ _ _ => rfl, rfl, fun d hd => ⟨d, hd, .refl d⟩⟩

theorem Ctl.Clears.trans {c c' c'' : Ctl} (h : c.Clears c') (h' : c'.Clears c'') : c.Clears c'' := by
  refine ⟨fun o hlo hhi => (h'.regs o hlo hhi).trans (h.regs o hlo hhi), h'.rings.trans h.rings, fun d hd => ?_⟩
  obtain ⟨e, he, hed⟩ := h'.descs d hd
  obtain ⟨a, ha, hae⟩ := h.descs e he
  exact ⟨a, ha, hae.trans hed⟩

theorem ringReg_notMem_doneRegs {o : Nat} (hlo : 0x10000 ≤ o) (hhi : o < 0x14000) : o ∉ doneRegs := fun hmem => by
  have hapart : ∀ o ∈ doneRegs, o < 0x10000 ∨ 0x14000 ≤ o := by decide
  have := hapart _ hmem
  omega

theorem Ctl.Ends.clears {c c' : Ctl} (h : c.Ends c') : c.Clears c' := by
  refine ⟨fun o hlo hhi => h.regs o (ringReg_notMem_doneRegs hlo hhi), h.rings, fun d hd => ?_⟩
  obtain ⟨g, hg, hgood⟩ := h.tends
  obtain ⟨e, he, rfl⟩ := List.mem_map.mp (hg ▸ hd)
  exact ⟨e, he, hgood e⟩

/-- A register of the block beside those of the rings. -/
theorem Ctl.clears_setReg (c : Ctl) {off : Nat} (v : Word) (h : off < 0x10000 ∨ 0x14000 ≤ off) : c.Clears (c.setReg off v) :=
  ⟨fun o hlo hhi => Ctl.reg_setReg_ne c v (by omega), rfl, fun d hd => ⟨d, hd, .refl d⟩⟩

/-- Some descriptors are taken out. -/
theorem Ctl.clears_filter (c : Ctl) (p : Desc → Bool) : c.Clears { c with descs := c.descs.filter p } :=
  ⟨fun _ _ _ => rfl, rfl, fun d hd => ⟨d, List.mem_of_mem_filter hd, .refl d⟩⟩

theorem Ctl.clears_modMsq (c : Ctl) (f : Msq → Msq) : c.Clears (c.modMsq f) :=
  ⟨fun _ _ _ => rfl, rfl, fun d hd => ⟨d, hd, .refl d⟩⟩

theorem Ctl.Clears.ite {p : Prop} [Decidable p] {c c' : Ctl} (h : c.Clears c') : c.Clears (if p then c' else c) := by
  split
  · exact h
  · exact .refl c

/-- The registers of ring `k` are among those kept. -/
theorem Ctl.Clears.ringReg {c c' : Ctl} {k base : Nat} (h : c.Clears c') (hk : k < 64) (hlo : 0x10000 ≤ base)
    (hhi : base < 0x10100) : c'.reg (base + 0x100 * k) = c.reg (base + 0x100 * k) :=
  h.regs _ (by omega) (by omega)

theorem Ctl.Clears.ringState {c c' : Ctl} {k : Nat} (h : c.Clears c') (hk : k < 64) : c'.ringState k = c.ringState k := by
  rw [Ctl.ringState, Ctl.rf, h.ringReg hk (by decide) (by decide), Ctl.ringState, Ctl.rf]

theorem Ctl.Clears.ring {c c' : Ctl} (h : c.Clears c') (k : Nat) : c'.ring k = c.ring k := by
  rw [Ctl.ring, h.rings, Ctl.ring]

/-- Ring `k` has left RUNNING, holds no descriptor from before step 5, and has `r` in its own state. -/
structure Ctl.Drains (c : Ctl) (k : Nat) (r : Ring) : Prop where
  state : c.ringState k ∈ [0, 2]
  off : bit (c.reg (rRING_CTL k)) 0 = false
  ring : c.ring k = r
  begun : ∀ d ∈ c.descs, d.key.ring = k → d.stage ∉ [Stage.hold, .check]

theorem Ctl.Drains.clears {c c' : Ctl} {k : Nat} {r : Ring} (h : c.Drains k r) (hk : k < 64) (hc : c.Clears c') :
    c'.Drains k r := by
  refine ⟨by rw [hc.ringState hk]; exact h.state, ?_, by rw [hc.ring]; exact h.ring, fun d hd hring => ?_⟩
  · rw [hc.ringReg hk (by decide) (by decide)]
    exact h.off
  · obtain ⟨e, he, hed⟩ := hc.descs d hd
    exact hed.begun (h.begun e he (hed.key ▸ hring))

/-- ENABLE is cleared once more. -/
theorem Ctl.Drains.lower {c : Ctl} {k : Nat} {r : Ring} (h : c.Drains k r) : (c.lower (rRING_CTL k) 0).Drains k r := by
  have hne : rRING_CTL k ≠ rRING_STATUS k := by simp
  refine ⟨?_, ?_, h.ring, h.begun⟩
  · rw [Ctl.ringState, Ctl.rf, Ctl.reg_lower, if_neg hne]
    exact h.state
  · rw [Ctl.reg_lower, if_pos rfl, bit_lowered _ (by decide)]
    simp

/-- Settling makes a DRAINING ring that holds nothing DISABLED (Table 4.3). -/
theorem Ctl.settleRing_spec {c : Ctl} {k : Nat} {r : Ring} (h : c.Drains k r) :
    (c.settleRing k).Drains k r ∧ ((c.settleRing k).ringState k = 2 → (c.settleRing k).heldCount k ≠ 0) := by
  have hstatus : ∀ v, (((c.putRingState k 0).setReg64 (rRING_HEAD_LO k) (rRING_HEAD_HI k) v).funcSettle).reg (rRING_STATUS k) =
      setFld (c.reg (rRING_STATUS k)) 0 2 0 := by
    intro v
    have hlo : rRING_HEAD_LO k ≠ rRING_STATUS k := by simp
    have hhi : rRING_HEAD_HI k ≠ rRING_STATUS k := by simp
    rw [Ctl.reg_funcSettle _ (by decide), Ctl.setReg64, Ctl.reg_setReg_ne _ _ hhi, Ctl.reg_setReg_ne _ _ hlo, Ctl.putRingState,
      Ctl.reg_setRf, if_pos rfl]
  have hctl : ∀ v, (((c.putRingState k 0).setReg64 (rRING_HEAD_LO k) (rRING_HEAD_HI k) v).funcSettle).reg (rRING_CTL k) =
      c.reg (rRING_CTL k) := by
    intro v
    have hlo : rRING_HEAD_LO k ≠ rRING_CTL k := by simp
    have hhi : rRING_HEAD_HI k ≠ rRING_CTL k := by simp
    have hst : rRING_STATUS k ≠ rRING_CTL k := by simp
    rw [Ctl.reg_funcSettle _ (by decide), Ctl.setReg64, Ctl.reg_setReg_ne _ _ hhi, Ctl.reg_setReg_ne _ _ hlo, Ctl.putRingState,
      Ctl.reg_setRf, if_neg hst]
  have hbegun : ∀ d ∈ (c.settleRing k).descs, d.key.ring = k → d.stage ∉ [Stage.hold, .check] := by
    rw [Ctl.settleRing_descs]
    exact h.begun
  have hring : (c.settleRing k).ring k = r := by rw [Ctl.settleRing_ring, h.ring]
  by_cases hempty : (c.ringState k = 2 && c.heldCount k = 0) = true
  · have hsettle : c.settleRing k =
        ((c.putRingState k 0).setReg64 (rRING_HEAD_LO k) (rRING_HEAD_HI k) (c.ring k).nextIdx).funcSettle := if_pos hempty
    have hzero : (c.settleRing k).ringState k = 0 := by
      rw [hsettle, Ctl.ringState, Ctl.rf, hstatus, fld_setFld_same _ _ (by decide), Nat.zero_mod]
    exact ⟨⟨by simp [hzero], by rw [hsettle, hctl]; exact h.off, hring, hbegun⟩, fun h2 => by simp [hzero] at h2⟩
  · have hsettle : c.settleRing k = c := if_neg hempty
    rw [hsettle]
    exact ⟨h, fun h2 hheld => hempty (by simp [h2, hheld])⟩

/-! ### Entering DRAINING -/

/-- Is a burst a fetch or an index read of ring `k`? -/
def Burst.looksFor (b : Burst) (k : Nat) : Bool := match b.purpose with
  | .fetch r _ => decide (r = k)
  | .index r => decide (r = k)
  | _ => false

/-- The descriptors that are left when ring `k` enters DRAINING. -/
def Ctl.begunDescs (c : Ctl) (k : Nat) : List Desc :=
  c.descs.filter fun d => !(d.key.ring = k && d.stage ∈ [Stage.hold, .check])

/-- Ring `k` on entering DRAINING, before its FENCEs are cancelled: what has not reached step 5 is gone, the watch disarmed (R131). -/
def Ctl.emptied (c : Ctl) (k : Nat) : Ctl :=
  let c := ((c.putRingState k 2).lower (rRING_CTL k) 0).disarm k
  let gone := (c.ringDescs k).filter fun d => d.stage ∈ [.hold, .check]
  let first := (gone.map (·.key.idx)).foldl min (c.ring k).nextIdx
  let c := c.dropBursts (·.looksFor k)
  let c : Ctl := { c with descs := c.begunDescs k }
  c.modRing k fun r => { r with nextIdx := first, fetching := false, reading := false, pollDue := false, backDue := false }

/-- The waiting FENCEs of a ring. -/
def Ctl.ringFences (c : Ctl) (k : Nat) : List Desc := (c.ringDescs k).filter fun d => d.kind = 11 && d.stage = .wait

/-- The FENCEs of a ring are cancelled (R131). -/
def Ctl.cancelFences (c : Ctl) (k : Nat) : Ctl := c.each (c.ringFences k) fun c d => c.fix d.key 0x40 8

theorem Ctl.drain_of_running {c : Ctl} {k : Nat} (h : c.running k = true) :
    c.drain k none = (((c.emptied k).cancelFences k).orphanStreams k).settleRing k := by
  rw [Ctl.drain, h]
  rfl

theorem Ctl.ends_cancelFences (c : Ctl) (k : Nat) : c.Ends (c.cancelFences k) := .each c _ fun c d => c.ends_fix d.key 0x40 8

theorem Ctl.orphanStreams_cases {P : Ctl → Prop} (hcomplete : ∀ c k, P c → P (c.complete k 0x40 5)) {c : Ctl} (k : Nat) (h : P c) :
    P (c.orphanStreams k) := by
  have hite : ∀ (e : Ctl) (x : Key) (fed : Bool), P e → P (if fed = true then e else e.complete x 0x40 5) := by
    intro e x fed he
    cases fed with
    | true => exact he
    | false => exact hcomplete e x he
  exact Ctl.each_induction (P := P) (fun e d he => hite e d.key _ he) _ h

theorem Ctl.ends_orphanStreams (c : Ctl) (k : Nat) : c.Ends (c.orphanStreams k) :=
  Ctl.orphanStreams_cases (P := c.Ends) (fun e x h => h.trans (e.ends_complete x _ _)) k (.refl c)

/-- The watch of a ring is off, and WATCH_ACTIVE clear. -/
def Ctl.watchOff (c : Ctl) (k : Nat) : Ctl :=
  ((c.modRing k fun r => { r with watch := .off }).lower (rRING_STATUS k) 15).funcSettle

/-- Before that, a disarmed watch leaves the rings and descriptors alone (R272). -/
theorem Ctl.disarm_eq (c : Ctl) (k : Nat) : ∃ c', c.disarm k = c'.watchOff k ∧ c.Ends c' ∧ c'.descs = c.descs := by
  have hdrop : ∀ c', c.Beside c' → c'.rings = c.rings →
      ∃ e, (c'.dropBursts fun b => decide (b.purpose = .watch k)).watchOff k = e.watchOff k ∧ c.Ends e ∧ e.descs = c.descs :=
    fun c' hb hr => ⟨_, rfl, (hb.ends hr).trans (c'.ends_dropBursts _), (hb.trans (c'.dropBursts_beside _)).descs⟩
  unfold Ctl.disarm
  dsimp only
  split
  · exact hdrop _ (c.emit_beside _) rfl
  · exact hdrop _ (c.emit_beside _) rfl
  · exact hdrop _ (.refl c) rfl

@[simp] theorem Ctl.watchOff_descs (c : Ctl) (k : Nat) : (c.watchOff k).descs = c.descs := Ctl.funcSettle_descs _

theorem Ctl.watchOff_ring (c : Ctl) (k : Nat) : (c.watchOff k).ring k = { c.ring k with watch := .off } := by
  rw [Ctl.watchOff, Ctl.funcSettle_ring]
  change (c.modRing k fun r => { r with watch := .off }).ring k = _
  rw [Ctl.modRing_ring, if_pos rfl]

/-- Ring `k` is DRAINING, and ENABLE reads 0. -/
def Ctl.Draining (c : Ctl) (k : Nat) : Prop := c.ringState k = 2 ∧ bit (c.reg (rRING_CTL k)) 0 = false

theorem Ctl.draining_put (c : Ctl) (k : Nat) : ((c.putRingState k 2).lower (rRING_CTL k) 0).Draining k := by
  have hne : rRING_CTL k ≠ rRING_STATUS k := by simp
  constructor
  · rw [Ctl.ringState, Ctl.rf, Ctl.reg_lower, if_neg hne, Ctl.putRingState, Ctl.reg_setRf, if_pos rfl,
      fld_setFld_same _ _ (by decide)]
    rfl
  · rw [Ctl.reg_lower, if_pos rfl, bit_lowered _ (by decide)]
    simp

theorem Ctl.Draining.clears {c c' : Ctl} {k : Nat} (h : c.Draining k) (hk : k < 64) (hc : c.Clears c') : c'.Draining k := by
  rw [Ctl.Draining, hc.ringState hk, hc.ringReg hk (by decide) (by decide)]
  exact h

theorem Ctl.Draining.watchOff {c : Ctl} {k : Nat} (h : c.Draining k) : (c.watchOff k).Draining k := by
  have hne : rRING_STATUS k ≠ rRING_CTL k := by simp
  obtain ⟨hstate, hctl⟩ := h
  constructor
  · rw [← hstate, Ctl.watchOff, Ctl.ringState, Ctl.rf, Ctl.reg_funcSettle _ (by decide), Ctl.reg_lower, if_pos rfl]
    refine fld_congr fun j hj => ?_
    have h15 : 0 + j ≠ 15 := by omega
    rw [bit_lowered _ (by decide), decide_eq_false h15, Bool.not_false, Bool.and_true]
    rfl
  · rw [Ctl.watchOff, Ctl.reg_funcSettle _ (by decide), Ctl.reg_lower, if_neg hne]
    exact hctl

theorem find?_filter_of_pos {l : List Desc} {p q : Desc → Bool} {d : Desc} (h : l.find? q = some d) (hp : p d = true) :
    (l.filter p).find? q = some d := by
  induction l with
  | nil => simp at h
  | cons a l ih =>
    rw [List.find?_cons] at h
    cases hq : q a with
    | true =>
      obtain rfl : a = d := by simpa [hq] using h
      rw [List.filter_cons_of_pos hp, List.find?_cons, hq]
    | false =>
      rw [hq] at h
      cases hpa : p a with
      | true => rw [List.filter_cons_of_pos hpa, List.find?_cons, hq, ih h]
      | false => rw [List.filter_cons_of_neg (by simp [hpa]), ih h]

/-- The ring drains, its watch off, and the descriptors from step 5 on are left (R131). -/
theorem Ctl.emptied_spec (c : Ctl) {k : Nat} (hk : k < 64) :
    (c.emptied k).Draining k ∧ (c.emptied k).descs = c.begunDescs k ∧ ((c.emptied k).ring k).watch = .off ∧
      ((c.emptied k).ring k).starting = (c.ring k).starting := by
  obtain ⟨c', hdisarm, hends, hdescs⟩ := ((c.putRingState k 2).lower (rRING_CTL k) 0).disarm_eq k
  have hdrain : (c'.watchOff k).Draining k := ((c.draining_put k).clears hk hends.clears).watchOff
  have hclears := ((c'.watchOff k).ends_dropBursts (·.looksFor k)).clears
  have hring : ((c'.watchOff k).dropBursts (·.looksFor k)).ring k = { c.ring k with watch := .off } := by
    rw [hclears.ring, Ctl.watchOff_ring, hends.clears.ring]
    rfl
  have hlist : ((c'.watchOff k).dropBursts (·.looksFor k)).descs = c.descs := by
    rw [(Ctl.dropBursts_beside _ _).descs, Ctl.watchOff_descs, hdescs]
    rfl
  rw [Ctl.emptied, hdisarm]
  have hdrain' := hdrain.clears hk hclears
  have hwatch : (((c'.watchOff k).dropBursts (·.looksFor k)).ring k).watch = .off := by rw [hring]
  have hstart : (((c'.watchOff k).dropBursts (·.looksFor k)).ring k).starting = (c.ring k).starting := by rw [hring]
  refine ⟨hdrain', congrArg (List.filter _) hlist, ?_, ?_⟩
  · rw [Ctl.modRing_ring, if_pos rfl]
    exact hwatch
  · rw [Ctl.modRing_ring, if_pos rfl]
    exact hstart

theorem Ctl.emptied_drains (c : Ctl) {k : Nat} (hk : k < 64) : (c.emptied k).Drains k ((c.emptied k).ring k) := by
  obtain ⟨⟨hstate, hoff⟩, hdescs, -⟩ := c.emptied_spec hk
  refine ⟨by simp [hstate], hoff, rfl, fun d hd hring => ?_⟩
  rw [hdescs] at hd
  simpa [hring] using (List.mem_filter.mp hd).2

theorem Ctl.desc?_emptied {c : Ctl} {k : Nat} (hk : k < 64) {x : Key} {d : Desc} (hdesc : c.desc? x = some d)
    (hbegun : d.stage ∉ [Stage.hold, .check]) : (c.emptied k).desc? x = some d := by
  obtain ⟨-, hdescs, -⟩ := c.emptied_spec hk
  rw [Ctl.desc?, hdescs]
  refine find?_filter_of_pos hdesc ?_
  simp only [List.mem_cons, List.not_mem_nil, or_false, not_or] at hbegun
  simp [hbegun]

/-! ### RING_DISABLE (R131) -/

/-- One item of a list does its part whatever the items before it do, and those behind it leave it done. -/
theorem Ctl.each_reaches {α : Type} {P Q : Ctl → Prop} {f : Ctl → α → Ctl} {a : α} (hdo : ∀ c, P c → Q (f c a))
    (hbefore : ∀ c b, P c → P (f c b) ∨ Q (f c b)) (hbehind : ∀ c b, Q c → Q (f c b)) :
    ∀ {l : List α}, a ∈ l → ∀ {c : Ctl}, P c → Q (c.each l f)
  | b :: l, ha, c, h => by
    have hdone : Q (f c b) → Q ((f c b).each l f) := Ctl.each_induction hbehind l
    rw [Ctl.each, List.foldl_cons]
    rcases List.mem_cons.mp ha with rfl | hrest
    · exact hdone (hdo c h)
    · exact (hbefore c b h).elim (Ctl.each_reaches hdo hbefore hbehind hrest) hdone

/-- A waiting FENCE of the ring is cancelled. -/
theorem Ctl.cancelFences_settled {c : Ctl} {d : Desc} (hdesc : c.desc? d.key = some d) (hsub : d.key.sub = 0)
    (hkind : d.kind = 11) (hwait : d.stage = .wait) : (c.cancelFences d.key.ring).Settled d.key 0x40 8 := by
  have hfix : ∀ c' : Ctl, c'.desc? d.key = some d → (c'.fix d.key 0x40 8).Settled d.key 0x40 8 := fun c' h =>
    Ctl.fix_settled h (by simp [Desc.completed, hwait]) (by simp [hwait]) _ _
  have hmem : d ∈ c.ringFences d.key.ring := by
    simp [Ctl.ringFences, Ctl.ringDescs, hsub, hkind, hwait, List.mem_of_find?_eq_some hdesc]
  refine Ctl.each_reaches (α := Desc) (P := fun c' => c'.desc? d.key = some d) (Q := fun c' => c'.Settled d.key 0x40 8) hfix (fun c' b h => ?_)
    (fun c' b h => h.fix b.key 8 (.inl rfl)) hmem hdesc
  by_cases hb : b.key = d.key
  · exact .inr (hb ▸ hfix c' h)
  · exact .inl ((c'.desc?_fix_ne hb _ _).trans h)

theorem Ctl.Settled.complete {c : Ctl} {k : Key} {st de : Nat} (h : c.Settled k st de) (j : Key) (de' : Nat) :
    (c.complete j st de').Settled k st de := by
  unfold Ctl.complete
  split
  · exact h.fix j de' (.inl rfl)
  · exact (h.fix j de' (.inl rfl)).fix _ de' (.inl rfl)

/-- A cancelled FENCE stays so while the ring drains. -/
theorem Ctl.drain_endsWith {c : Ctl} {d : Desc} (hrun : c.running d.key.ring = true) (hk : d.key.ring < 64)
    (hdesc : c.desc? d.key = some d) (hsub : d.key.sub = 0) (hkind : d.kind = 11) (hwait : d.stage = .wait) :
    (c.drain d.key.ring none).endsWith d.key 0x40 8 := by
  have hset := Ctl.cancelFences_settled (Ctl.desc?_emptied hk hdesc (by simp [hwait])) hsub hkind hwait
  have hend := (Ctl.orphanStreams_cases (P := fun c => c.Settled d.key 0x40 8) (fun e j h => h.complete j 5) d.key.ring
    hset).endsWith rfl
  rw [Ctl.drain_of_running hrun, Ctl.endsWith, Ctl.desc?, Ctl.settleRing_descs]
  exact hend

/-- A RUNNING ring that is drained holds nothing from before step 5, and is DISABLED where it holds nothing at all (R131). -/
theorem Ctl.drain_spec {c : Ctl} {k : Nat} (hk : k < 64) (hrun : c.running k = true) :
    (c.drain k none).Drains k ((c.emptied k).ring k) ∧
      ((c.drain k none).ringState k = 2 → (c.drain k none).heldCount k ≠ 0) := by
  have hends := ((c.emptied k).ends_cancelFences k).trans (Ctl.ends_orphanStreams _ k)
  rw [Ctl.drain_of_running hrun]
  exact Ctl.settleRing_spec ((c.emptied_drains hk).clears hk hends.clears)

theorem Ctl.enableWaits_of_running {c : Ctl} {k : Nat} (h : c.ringState k = 1) : c.enableWaits k = false := by
  simp [Ctl.enableWaits, h]

/-- No ring starts with a write of RING_CTL for a RUNNING ring where none waits. -/
theorem Ctl.startWaiting_of_running {c : Ctl} {k : Nat} (hk : k < 64) (hrun : c.ringState k = 1) (hwait : c.noneWaits k) :
    c.startWaiting = c := by
  rw [Ctl.startWaiting_of_noneWaits hk hwait, Ctl.enableWaits_of_running hrun]
  rfl

/-- DISABLE 0 of a RUNNING ring that no held record kept from running: it drains. -/
theorem Ctl.writeRingCtl_disable {c : Ctl} {k : Nat} (hk : k < 64) (hrun : c.ringState k = 1)
    (hstart : (c.ring k).starting = false) (hwait : c.noneWaits k) :
    c.writeRingCtl k 0 = (c.drain k none).lower (rRING_CTL k) 0 := by
  have hring : ((c.drain k none).ring k).starting = false := by
    obtain ⟨-, -, -, hkeep⟩ := c.emptied_spec hk
    rw [(Ctl.drain_spec hk (decide_eq_true hrun)).1.ring, hkeep, hstart]
  have hwrite : c.writeRingCtl k 0 = (c.startWaiting.drain k none).stopStart k := rfl
  rw [hwrite, Ctl.startWaiting_of_running hk hrun hwait, Ctl.stopStart, hring]
  rfl

/-! ### RING_ABORT (R132) -/

/-- Descriptor `x` has completed, or has not committed. -/
def Ctl.MayEnd (c : Ctl) (x : Key) : Prop := ∃ e, c.desc? x = some e ∧ (e.completed = true ∨ e.committed = false)

/-- Descriptor `x` has completed. -/
def Ctl.IsDone (c : Ctl) (x : Key) : Prop := ∃ e, c.desc? x = some e ∧ e.completed = true

/-- Whatever status is fixed, a completed descriptor stays as it is, and none becomes committed. -/
theorem Ctl.desc?_fix {c : Ctl} {x : Key} {e : Desc} (h : c.desc? x = some e) (j : Key) (st de : Nat) :
    ∃ e', (c.fix j st de).desc? x = some e' ∧ (e.completed = true → e' = e) ∧ e'.committed = e.committed := by
  rcases c.fix_cases j st de with hsame | ⟨a, a', ha, hopen, hleads, hended⟩
  · exact ⟨e, by rw [hsame, h], fun _ => rfl, rfl⟩
  · by_cases hj : j = x
    · subst hj
      obtain rfl : a = e := Option.some.inj (ha.symm.trans h)
      exact ⟨a', hleads.self, fun hdone => by simp [hopen] at hdone, hended.committed⟩
    · exact ⟨e, (hleads.others x hj).trans h, fun _ => rfl, rfl⟩

theorem Ctl.IsDone.fix {c : Ctl} {x : Key} (h : c.IsDone x) (j : Key) (st de : Nat) : (c.fix j st de).IsDone x := by
  obtain ⟨e, he, hdone⟩ := h
  obtain ⟨e', he', hkeep, -⟩ := Ctl.desc?_fix he j st de
  exact ⟨e', he', hkeep hdone ▸ hdone⟩

theorem Ctl.MayEnd.fix {c : Ctl} {x : Key} (h : c.MayEnd x) (j : Key) (st de : Nat) : (c.fix j st de).MayEnd x := by
  obtain ⟨e, he, hor⟩ := h
  obtain ⟨e', he', hkeep, hcomm⟩ := Ctl.desc?_fix he j st de
  exact ⟨e', he', hor.imp (fun hdone => hkeep hdone ▸ hdone) hcomm.trans⟩

theorem Ctl.IsDone.beside {c c' : Ctl} {x : Key} (h : c.IsDone x) (hb : c.Beside c') : c'.IsDone x := by
  rw [Ctl.IsDone, hb.desc?]
  exact h

theorem Ctl.MayEnd.beside {c c' : Ctl} {x : Key} (h : c.MayEnd x) (hb : c.Beside c') : c'.MayEnd x := by
  rw [Ctl.MayEnd, hb.desc?]
  exact h

/-- A status that a pair reconciles completes a descriptor at once (R318). -/
theorem Ctl.isDone_fix {c : Ctl} {x : Key} {e : Desc} (h : c.desc? x = some e) {st : Nat} (hrec : reconciled st = true)
    (de : Nat) : (c.fix x st de).IsDone x := by
  cases hopen : e.completed with
  | true => exact Ctl.IsDone.fix ⟨e, h, hopen⟩ x st de
  | false =>
    have hnow : c.fix x st de = c.fixNow x st de := by simp [Ctl.fix, h, hrec]
    obtain ⟨e', hleads, hdone⟩ := Ctl.fixNow_leads h hopen st de
    exact ⟨e', hnow ▸ hleads.self, by simp [Desc.completed, hdone.stage]⟩

/-- From `c` to `c'` rings and descriptors go on, and no descriptor of a ring commits. -/
structure Ctl.Stops (c c' : Ctl) : Prop extends c.Clears c' where
  mayEnd : ∀ x : Key, x.sub = 0 → c.MayEnd x → c'.MayEnd x

theorem Ctl.Stops.refl (c : Ctl) : c.Stops c := ⟨.refl c, fun _ _ h => h⟩

theorem Ctl.Stops.trans {c c' c'' : Ctl} (h : c.Stops c') (h' : c'.Stops c'') : c.Stops c'' :=
  ⟨h.toClears.trans h'.toClears, fun x hx hm => h'.mayEnd x hx (h.mayEnd x hx hm)⟩

theorem Ctl.Beside.stops {c c' : Ctl} (h : c.Beside c') (hr : c'.rings = c.rings) : c.Stops c' :=
  ⟨(h.ends hr).clears, fun _ _ hm => hm.beside h⟩

theorem Ctl.stops_setReg (c : Ctl) {off : Nat} (v : Word) (h : off < 0x10000 ∨ 0x14000 ≤ off) : c.Stops (c.setReg off v) :=
  ⟨c.clears_setReg v h, fun _ _ hm => hm⟩

theorem Ctl.stops_modMsq (c : Ctl) (f : Msq → Msq) : c.Stops (c.modMsq f) := ⟨c.clears_modMsq f, fun _ _ hm => hm⟩

/-- Images alone are taken out. -/
theorem Ctl.stops_filter (c : Ctl) {p : Desc → Bool} (hp : ∀ d, d.key.sub = 0 → p d = true) :
    c.Stops { c with descs := c.descs.filter p } := by
  refine ⟨c.clears_filter p, fun x hx ⟨e, he, hor⟩ => ⟨e, find?_filter_of_pos he (hp e ?_), hor⟩⟩
  rw [Ctl.desc?_key he]
  exact hx

/-- A change of a descriptor beside its stage and commit. -/
theorem Ctl.stops_modDesc (c : Ctl) (k : Key) {f : Desc → Desc} (hf : ∀ e : Desc, e.Handled (f e))
    (hst : ∀ e, (f e).stage = e.stage) (hcomm : ∀ e, (f e).committed = e.committed) : c.Stops (c.modDesc k f) := by
  refine ⟨(c.ends_modDesc k hf).clears, fun x _ ⟨e, he, hor⟩ => ?_⟩
  by_cases hx : k = x
  · subst hx
    refine ⟨f e, by rw [c.desc?_modDesc_self k f fun d => (hf d).key, he]; rfl, ?_⟩
    rw [Desc.completed, hst, hcomm]
    exact hor
  · exact ⟨e, by rw [c.desc?_modDesc_ne f (fun d => (hf d).key) hx, he], hor⟩

theorem Ctl.stops_fix (c : Ctl) (k : Key) (st de : Nat) : c.Stops (c.fix k st de) :=
  ⟨(c.ends_fix k st de).clears, fun _ _ hm => hm.fix k st de⟩

theorem Ctl.stops_complete (c : Ctl) (k : Key) (st de : Nat) : c.Stops (c.complete k st de) := by
  unfold Ctl.complete
  split
  · exact c.stops_fix k st de
  · exact (c.stops_fix k st de).trans (Ctl.stops_fix _ _ st de)

theorem Ctl.stops_fences (c : Ctl) : c.Stops c.fences := by
  refine Ctl.each_induction (P := c.Stops) (fun e d h => ?_) _ (.refl c)
  split
  · exact (h.trans (e.stops_fix _ _ _)).trans ((Ctl.wakeOnWork_beside _).stops (Ctl.ends_wakeOnWork _).rings)
  · exact h

theorem Ctl.Stops.each {α : Type} (c : Ctl) (l : List α) {f : Ctl → α → Ctl} (hf : ∀ (c : Ctl) (a : α), c.Stops (f c a)) :
    c.Stops (c.each l f) :=
  Ctl.each_induction (P := c.Stops) (fun e a h => h.trans (hf e a)) l (.refl c)

/-! ### The running service of the ring ends (R372) -/

theorem Ctl.stops_svcCollect (c : Ctl) : c.Stops c.svcCollect := by
  unfold Ctl.svcCollect
  split
  · exact .refl c
  · dsimp only
    split
    · exact .trans (c.stops_modMsq _) (Ctl.stops_filter _ fun d hd => by simp [hd])
    · split
      · split
        · split
          · exact c.stops_modMsq _
          · exact .refl c
        · exact .refl c
      · exact .refl c

theorem Ctl.stops_abandonFresh (c : Ctl) (k : Key) : c.Stops (c.abandonFresh k) := by
  have hfree : ∀ (c : Ctl) (ks : List Nat), c.Stops (c.each ks fun c n => c.modSlot n fun s => { s with owner := .none }) :=
    fun c ks => .each c ks fun c n => (c.modSlot_beside n _).stops rfl
  unfold Ctl.abandonFresh
  dsimp only
  refine .trans (.trans ?_ ((Ctl.clearSlots_beside _ _).stops (Ctl.ends_clearSlots _ _).rings))
    (Ctl.stops_modDesc _ k (fun e => .of_stage rfl rfl rfl (.inl rfl)) (fun _ => rfl) fun _ => rfl)
  split
  · exact hfree c _
  · exact (hfree c _).trans ((Ctl.setSlotTab_beside _ _).stops rfl)

theorem Ctl.stops_modMem (c : Ctl) (f : Mem → Mem) : c.Stops (c.modMem f) := (c.modMem_beside f).stops rfl

theorem Ctl.stops_endWork (c : Ctl) (key : Option Key) : c.Stops (c.endWork key) := by
  have himages : ∀ c : Ctl, c.Stops
      (c.each c.images fun c d => (c.withdraw d.key).abandonFresh d.key) := fun c => .each c _ fun c d =>
    ((c.withdraw_beside d.key).stops (c.ends_withdraw d.key).rings).trans (Ctl.stops_abandonFresh _ _)
  have hstrip : c.Stops { ((c.dropBursts (·.purpose.svc)).modMsq fun q => { q with svc := q.svc.map fun s =>
      { s with sum := s.sum + ((c.dropBursts (·.purpose.svc)).images.map (·.energy)).sum } }).each
        (c.dropBursts (·.purpose.svc)).images fun c d => (c.withdraw d.key).abandonFresh d.key with descs := _ } :=
    (((c.dropBursts_beside _).stops (c.ends_dropBursts _).rings).trans (Ctl.stops_modMsq _ _)).trans
      ((himages _).trans (Ctl.stops_filter _ (p := fun d => d.key.sub = 0) fun d hd => by simp [hd]))
  unfold Ctl.endWork
  dsimp only
  split
  · exact hstrip.trans (Ctl.stops_modMem _ _)
  · exact hstrip

theorem Ctl.stops_endRun (c : Ctl) (number : Nat) : c.Stops (c.endRun number) :=
  (c.stops_modMsq _).trans ((Ctl.reapRetired_beside _).stops (Ctl.ends_reapRetired _).rings)

theorem Ctl.stops_imageStatus (c : Ctl) (d : Desc) (sub : Nat) : c.Stops (c.imageStatus d sub) := by
  have hset : ∀ (c : Ctl) (v : Word), c.Stops (c.setReg rIMG_STATUS v) := fun c v => c.stops_setReg v (by decide)
  unfold Ctl.imageStatus
  dsimp only
  split
  · exact (((hset c _).trans (hset _ _)).trans (hset _ _)).trans (hset _ _)
  · exact ((hset c _).trans (hset _ _)).trans (hset _ _)

theorem Ctl.Stops.ite {p : Prop} [Decidable p] {c c' : Ctl} (h : c.Stops c') : c.Stops (if p then c' else c) := by
  split
  · exact h
  · exact .refl c

theorem Ctl.stops_finish (c : Ctl) (k : Key) (st de : Nat) : c.Stops (c.finish k st de) :=
  (c.stops_complete k st de).trans (Ctl.stops_fences _)

theorem Ctl.stops_svcEnd (c : Ctl) (status detail : Nat) : c.Stops (c.svcEnd status detail) := by
  have hcount : ∀ (c : Ctl) (key : Option Key) (n : Nat), c.Stops
      (if 0x10 ≤ status then (((c.svcCollect.endWork key).endRun n).count rSVC_DONE 1).count rSVC_FAIL 1
        else ((c.svcCollect.endWork key).endRun n).count rSVC_DONE 1) := fun c key n =>
    (((c.stops_svcCollect.trans (Ctl.stops_endWork _ key)).trans (Ctl.stops_endRun _ n)).trans
      (Ctl.stops_setReg _ _ (by decide))).trans (.ite (Ctl.stops_setReg _ _ (by decide)))
  unfold Ctl.svcEnd
  split
  · exact .refl c
  · dsimp only
    split
    · exact hcount c _ _
    · refine .trans (.trans ((hcount c _ _).trans (.ite (Ctl.stops_imageStatus _ _ _))) (Ctl.stops_modDesc _ _ ?_ ?_ ?_))
        (Ctl.stops_finish _ _ _ _)
      · exact fun e => .of_stage rfl rfl rfl (.inl rfl)
      · exact fun _ => rfl
      · exact fun _ => rfl

theorem Ctl.stops_svcStop (c : Ctl) (status detail : Nat) : c.Stops (c.svcStop status detail) := by
  unfold Ctl.svcStop
  dsimp only
  split <;> exact c.stops_svcCollect.trans (Ctl.stops_svcEnd _ _ _)

/-! ### Every descriptor that has not committed completes -/

/-- What of ring `k` has neither completed nor committed. -/
def Ctl.openDescs (c : Ctl) (k : Nat) : List Desc := (c.ringDescs k).filter fun d => !d.completed && !d.committed

/-- The running service of ring `k` ends with it. -/
def Ctl.stopSvc (c : Ctl) (k : Nat) : Ctl := if c.svcOf k then c.svcStop 0x40 5 else c

/-- What has not committed completes with RING_ABORT. -/
def Ctl.abortOpen (c : Ctl) (k : Nat) : Ctl := c.each (c.openDescs k) fun c d => c.fix d.key 0x40 5

theorem Ctl.abortRing_of_running {c : Ctl} {k : Nat} (h : c.ringState k = 1) :
    c.abortRing k = (((((c.drain k none).lower (rRING_CTL k) 0).stopSvc k).abortOpen k).fences).settleRing k := by
  rw [Ctl.abortRing, h]
  rfl

theorem Ctl.abortOpen_isDone {c : Ctl} {x : Key} (hsub : x.sub = 0) (h : c.MayEnd x) : (c.abortOpen x.ring).IsDone x := by
  obtain ⟨d, hdesc, hor⟩ := h
  obtain rfl := Ctl.desc?_key hdesc
  cases hdone : d.completed with
  | true => exact Ctl.each_induction (P := fun c => c.IsDone d.key) (fun c e he => he.fix _ _ _) _ ⟨d, hdesc, hdone⟩
  | false =>
    have hcomm : d.committed = false := by simpa [hdone] using hor
    have hmem : d ∈ c.openDescs d.key.ring := by
      simp [Ctl.openDescs, Ctl.ringDescs, hsub, hdone, hcomm, List.mem_of_find?_eq_some hdesc]
    refine Ctl.each_reaches (α := Desc) (P := fun c => ∃ e, c.desc? d.key = some e) (Q := fun c => c.IsDone d.key)
      (fun c ⟨e, he⟩ => Ctl.isDone_fix he rfl 5) (fun c b ⟨e, he⟩ => ?_) (fun c b hb => hb.fix _ _ _) hmem ⟨d, hdesc⟩
    obtain ⟨e', he', -⟩ := Ctl.desc?_fix he b.key 0x40 5
    exact .inl ⟨e', he'⟩

theorem Ctl.IsDone.fences {c : Ctl} {x : Key} (h : c.IsDone x) : c.fences.IsDone x := by
  refine Ctl.each_induction (P := fun c => c.IsDone x) (fun e d he => ?_) _ h
  split
  · exact (he.fix _ _ _).beside (Ctl.wakeOnWork_beside _)
  · exact he

/-- What had not committed before the ring drained has not committed after. -/
theorem Ctl.MayEnd.drain {c : Ctl} {k : Nat} (hk : k < 64) (hrun : c.running k = true) {x : Key} {d : Desc}
    (hdesc : c.desc? x = some d) (hcomm : d.committed = false) (hbegun : d.stage ∉ [Stage.hold, .check]) :
    (c.drain k none).MayEnd x := by
  have hempty : (c.emptied k).MayEnd x := ⟨d, Ctl.desc?_emptied hk hdesc hbegun, .inr hcomm⟩
  have hcancel : ((c.emptied k).cancelFences k).MayEnd x :=
    Ctl.each_induction (P := fun c => c.MayEnd x) (fun c e he => he.fix _ _ _) _ hempty
  have horphan := Ctl.orphanStreams_cases (P := fun c => c.MayEnd x) (fun c j hj => by
    unfold Ctl.complete
    split
    · exact hj.fix _ _ _
    · exact (hj.fix _ _ _).fix _ _ _) k hcancel
  rw [Ctl.drain_of_running hrun, Ctl.MayEnd, Ctl.desc?, Ctl.settleRing_descs]
  exact horphan

/-- An aborted ring drains, and what had not committed has completed (R132). -/
theorem Ctl.abortRing_spec {c : Ctl} {k : Nat} (hk : k < 64) (hrun : c.ringState k = 1) :
    (∃ r, (c.abortRing k).Drains k r) ∧ ∀ x d, c.desc? x = some d → x.ring = k → x.sub = 0 → d.committed = false →
      d.stage ∉ [Stage.hold, .check] → (c.abortRing k).IsDone x := by
  have hrunning : c.running k = true := decide_eq_true hrun
  have hstop : ∀ c : Ctl, c.Stops (c.stopSvc k) := fun c => .ite (c.stops_svcStop 0x40 5)
  have hopen : ∀ c : Ctl, c.Stops (c.abortOpen k) := fun c => .each c _ fun c d => c.stops_fix _ _ _
  rw [Ctl.abortRing_of_running hrun]
  refine ⟨⟨(c.emptied k).ring k, ?_⟩, fun x d hdesc hring hsub hcomm hbegun => ?_⟩
  · have hdrains := (Ctl.drain_spec hk hrunning).1.lower
    exact (Ctl.settleRing_spec (hdrains.clears hk
      (((hstop _).trans (hopen _)).trans (Ctl.stops_fences _)).toClears)).1
  · have hmay : ((c.drain k none).lower (rRING_CTL k) 0).MayEnd x := Ctl.MayEnd.drain hk hrunning hdesc hcomm hbegun
    rw [Ctl.IsDone, Ctl.desc?, Ctl.settleRing_descs]
    subst hring
    exact (Ctl.abortOpen_isDone hsub ((hstop _).mayEnd x hsub hmay)).fences

theorem Ctl.writeRingCtl_abort {c : Ctl} {k : Nat} (hk : k < 64) (hrun : c.ringState k = 1) (hwait : c.noneWaits k) :
    c.writeRingCtl k 0x100 = c.abortRing k := by
  have hwrite : c.writeRingCtl k 0x100 = c.startWaiting.abortRing k := rfl
  rw [hwrite, Ctl.startWaiting_of_running hk hrun hwait]

/-- What drains holds no descriptor of its own from before step 5. -/
theorem Ctl.Drains.ringDescs {c : Ctl} {k : Nat} {r : Ring} (h : c.Drains k r) :
    ∀ d ∈ c.ringDescs k, d.stage ≠ .hold ∧ d.stage ≠ .check := by
  intro d hd
  obtain ⟨hmem, hkey⟩ := List.mem_filter.mp hd
  simp only [Bool.and_eq_true, decide_eq_true_eq] at hkey
  simpa using h.begun d hmem hkey.1

theorem Ctl.lower_ringState (c : Ctl) (k : Nat) : (c.lower (rRING_CTL k) 0).ringState k = c.ringState k := by
  have hne : rRING_CTL k ≠ rRING_STATUS k := by simp
  rw [Ctl.ringState, Ctl.rf, Ctl.reg_lower, if_neg hne, Ctl.ringState, Ctl.rf]

/-- Settles O25: draining takes out what has not reached step 5 and cancels the FENCEs, and an abort completes what has not
committed. -/
theorem ringDisableAndAbort : Obligations.RingDisableAndAbort := by
  refine ⟨fun s k id hr hrun hstart hwait => ?_, fun s k id hr hrun hwait => ?_⟩
  · have hk : k < 64 := of_decide_eq_true (State.wf_of_reaches hr)
    have hrunning : s.ctl.running k = true := decide_eq_true hrun
    obtain ⟨hdrains, hheld⟩ := Ctl.drain_spec hk hrunning
    have hlow := hdrains.lower
    have hst := (Ctl.lower_ringState (s.ctl.drain k none) k)
    refine ⟨_, ctlStep_open_of_reaches hr _, ?_⟩
    simp only [Ctl.writeRingCtl_disable hk hrun hstart hwait]
    refine ⟨hlow.state, hlow.off, ?_, hlow.ringDescs, fun h2 => hheld (hst ▸ h2), fun x d hdesc hring hsub hkind hstage => ?_⟩
    · obtain ⟨-, -, hoff, -⟩ := s.ctl.emptied_spec hk
      exact (congrArg Ring.watch hlow.ring).trans hoff
    · obtain rfl := Ctl.desc?_key hdesc
      subst hring
      exact Ctl.drain_endsWith hrunning hk hdesc hsub hkind hstage
  · have hk : k < 64 := of_decide_eq_true (State.wf_of_reaches hr)
    obtain ⟨⟨r, hdrains⟩, hdone⟩ := Ctl.abortRing_spec hk hrun
    refine ⟨_, ctlStep_open_of_reaches hr _, ?_⟩
    simp only [Ctl.writeRingCtl_abort hk hrun hwait]
    exact ⟨hdrains.state, hdrains.off, hdrains.ringDescs, hdone⟩

end Sys2Proof.Machine

/-!
SUPPORT. What starting a descriptor at step 5 does to the list of descriptors: bursts of rows are requested, translated and may fail,
and no descriptor loses the sources that it has resolved.
-/
namespace Sys2Proof.Machine

/-! ### Work on descriptors whose bursts belong to rows -/

/-- Every burst that needs a translation belongs to a descriptor, and none is a prefetch. -/
def Ctl.RowNeeds (c : Ctl) : Prop := ∀ b ∈ c.mem.bursts, b.state = .need → b.purpose.key?.isSome = true ∧ b.prefetch = false

/-- Where only bursts of rows need translations, that stays so, and every descriptor is the one at its place, later on. -/
def Ctl.Works (c c' : Ctl) : Prop := c.RowNeeds → c.Tends c' ∧ c'.RowNeeds

theorem Ctl.Works.refl (c : Ctl) : c.Works c := fun h => ⟨.refl c, h⟩

theorem Ctl.Works.trans {c c' c'' : Ctl} (h : c.Works c') (h' : c'.Works c'') : c.Works c'' := fun hneeds => by
  obtain ⟨htends, hneeds'⟩ := h hneeds
  obtain ⟨htends', hneeds''⟩ := h' hneeds'
  exact ⟨htends.trans htends', hneeds''⟩

theorem Ctl.Works.each {α : Type} (c : Ctl) (l : List α) {f : Ctl → α → Ctl} (hf : ∀ (c : Ctl) (a : α), c.Works (f c a)) :
    c.Works (c.each l f) :=
  Ctl.each_induction (P := c.Works) (fun e a h => h.trans (hf e a)) l (.refl c)

theorem Ctl.Works.cond {p : Prop} [Decidable p] {c c' c'' : Ctl} (h : c.Works c') (h' : c.Works c'') :
    c.Works (if p then c' else c'') := by
  split
  · exact h
  · exact h'

theorem Ctl.Works.ite {p : Prop} [Decidable p] {c c' : Ctl} (h : c.Works c') : c.Works (if p then c' else c) := h.cond (.refl c)

/-- Updates beside the descriptors and the memory path. -/
theorem Ctl.Works.of_same {c c' : Ctl} (hd : c'.descs = c.descs) (hm : c'.mem = c.mem) : c.Works c' := fun h =>
  ⟨.of_descs hd, by rw [Ctl.RowNeeds, hm]; exact h⟩

theorem Ctl.Beside.works {c c' : Ctl} (h : c.Beside c') (hm : c'.mem = c.mem) : c.Works c' := .of_same h.descs hm

theorem Ctl.Paces.works {c c' : Ctl} (h : c.Paces c') : c.Works c' := .of_same (by rw [h.frame]) (by rw [h.frame])

theorem Ctl.works_modDesc (c : Ctl) (k : Key) {f : Desc → Desc} (hf : ∀ e : Desc, e.Handled (f e)) : c.Works (c.modDesc k f) :=
  fun h => ⟨c.tends_modDesc k hf, h⟩

theorem Ctl.works_count (c : Ctl) (off n : Nat) : c.Works (c.count off n) := .of_same rfl rfl

theorem Ctl.works_emit (c : Ctl) (o : Out) : c.Works (c.emit o) := .of_same rfl rfl

/-! ### Bursts -/

/-- A burst is changed beside what it is for, and does not come to need a translation. -/
theorem Ctl.works_modBurst (c : Ctl) (p : BPurpose) {f : Burst → Burst} (hp : ∀ b, (f b).purpose = b.purpose)
    (hpf : ∀ b, (f b).prefetch = b.prefetch) (hst : ∀ b, (f b).state = .need → b.state = .need) : c.Works (c.modBurst p f) := by
  refine fun h => ⟨.of_descs rfl, fun b hb hneed => ?_⟩
  obtain ⟨e, he, rfl⟩ := List.mem_map.mp hb
  split at hneed
  next hsel =>
    rw [if_pos hsel, hp, hpf]
    exact h e he (hst e hneed)
  next hsel =>
    rw [if_neg hsel]
    exact h e he hneed

@[simp] theorem Ctl.invalDone_mem (c : Ctl) : c.invalDone.mem = c.mem := by
  unfold Ctl.invalDone
  split <;> rfl

/-- What has not gone out is taken out; what has gone out needs no translation. -/
theorem Ctl.works_dropBursts (c : Ctl) (f : Burst → Bool) : c.Works (c.dropBursts f) := by
  refine fun h => ⟨.of_descs (c.dropBursts_beside f).descs, fun b hb hneed => ?_⟩
  rw [Ctl.dropBursts, Ctl.invalDone_mem] at hb
  obtain ⟨e, he, rfl⟩ := List.mem_map.mp hb
  obtain ⟨hmem, hkept⟩ := List.mem_filter.mp he
  have hstate : e.state = .need := by
    split at hneed <;> exact hneed
  have hnot : f e = false := by simpa [hstate] using hkept
  simp only [hnot, Bool.false_and, Bool.false_eq_true, if_false]
  exact h e hmem hstate

theorem Ctl.works_rowFail (c : Ctl) (k : Key) (f : RowFail) : c.Works (c.rowFail k f) := by
  unfold Ctl.rowFail
  dsimp only
  split
  · exact .refl c
  · refine .trans (c.works_modDesc k fun e => ?_) (Ctl.works_dropBursts _ _)
    exact .of_stage rfl rfl rfl (.inl rfl)

/-- The purposes of a descriptor's bursts. -/
theorem BPurpose.cases_of_key {p : BPurpose} (h : p.key?.isSome = true) :
    (∃ k r b q, p = .tensorRd k r b q) ∨ (∃ k r b q, p = .tensorWr k r b q) ∨ (∃ k r b q, p = .keyRd k r b q) ∨
      ∃ k q, p = .route k q := by
  cases p with
  | tensorRd k r b q => exact .inl ⟨k, r, b, q, rfl⟩
  | tensorWr k r b q => exact .inr (.inl ⟨k, r, b, q, rfl⟩)
  | keyRd k r b q => exact .inr (.inr (.inl ⟨k, r, b, q, rfl⟩))
  | route k q => exact .inr (.inr (.inr ⟨k, q, rfl⟩))
  | _ => exact absurd h Bool.false_ne_true

/-- A burst of a row that fails touches its own descriptor alone (R245, R248). -/
theorem Ctl.works_burstFails (c : Ctl) {b : Burst} (hkey : b.purpose.key?.isSome = true) (hpf : b.prefetch = false)
    (status detail : Nat) (parks : Bool) : c.Works (c.burstFails b status detail parks) := by
  have hrow : ∀ k r, c.Works (if b.prefetch then c.dropPrefetch k
      else c.rowFail k { row := r, status := status, detail := detail, parks := parks }) := by
    intro k r
    rw [hpf]
    exact c.works_rowFail k _
  unfold Ctl.burstFails
  dsimp only
  rcases BPurpose.cases_of_key hkey with ⟨k, r, bl, q, hp⟩ | ⟨k, r, bl, q, hp⟩ | ⟨k, r, bl, q, hp⟩ | ⟨k, q, hp⟩ <;> rw [hp]
  · exact hrow k r
  · exact hrow k r
  · exact hrow k r
  · exact .refl c

theorem Ctl.works_cacheMicro (c : Ctl) (ch : Nat) (x : Xlate) : c.Works (c.cacheMicro ch x) := by
  unfold Ctl.cacheMicro
  dsimp only
  split
  · exact .refl c
  · exact fun h => ⟨.of_descs rfl, h⟩

theorem Ctl.paces_startDawn (c : Ctl) : c.Paces c.startDawn := by
  unfold Ctl.startDawn
  split
  · exact (c.paces_modPower _).trans (Ctl.paces_startMargin _)
  · exact .refl c

theorem Ctl.works_startDawn (c : Ctl) : c.Works c.startDawn := c.paces_startDawn.works

/-- A burst of a row that finds its translation is refused, or waits for its channel (R241). -/
theorem Ctl.works_resolve (c : Ctl) {b : Burst} (hkey : b.purpose.key?.isSome = true) (hpf : b.prefetch = false) (x : Xlate) :
    c.Works (c.resolve b x) := by
  have hready : ∀ ch pa,
      c.Works ((c.modBurst b.purpose fun b => { b with state := .ready, pa := pa, ch := ch }).cacheMicro ch x) := by
    intro ch pa
    refine .trans (c.works_modBurst _ ?_ ?_ ?_) (Ctl.works_cacheMicro _ _ _)
    · exact fun _ => rfl
    · exact fun _ => rfl
    · simp
  have hdawn : ∀ c' : Ctl, c.Works c' → c.Works (if c'.pstate ∈ [0, 1, 3] then c'.startDawn else c') := fun c' h =>
    h.trans (.ite c'.works_startDawn)
  unfold Ctl.resolve
  dsimp only
  split
  · exact (c.works_dropBursts _).trans (Ctl.works_burstFails _ hkey hpf _ _ _)
  · rcases BPurpose.cases_of_key hkey with ⟨k, r, bl, q, hp⟩ | ⟨k, r, bl, q, hp⟩ | ⟨k, r, bl, q, hp⟩ | ⟨k, q, hp⟩ <;>
      rw [hp] at hready ⊢
    · exact hdawn _ (hready _ _)
    · exact hdawn _ (hready _ _)
    · dsimp only
      rw [hpf]
      exact hdawn _ (hready _ _)
    · exact hdawn _ (hready _ _)

theorem Ctl.works_startWalk (c : Ctl) (b : Burst) : c.Works (c.startWalk b) := fun h => ⟨.of_descs rfl, h⟩

/-- A burst of a row waits for a walk. -/
theorem Ctl.works_toWalk (c : Ctl) (p : BPurpose) : c.Works (c.toWalk p) :=
  c.works_modBurst p (fun _ => rfl) (fun _ => rfl) (by simp)

/-- A burst that needs a translation finds one, waits on a walk, or stays as it is (R239, R242). -/
theorem Ctl.works_translate (c : Ctl) (p : BPurpose) : c.Works (c.translate p) := by
  intro hneeds
  refine Ctl.Works.trans (c' := c) (.refl c) ?_ hneeds
  unfold Ctl.translate
  split
  · exact .refl c
  next b hb =>
    have hstate := List.find?_some hb
    simp only [Bool.and_eq_true, decide_eq_true_eq] at hstate
    obtain ⟨hkey, hpf⟩ := hneeds b (List.mem_of_find?_eq_some hb) hstate.2
    split
    · exact .refl c
    · split
      · exact c.works_modBurst p (fun _ => rfl) (fun _ => rfl) (by simp)
      · split
        · exact (c.works_count _ _).trans (Ctl.works_resolve _ hkey hpf _)
        · split
          · exact c.works_toWalk p
          · split
            · exact (c.works_startWalk b).trans (Ctl.works_toWalk _ p)
            · exact .refl c

/-- Bursts of rows are requested. -/
theorem Ctl.works_request (c : Ctl) {bs : List Burst} (hbs : ∀ b ∈ bs, b.purpose.key?.isSome = true ∧ b.prefetch = false) :
    c.Works (c.request bs) := by
  have hadd : c.Works (c.addBursts bs) := by
    refine fun h => ⟨.of_descs rfl, fun b hb hneed => ?_⟩
    exact (List.mem_append.mp hb).elim (fun hb => h b hb hneed) (hbs b)
  exact hadd.trans (.each _ _ Ctl.works_translate)

/-! ### The peer's row signatures -/

theorem Ctl.sendLink_mem (c : Ctl) (l kind ctl : Nat) (ws : List Word) : (c.sendLink l kind ctl ws).mem = c.mem := by
  have hcharge : ∀ (c : Ctl) (k n : Nat), (c.charge .background k n).mem = c.mem := fun _ _ _ => rfl
  unfold Ctl.sendLink Ctl.sendLinkFor
  split
  · rfl
  · dsimp only
    rw [Ctl.modLink_mem, Ctl.emit_mem]
    split
    · rfl
    · exact hcharge c _ _

theorem Ctl.works_sendSig (c : Ctl) (k : Key) (row : Option Nat) (s : BitVec 64) : c.Works (c.sendSig k row s) :=
  (c.sendSig_beside k row s).works (Ctl.sendLink_mem _ _ _ _ _)

theorem Ctl.works_mismatch (c : Ctl) (g : Sig) (a b : BitVec 64) : c.Works (c.mismatch g a b) := by
  have hhalt : ∀ (c : Ctl) (cause : Nat), (c.haltPair cause).mem = c.mem := by
    intro c cause
    unfold Ctl.haltPair
    split <;> rfl
  exact (c.mismatch_beside g a b).works ((Ctl.sendLink_mem _ _ _ _ _).trans (hhalt _ 1))

theorem Ctl.works_compareRow (c : Ctl) (g : Sig) : c.Works (c.compareRow g) := by
  have hsigs : ∀ gs, c.Works { c with sigs := gs } := fun gs => .of_same rfl rfl
  unfold Ctl.compareRow
  split
  · dsimp only
    split
    · refine .trans ?_ (Ctl.works_count _ _ _)
      split
      · refine (hsigs _).trans (Ctl.works_modDesc _ _ fun e => ?_)
        exact .of_stage rfl rfl rfl (.inl rfl)
      · exact hsigs _
    · exact (hsigs _).trans (Ctl.works_mismatch _ _ _ _)
  · exact .refl c

theorem Ctl.works_signRow (c : Ctl) (d : Desc) : c.Works (c.signRow d) := by
  unfold Ctl.signRow
  split
  · exact .refl c
  · split
    · refine .trans (.trans (c.works_modDesc d.key fun e => ?_) (Ctl.works_sendSig _ _ _ _)) (Ctl.works_compareRow _ _)
      exact .of_stage rfl rfl rfl (.inl rfl)
    · exact .refl c

theorem Ctl.works_signRows (c : Ctl) (k : Key) (rows : Nat) : c.Works (c.signRows k rows) :=
  .each c _ fun c _ => by
    split
    · exact c.works_signRow _
    · exact .refl c

/-! ### Tensors (step 6) -/

theorem Ctl.works_addJobs (c : Ctl) (js : List Job) : c.Works (c.addJobs js) := .of_same rfl rfl

theorem Ctl.works_feedRow (c : Ctl) (k : Key) (row : Nat) : c.Works (c.feedRow k row) := by
  have hline : ∀ (c : Ctl) (p : BPurpose) (bs : List (Option Byte)), c.Works (c.modBurst p fun b => { b with data := bs }) :=
    fun c p bs => c.works_modBurst p (fun _ => rfl) (fun _ => rfl) fun _ => id
  have hput : ∀ (c : Ctl) (i : Nat) (job : Job), c.Works ((c.modDesc k fun d => { d with aux := d.aux.set i 1 }).addJobs [job]) :=
    fun c i job => by
      refine .trans (c.works_modDesc k fun e => ?_) (Ctl.works_addJobs _ _)
      exact .of_stage rfl rfl rfl (.inl rfl)
  unfold Ctl.feedRow
  split
  · exact .refl c
  next d _ =>
    have hlines : ∀ c : Ctl, c.Works (c.each (d.writeRuns row) fun c r => c.each (List.range r.parts) fun c p =>
        match d.lineBytes row r p with
        | some bs => c.modBurst (.tensorWr k row r.block p) fun b => { b with data := bs }
        | none => c) := fun c => .each c _ fun c r => .each c _ fun c p => by
      split
      · exact hline c _ _
      · exact .refl c
    have hsigned : ∀ c : Ctl, c.Works (if c.paired && d.memDst then c.signRows k d.rowsN else c) := fun c =>
      .ite (c.works_signRows k _)
    dsimp only
    split
    · split
      · exact (hlines c).trans (hsigned _)
      · refine ((hlines c).trans (hsigned _)).trans (.each _ _ fun c b => ?_)
        split
        · exact .refl c
        · split
          · exact hput c _ _
          · exact .refl c
    · exact (hlines c).trans (hsigned _)

theorem Desc.readBursts_ofRow (d : Desc) (row : Nat) {b : Burst} (h : b ∈ d.readBursts row) :
    b.purpose.key?.isSome = true ∧ b.prefetch = false := by
  simp only [Desc.readBursts, List.mem_flatMap, List.mem_map] at h
  obtain ⟨r, -, p, -, rfl⟩ := h
  split <;> exact ⟨rfl, rfl⟩

theorem Desc.writeBursts_ofRow (d : Desc) (row : Nat) {b : Burst} (h : b ∈ d.writeBursts row) :
    b.purpose.key?.isSome = true ∧ b.prefetch = false := by
  simp only [Desc.writeBursts, List.mem_flatMap, List.mem_map] at h
  obtain ⟨r, -, p, -, rfl⟩ := h
  exact ⟨rfl, rfl⟩

theorem Ctl.works_startRows (c : Ctl) (k : Key) : c.Works (c.startRows k) := by
  unfold Ctl.startRows
  split
  · exact .refl c
  next d _ =>
    refine .trans (.trans (c.works_addJobs _) (Ctl.works_request _ fun b hb => ?_)) (.each _ _ fun c r => c.works_feedRow k r)
    obtain ⟨r, -, hr⟩ := List.mem_flatMap.mp hb
    exact (List.mem_append.mp hr).elim (d.readBursts_ofRow r) (d.writeBursts_ofRow r)

theorem Ctl.tends_tensorProgress (c : Ctl) (k : Key) : c.Tends (c.tensorProgress k) := by
  have hfinish : ∀ st de, c.Tends (c.finish k st de) := fun st de => (c.ends_finish k st de).tends
  unfold Ctl.tensorProgress
  split
  · exact .refl c
  · split
    · exact .refl c
    · split
      · split
        · exact hfinish _ _
        · exact .refl c
      · split
        · exact .refl c
        · split
          · split
            · exact c.tends_modDesc k fun e => .of_stage rfl rfl rfl (.inr (by simp))
            · exact .refl c
          · split
            · exact hfinish _ _
            · exact .refl c

theorem Ctl.tends_startTensor {c : Ctl} (h : c.RowNeeds) (k : Key) : c.Tends (c.startTensor k) :=
  (c.works_startRows k h).1.trans (Ctl.tends_tensorProgress _ k)

/-! ### Indexed moves, PERMUTE, KEYSTREAM and REDUCE (step 6) -/

theorem Ctl.works_modPort (c : Ctl) (n : Nat) (f : Port → Port) : c.Works (c.modPort n f) := .of_same rfl rfl

theorem Ctl.works_modPower (c : Ctl) (f : Power → Power) : c.Works (c.modPower f) := .of_same rfl rfl

theorem Ctl.works_charge (c : Ctl) (who : Account) (k n : Nat) : c.Works (c.charge who k n) := by
  unfold Ctl.charge Ctl.addAccount
  dsimp only
  split
  · exact (c.works_modPower _).trans (Ctl.works_modPower _ _)
  · split
    · exact (c.works_modPower _).trans (Ctl.works_modPower _ _)
    · refine .trans (.trans (c.works_modPower _) (Ctl.works_modDesc _ _ fun e => ?_)) (Ctl.works_modPower _ _)
      exact .of_stage rfl rfl rfl (.inl rfl)

theorem Ctl.works_scatterIndex (c : Ctl) (k : Key) (i : Nat) (ws : List Word) : c.Works (c.scatterIndex k i ws) := by
  unfold Ctl.scatterIndex
  split
  · exact .refl c
  · refine .trans (c.works_modDesc k fun e => ?_) (Ctl.works_addJobs _ _)
    exact .of_stage rfl rfl rfl (.inl rfl)

theorem Ctl.works_sideFetch (c : Ctl) (k : Key) (i : Nat) : c.Works (c.sideFetch k i) := by
  unfold Ctl.sideFetch
  split
  · exact .refl c
  · dsimp only
    split
    · split
      · exact c.works_addJobs _
      · exact (((c.works_modPort _ _).trans (Ctl.works_count _ _ _)).trans (Ctl.works_charge _ _ _ _)).trans
          (Ctl.works_scatterIndex _ _ _ _)
    · exact c.works_addJobs _

theorem Ctl.works_startIndexed (c : Ctl) (k : Key) : c.Works (c.startIndexed k) := by
  unfold Ctl.startIndexed
  split
  · exact .refl c
  · exact (c.works_addJobs _).trans (.each _ _ fun c i => c.works_sideFetch k i)

theorem Ctl.works_startPasses (c : Ctl) (k : Key) : c.Works (c.startPasses k) := by
  unfold Ctl.startPasses
  split
  · exact .refl c
  · refine .trans (c.works_modDesc k fun e => ?_) (Ctl.works_addJobs _ _)
    exact .of_stage rfl rfl rfl (.inl rfl)

/-- A PERMUTE by program reads its program, or ends where it has no map (R197). -/
theorem Ctl.tends_takeMap {c : Ctl} (h : c.RowNeeds) (k : Key) : c.Tends (c.takeMap k) := by
  unfold Ctl.takeMap
  split
  · exact .refl c
  · split
    · exact .refl c
    · split
      · split
        · split
          · exact (c.works_startPasses k h).1
          · exact .refl c
        · exact .refl c
      · split
        · exact (c.ends_finish _ _ _).tends
        · have hmap : c.Works (c.modNet fun x => { x with mapOwner := some k }) := .of_same rfl rfl
          refine (hmap.trans (Ctl.works_request _ fun b hb => ?_) h).1
          obtain ⟨i, -, rfl⟩ := List.mem_map.mp hb
          exact ⟨rfl, rfl⟩

theorem Ctl.tends_startPermute {c : Ctl} (h : c.RowNeeds) (k : Key) : c.Tends (c.startPermute k) := by
  unfold Ctl.startPermute
  split
  · exact .refl c
  · split
    · exact Ctl.tends_takeMap h k
    · exact (c.works_startPasses k h).1

theorem Ctl.tends_startKeyTile {c : Ctl} (h : c.RowNeeds) (k : Key) : c.Tends (c.startKeyTile k) := by
  unfold Ctl.startKeyTile
  split
  · split
    · split
      · exact (c.startLanes_beside k _).tends
      · exact Ctl.tends_startTensor h k
    · exact .refl c
  · exact .refl c

theorem Ctl.works_startReduce (c : Ctl) (k : Key) : c.Works (c.startReduce k) := by
  have hread : ∀ (c : Ctl) (i : Nat), c.Works (c.readSelected k i) := by
    intro c i
    unfold Ctl.readSelected
    split
    · exact .refl c
    · split
      · exact .refl c
      · exact c.works_addJobs _
  unfold Ctl.startReduce
  split
  · exact .refl c
  · dsimp only
    split
    · exact c.works_addJobs _
    · exact .each c _ hread

/-! ### TILE_OP (R109) -/

theorem Ctl.works_needKey (c : Ctl) (n : Nat) (a : Assign) : c.Works (c.needKey n a) := by
  unfold Ctl.needKey
  split
  · exact .refl c
  · refine .cond (.refl c) (.cond ((c.works_modPort _ _).trans (Ctl.works_startDawn _)) (c.works_request fun b hb => ?_))
    obtain ⟨i, -, rfl⟩ := List.mem_map.mp hb
    exact ⟨rfl, rfl⟩

theorem Ctl.works_latchHit (c : Ctl) (n s : Nat) (k : Key) (l : Latch) : c.Works (c.latchHit n s k l) :=
  (((c.works_modPort n _).trans (Ctl.works_count _ _ _)).trans (Ctl.works_charge _ _ _ _)).trans (Ctl.works_modPort _ _ _)

theorem Ctl.works_fetchStream (c : Ctl) (n s : Nat) : c.Works (c.fetchStream n s) := by
  unfold Ctl.fetchStream
  split
  · exact .refl c
  · split
    · exact .refl c
    · split
      · exact .refl c
      · split
        · exact c.works_latchHit _ _ _ _
        · split
          · exact .refl c
          · exact (c.works_count _ _).trans (Ctl.works_addJobs _ _)

theorem Ctl.works_beat (c : Ctl) (st : Stream) (who : Account) : c.Works (c.beat st who) := by
  refine c.works_startDawn.trans ?_
  unfold Ctl.beat
  dsimp only
  split <;> exact .of_same rfl rfl

theorem Ctl.works_raiseReq (c : Ctl) (n : Nat) : c.Works (c.raiseReq n) := by
  unfold Ctl.raiseReq
  split
  · exact .refl c
  · dsimp only
    split
    · exact .refl c
    · split
      · split
        · exact c.works_startDawn
        · exact (((c.works_startDawn).trans (Ctl.works_beat _ _ _)).trans (Ctl.works_modPort _ _ _)).trans (Ctl.works_emit _ _)
      · exact .refl c

theorem Ctl.works_pumpPort (c : Ctl) (n : Nat) : c.Works (c.pumpPort n) := by
  have hfeed : c.Works (c.feedKeys n) := .each c _ fun c a => by
    split
    · exact .refl c
    · exact c.works_needKey n a
  unfold Ctl.pumpPort
  split
  · exact .refl c
  · exact (((hfeed.trans (Ctl.works_fetchStream _ n 0)).trans (Ctl.works_fetchStream _ n 1)).trans
      (Ctl.works_fetchStream _ n 2)).trans (Ctl.works_raiseReq _ n)

theorem Ctl.works_assign (c : Ctl) (k : Key) (as : List (Nat × Nat × Nat)) (load : Tab Word) : c.Works (c.assign k as load) := by
  unfold Ctl.assign
  dsimp only
  refine .trans (.trans (.each c _ fun c n => c.works_modPort n _) (Ctl.works_modDesc _ k fun e => ?_))
    (.each _ _ fun c n => c.works_pumpPort n)
  exact .of_stage rfl rfl rfl (.inl rfl)

/-- A TILE_OP that starts is admitted, is held for want of a port, or fails its deferred checks. -/
theorem Ctl.tends_startTileOp {c : Ctl} (h : c.RowNeeds) (k : Key) : c.Tends (c.startTileOp k) := by
  have hraise : ∀ (c : Ctl) (p : Nat), c.Works (c.phaseRaise p) := fun c p => (c.phaseRaise_beside p).works (c.phaseRaise_mem p)
  have hraised : ∀ (c : Ctl) (b : Bool) (p : Nat), c.Works (if b = true then c else c.phaseRaise p) := by
    intro c b p
    split
    · exact .refl c
    · exact hraise c p
  have hwindow : ∀ (c : Ctl) (e : Desc), c.Works (if e.prefetched then c.modDesc e.key fun e => { e with phase := 0 } else c) :=
    fun c e => .ite (c.works_modDesc e.key fun e => .of_stage rfl rfl rfl (.inl rfl))
  have hrun : ∀ (c : Ctl) (rec : List Word) (g : List Nat), c.Works (c.modDesc k fun d => { d with
      stage := .run, admitted := true, classRec := some rec, group := g }) := fun c rec g =>
    c.works_modDesc k fun e => ⟨rfl, rfl, fun _ => rfl, fun _ => by simp⟩
  unfold Ctl.startTileOp
  split
  · exact .refl c
  · dsimp only
    split
    · split
      · exact .refl c
      · split
        · exact (c.ends_finish _ _ _).tends
        · split
          · exact (((hraised c _ _).trans (hwindow _ _)).trans ((hrun _ _ _).trans (Ctl.works_assign _ _ _ _)) h).1
          · exact ((hraised c _ _).trans ((hrun _ _ _).trans (Ctl.works_assign _ _ _ _)) h).1
    · exact .refl c

/-- What begins at step 6, but for a stream, keeps every descriptor's sources. -/
theorem Ctl.tends_startKind {c : Ctl} (h : c.RowNeeds) {d : Desc} (hstream : d.isStream = false) : c.Tends (c.startKind d) := by
  unfold Ctl.startKind
  split
  · exact Ctl.tends_startTensor h _
  · exact Ctl.tends_startTensor h _
  · exact Ctl.tends_startTensor h _
  · exact (c.works_startIndexed _ h).1
  · exact (c.works_startIndexed _ h).1
  · exact (c.works_startIndexed _ h).1
  · exact Ctl.tends_startPermute h _
  · rw [hstream]
    exact Ctl.tends_startKeyTile h _
  · exact (c.works_startReduce _ h).1
  · exact c.tends_modDesc d.key fun e => .of_stage rfl rfl rfl (.inr (by simp))
  · exact .refl c

end Sys2Proof.Machine

/-!
SUPPORT. Releases, slot grants and commits: each command takes the first descriptor that may go on, and says what a descriptor then
is, alone and in a pair.
-/
namespace Sys2Proof.Machine

/-! ### DEPENDENCY_RELEASE (R139) -/

theorem exec_dependencyRelease {s : State} {k : Nat} {d : Desc} (ht : s.takes (.dependencyRelease k) = true)
    (hadmit : s.ctl.admitting = true) (hfind : (s.ctl.ringDescs k).find? (·.stage = .hold) = some d)
    (hfree : ∀ e ∈ s.ctl.ringDescs k, e.key.idx < d.key.idx → s.ctl.waitsFor d e = false) :
    exec (.dependencyRelease k) s = .next { s with ctl := s.ctl.modDesc d.key fun d => { d with stage := .check } } := by
  have hnone : ((s.ctl.ringDescs k).any fun e => e.key.idx < d.key.idx && s.ctl.waitsFor d e) = false := by
    rw [List.any_eq_false]
    intro e he
    by_cases hlt : e.key.idx < d.key.idx
    · simp [hfree e he hlt]
    · simp [hlt]
  change execDependencyRelease k s = _
  rw [execDependencyRelease, ctlStep_takes _ ht]
  simp only [hfind, hadmit, hnone, Bool.not_false, Bool.and_true, if_true]

/-! ### FRESH_SLOT_GRANT (R101) -/

theorem mem_insertBy {α : Type} {le : α → α → Bool} {a x : α} {l : List α} : a ∈ insertBy le x l ↔ a = x ∨ a ∈ l := by
  induction l with
  | nil => simp [insertBy]
  | cons y ys ih =>
    unfold insertBy
    split
    · simp
    · rw [List.mem_cons, ih, List.mem_cons]
      tauto

theorem mem_sortBy {α : Type} {le : α → α → Bool} {a : α} {l : List α} : a ∈ sortBy le l ↔ a ∈ l := by
  induction l with
  | nil => simp [sortBy]
  | cons x xs ih => rw [sortBy, mem_insertBy, ih, List.mem_cons]

theorem Ctl.tryWanted_of_nil {c : Ctl} (h : c.wanted = []) : c.tryWanted = c := by
  cases c
  obtain rfl := h
  rfl

/-- Where no migration waits, no slots are short, no ALLOC is untested and no waiting descriptor does without slots, the oldest that
may goes on from step 5. -/
theorem exec_freshSlotGrant {s : State} {d : Desc} (ht : s.takes .freshSlotGrant = true) (hissue : s.ctl.issuing = true)
    (hwanted : s.ctl.wanted = []) (hslots : ∀ e ∈ s.ctl.descs, e.waits5 = true → e.dRef.isSome = true)
    (htested : ∀ e ∈ s.ctl.descs, e.kind = 12 → e.stage = .wait → e.granted = true) (hshort : s.ctl.shortage = false)
    (hfind : (sortBy (fun a b => a.order ≤ b.order) (s.ctl.descs.filter (·.waits5))).find?
      (fun e => e.dRef.isSome && !s.ctl.classHeld e && (e.kind ≠ 12 || e.granted)) = some d) :
    exec .freshSlotGrant s = .next { s with ctl := s.ctl.tryPass5 d.key } := by
  have hend : s.ctl.endShort = s.ctl := by rw [Ctl.endShort, hshort]; rfl
  have htest : s.ctl.testAllocs = s.ctl := by
    have hnil : (s.ctl.descs.filter fun d => d.kind = 12 && d.stage = .wait && !d.granted) = [] := by
      refine List.filter_eq_nil_iff.mpr fun e he => ?_
      simp only [Bool.and_eq_true, decide_eq_true_eq, Bool.not_eq_true', not_and, Bool.not_eq_false, and_imp]
      exact htested e he
    rw [Ctl.testAllocs, hnil]
    rfl
  have hpass : ((sortBy (fun a b => decide (a.order ≤ b.order)) (s.ctl.descs.filter (·.waits5))).filter (·.dRef.isNone)) = [] := by
    refine List.filter_eq_nil_iff.mpr fun e he => ?_
    obtain ⟨hmem, hwait⟩ := List.mem_filter.mp (mem_sortBy.mp he)
    simp [Option.isSome_iff_ne_none.mp (hslots e hmem hwait)]
  change execFreshSlotGrant s = _
  rw [execFreshSlotGrant, ctlStep_takes _ ht]
  simp only [hissue, Ctl.tryWanted_of_nil hwanted, hend, htest, hpass, Bool.not_true, Bool.false_eq_true, if_false]
  simp only [Ctl.each, List.foldl_nil, hfind]

/-- A descriptor whose sources stand and whose destination has a place passes step 5 (R101). -/
theorem Ctl.tryPass5_of_place {c : Ctl} {d : Desc} {r : TileRef} {x : FragTable} (hdesc : c.desc? d.key = some d)
    (href : d.dRef = some r) (hwanted : c.wanted = []) (hshort : c.shortage = false) (hstand : c.sourcesStand d = true)
    (hpoison : c.poisonCheck d = none) (hfold : c.mustRefold d = []) (hroom : d.need ≤ c.freeSlots)
    (hplace : c.place r.name (shRows d.dShape) (shSpan d.dShape) (d.placeOrder (c.resolved d)) = some x) :
    c.tryPass5 d.key = c.pass5 d (some x) := by
  rw [Ctl.tryPass5, hdesc]
  simp [hshort, hstand, hpoison, hfold, href, hwanted, hplace, Nat.not_lt.mpr hroom]

theorem Ctl.setSlots_slot (c : Ctl) {ks : List Nat} (st : SlotState) (o : Owner) {j : Nat} (h : j ∈ ks) :
    ((c.setSlots ks st o).slot j).state = st ∧ ((c.setSlots ks st o).slot j).owner = o := by
  refine Ctl.each_reaches (α := Nat) (P := fun _ => True) (Q := fun c => (c.slot j).state = st ∧ (c.slot j).owner = o)
    (fun c _ => ?_) (fun _ _ _ => .inl trivial) (fun c k hc => ?_) h trivial
  · rw [Ctl.modSlot_slot, if_pos rfl]
    exact ⟨rfl, rfl⟩
  · rw [Ctl.modSlot_slot]
    split
    · exact ⟨rfl, rfl⟩
    · exact hc

theorem Ctl.paces_phaseRaise (c : Ctl) (phase : Nat) : c.Paces (c.phaseRaise phase) := by
  unfold Ctl.phaseRaise
  dsimp only
  split
  · exact (c.paces_putVreq _).trans (Ctl.paces_modPower _ _)
  · exact .refl c

/-- A descriptor that has passed step 5 with its sources and a place resolved. -/
def Ctl.placed (c : Ctl) (d : Desc) (x : FragTable) : Desc := { d with srcs := c.resolved d, dst := some x }

/-- The slots of its destination are taken, and its sources noted. -/
def Ctl.taken (c : Ctl) (d : Desc) (x : FragTable) : Ctl :=
  (c.setSlots x.slots (if d.kind = 12 then .free else .fresh) (.desc d.key)).modDesc d.key fun e =>
    { e with srcs := c.resolved e, dst := some x }

/-- The state in which a descriptor of any kind but a TILE_OP starts. -/
def Ctl.passed (c : Ctl) (d : Desc) (x : FragTable) : Ctl :=
  ((c.taken d x).phaseRaise d.phaseOf).modDesc d.key fun e => { e with stage := .run, admitted := true }

theorem Ctl.resolved_setSlots (c : Ctl) (d : Desc) (ks : List Nat) (st : SlotState) (o : Owner) :
    (c.setSlots ks st o).resolved d = c.resolved d := by
  simp only [Ctl.resolved, Ctl.name, (c.setSlots_beside ks st o).names]

theorem Ctl.pass5_eq (c : Ctl) (d : Desc) (x : FragTable) :
    c.pass5 d (some x) = if d.kind = 1 then ((c.taken d x).recordPartners d).startTileOp d.key
      else (c.passed d x).startKind d := by
  simp only [Ctl.pass5, Ctl.resolved_setSlots]
  rfl

theorem Ctl.desc?_taken {c : Ctl} {d : Desc} (x : FragTable) (hdesc : c.desc? d.key = some d) :
    (c.taken d x).desc? d.key = some (c.placed d x) := by
  refine (Ctl.desc?_modDesc_self _ _ _ ?_).trans ?_
  · exact fun _ => rfl
  · rw [(c.setSlots_beside _ _ _).desc?, hdesc]
    rfl

theorem Ctl.rowNeeds_of_calm {c : Ctl} {D : Nat} (h : c.calm D = true) : c.RowNeeds := by
  intro b hb hneed
  simp only [Ctl.calm, Bool.and_eq_true, List.all_eq_true, decide_eq_true_eq] at h
  exact absurd hneed (h.1 b hb)

theorem Ctl.rowNeeds_taken {c : Ctl} (h : c.RowNeeds) (d : Desc) (x : FragTable) : (c.taken d x).RowNeeds := by
  have hm : (c.taken d x).mem = c.mem := c.setSlots_mem _ _ _
  rw [Ctl.RowNeeds, hm]
  exact h

theorem Ctl.desc?_passed {c : Ctl} {d : Desc} (x : FragTable) (hdesc : c.desc? d.key = some d) :
    (c.passed d x).desc? d.key = some { c.placed d x with stage := .run, admitted := true } := by
  refine (Ctl.desc?_modDesc_self _ _ _ ?_).trans ?_
  · exact fun _ => rfl
  · rw [(Ctl.phaseRaise_beside _ _).desc?, Ctl.desc?_taken x hdesc]
    rfl

theorem Ctl.rowNeeds_passed {c : Ctl} (h : c.RowNeeds) (d : Desc) (x : FragTable) : (c.passed d x).RowNeeds := by
  have hm : (c.passed d x).mem = (c.taken d x).mem := (c.taken d x).phaseRaise_mem d.phaseOf
  rw [Ctl.RowNeeds, hm]
  exact Ctl.rowNeeds_taken h d x

/-- A streamed KEYSTREAM has no destination. -/
theorem Desc.isStream_of_dRef {d : Desc} {r : TileRef} (h : d.dRef = some r) : d.isStream = false := by
  rw [Desc.isStream, Bool.and_eq_false_iff]
  by_cases hkind : d.kind = 9
  · right
    cases hbit : bit (d.w 1) 8 with
    | true => rfl
    | false => simp [Desc.dRef, Desc.tiles, hkind, hbit] at h
  · exact .inl (decide_eq_false hkind)

theorem Ctl.works_recordPartners (c : Ctl) (d : Desc) : c.Works (c.recordPartners d) :=
  .each c _ fun c _ => .each c _ fun _ _ => .of_same rfl rfl

/-- A descriptor that passes step 5 keeps what it has resolved, and is admitted unless it is a TILE_OP that finds no port (R101). -/
theorem Ctl.pass5_spec {c : Ctl} {d : Desc} {x : FragTable} (hdesc : c.desc? d.key = some d) (hneeds : c.RowNeeds)
    (hstream : d.isStream = false) :
    ∃ e, (c.pass5 d (some x)).desc? d.key = some e ∧ e.srcs = c.resolved d ∧ (d.kind ≠ 1 → e.admitted = true) := by
  have htaken := Ctl.desc?_taken x hdesc
  rw [Ctl.pass5_eq]
  split
  next hkind =>
    obtain ⟨htends, hneeds'⟩ := Ctl.works_recordPartners _ d (Ctl.rowNeeds_taken hneeds d x)
    obtain ⟨e, he, hhandled⟩ := (htends.trans (Ctl.tends_startTileOp hneeds' d.key)).desc? htaken
    exact ⟨e, he, hhandled.srcs, fun h => absurd hkind h⟩
  next hkind =>
    obtain ⟨e, he, hhandled⟩ := (Ctl.tends_startKind (Ctl.rowNeeds_passed hneeds d x) hstream).desc? (Ctl.desc?_passed x hdesc)
    exact ⟨e, he, hhandled.srcs, fun _ => hhandled.admitted rfl⟩

theorem Ctl.startKind_alloc (c : Ctl) {d : Desc} (h : d.kind = 12) :
    c.startKind d = c.modDesc d.key fun e => { e with stage := .written } := by
  unfold Ctl.startKind
  simp only [h]

/-- An ALLOC waits for its commit with its slots promised to it, FREE until then (R97). -/
theorem Ctl.pass5_alloc {c : Ctl} {d : Desc} {x : FragTable} (hdesc : c.desc? d.key = some d) (hkind : d.kind = 12) :
    (∃ e, (c.pass5 d (some x)).desc? d.key = some e ∧ e.stage = .written ∧ e.dst = some x) ∧
      ∀ j ∈ x.slots, ((c.pass5 d (some x)).slot j).state = .free ∧ ((c.pass5 d (some x)).slot j).owner = .desc d.key := by
  have hne : d.kind ≠ 1 := by omega
  have hpass : c.pass5 d (some x) = (c.passed d x).modDesc d.key fun e => { e with stage := .written } := by
    rw [Ctl.pass5_eq, if_neg hne, Ctl.startKind_alloc _ hkind]
  have hdst : ((c.passed d x).modDesc d.key fun e => { e with stage := .written }).desc? d.key =
      some { c.placed d x with stage := .written, admitted := true } := by
    refine (Ctl.desc?_modDesc_self _ _ _ ?_).trans ?_
    · exact fun _ => rfl
    · rw [Ctl.desc?_passed x hdesc]
      rfl
  have hslots : (c.passed d x).slots = (c.taken d x).slots := by
    rw [Ctl.passed, Ctl.modDesc_slots, ((c.taken d x).paces_phaseRaise d.phaseOf).frame]
  rw [hpass]
  refine ⟨⟨_, hdst, rfl, rfl⟩, fun j hj => ?_⟩
  rw [Ctl.slot, Ctl.modDesc_slots, hslots, Ctl.taken, if_pos hkind]
  exact c.setSlots_slot .free (.desc d.key) hj

/-! ### Commits alone (R53, R94, R97) -/

/-- The commit of a descriptor: alone, or the signature that a pair sends first (R94, R317). -/
def Ctl.commitStep (c : Ctl) (cells : Cells) (d : Desc) : Ctl :=
  if c.paired && d.writes.all (c.incarnationOk d) then c.signCommit cells d else c.commitNow d

theorem exec_commit {s : State} {k i : Nat} {d : Desc} (ht : s.takes (.commit k i) = true) (hfind : s.ctl.commitDesc k i = some d) :
    exec (.commit k i) s = .next { s with ctl := s.ctl.commitStep s.cells d } := by
  change execCommit k i s = _
  rw [execCommit, fullStep_takes _ ht]
  simp only [hfind]
  rfl

/-- What may commit stands before its commit. -/
theorem Ctl.stage_of_commitDesc {c : Ctl} {k i : Nat} {d : Desc} (h : c.commitDesc k i = some d) : d.stage = .written := by
  have hmay := List.find?_some h
  simp only [Ctl.mayCommit, Bool.and_eq_true, decide_eq_true_eq] at hmay
  exact hmay.2.1.1.1

/-- From `c` to `c'` the descriptors and the pairing stay. -/
def Ctl.Renames (c c' : Ctl) : Prop := c'.descs = c.descs ∧ c'.paired = c.paired

theorem Ctl.Renames.refl (c : Ctl) : c.Renames c := ⟨rfl, rfl⟩

theorem Ctl.Renames.trans {c c' c'' : Ctl} (h : c.Renames c') (h' : c'.Renames c'') : c.Renames c'' :=
  ⟨h'.1.trans h.1, h'.2.trans h.2⟩

theorem Ctl.Beside.renames {c c' : Ctl} (h : c.Beside c') : c.Renames c' := ⟨h.descs, h.paired⟩

theorem Ctl.renames_modName (c : Ctl) (n : Nat) (f : NameRec → NameRec) : c.Renames (c.modName n f) := ⟨rfl, rfl⟩

theorem Ctl.Renames.desc? {c c' : Ctl} (h : c.Renames c') (k : Key) : c'.desc? k = c.desc? k := by
  rw [Ctl.desc?, h.1, Ctl.desc?]

theorem Ctl.Beside.name {c c' : Ctl} (h : c.Beside c') (n : Nat) : c'.name n = c.name n := by
  rw [Ctl.name, h.names, Ctl.name]

/-- The map entry of a name is replaced, and the slots with it (R94). -/
def Ctl.mapTo (c : Ctl) (n : Nat) (t : FragTable) (flags : List (BitVec 4)) : Ctl :=
  ((c.setSlots (if (c.name n).live then (c.name n).table.slots else []) .retired .none).setSlots t.slots .mapped
    (.name n)).modName n fun r => { r with
      table := t, displaced := t.displaced, flags := flags, commits := r.commits + 1, poison := none }

theorem Ctl.publish_eq (c : Ctl) (n : Nat) (t : FragTable) (flags : List (BitVec 4)) :
    c.publish n t flags = if t.slots.any fun k => ((c.mapTo n t flags).slot k).condemned then (c.mapTo n t flags).requireMig n
      else c.mapTo n t flags := rfl

/-- A published name has its new table, and no poison (R94, R301). -/
theorem Ctl.publish_spec (c : Ctl) (n : Nat) (t : FragTable) (flags : List (BitVec 4)) :
    c.Renames (c.publish n t flags) ∧ (c.publish n t flags).name n = { c.name n with
      table := t, displaced := t.displaced, flags := flags, commits := (c.name n).commits + 1, poison := none } := by
  have hput : ∀ old, c.Beside ((c.setSlots old .retired .none).setSlots t.slots .mapped (.name n)) := fun old =>
    (c.setSlots_beside old _ _).trans (Ctl.setSlots_beside _ _ _ _)
  have hren : c.Renames (c.mapTo n t flags) := (hput _).renames.trans (Ctl.renames_modName _ _ _)
  have hname : (c.mapTo n t flags).name n = { c.name n with
      table := t, displaced := t.displaced, flags := flags, commits := (c.name n).commits + 1, poison := none } := by
    rw [Ctl.mapTo, Ctl.modName_name, if_pos rfl, (hput _).name]
  rw [Ctl.publish_eq]
  split
  · have hmig := (c.mapTo n t flags).requireMig_beside n
    exact ⟨hren.trans hmig.renames, (hmig.name n).trans hname⟩
  · exact ⟨hren, hname⟩

/-- A pin changes nothing else of its name (R116). -/
theorem Ctl.applyPin_spec (c : Ctl) (n : Nat) (mask : BitVec 64) (offset : Option Nat) :
    c.Renames (c.applyPin n mask offset) ∧ ∃ p, (c.applyPin n mask offset).name n = { c.name n with pin := p } := by
  have hpin : ∀ p : Option Pin, (c.modName n fun r => { r with pin := p }).name n = { c.name n with pin := p } := fun p => by
    rw [Ctl.modName_name, if_pos rfl]
  unfold Ctl.applyPin
  dsimp only
  split
  · refine ⟨⟨rfl, ?_⟩, _, hpin _⟩
    have hne : rKS_STATUS ≠ rPAIR_STATUS := by decide
    rw [Ctl.paired, Ctl.reg_raise, if_neg hne]
    rfl
  · split
    · exact ⟨c.renames_modName n _, _, hpin _⟩
    · exact ⟨(c.renames_modName n _).trans (Ctl.requireMig_beside _ _).renames, _,
        ((Ctl.requireMig_beside _ _).name n).trans (hpin _)⟩

theorem Ctl.policyPin_spec (c : Ctl) (n : Nat) :
    c.Renames (c.policyPin n) ∧ ∃ p, (c.policyPin n).name n = { c.name n with pin := p } := by
  unfold Ctl.policyPin
  split
  · exact ⟨.refl c, _, rfl⟩
  · split
    · exact c.applyPin_spec n _ _
    · exact ⟨.refl c, _, rfl⟩

/-- A name after the commit of `d` (R50, R51, R94, R97): not LIVE after a FREE, and otherwise with the new table; after an ALLOC of
its next incarnation. -/
structure NameRec.Committed (r r' : NameRec) (d : Desc) : Prop where
  free : d.kind = 13 → r'.live = false
  table : d.kind ≠ 13 → ∀ x, d.dst = some x → r'.table = x ∧ r'.poison = none
  alloc : d.kind = 12 → d.dst.isSome = true → r'.live = true ∧ r'.shape = d.w 4 ∧ r'.inc = r.inc + 1

theorem Ctl.publishFree_spec (c : Ctl) {d : Desc} (hkind : d.kind = 13) (n : Nat) :
    c.Renames (c.publishFree n) ∧ (c.name n).Committed ((c.publishFree n).name n) d := by
  refine ⟨(c.setSlots_beside _ _ _).renames.trans (Ctl.renames_modName _ n _), fun _ => ?_, fun hne => absurd hkind hne,
    fun h12 => absurd (hkind.symm.trans h12) (by decide)⟩
  rw [Ctl.publishFree, Ctl.modName_name, if_pos rfl]
  rfl

theorem Ctl.publishAlloc_spec (c : Ctl) {d : Desc} (hkind : d.kind = 12) {t : FragTable} (hdst : d.dst = some t) (n : Nat) :
    c.Renames (c.publishAlloc d n t) ∧ (c.name n).Committed ((c.publishAlloc d n t).name n) d := by
  let live (r : NameRec) : NameRec :=
    { r with live := true, shape := d.w 4, modulus := d.w 5, domain := d.domain, inc := r.inc + 1, partners := [], score := 0 }
  let c1 := c.publish n t (List.replicate (shRows (d.w 4)) 0)
  obtain ⟨hren, hname⟩ := c.publish_spec n t (List.replicate (shRows (d.w 4)) 0)
  obtain ⟨hren', p, hname'⟩ := (c1.modName n live).policyPin_spec n
  rw [Ctl.modName_name, if_pos rfl] at hname'
  have hrec : (c.publishAlloc d n t).name n = { live (c1.name n) with pin := p } := hname'
  rw [hname] at hrec
  refine ⟨(hren.trans (c1.renames_modName n live)).trans hren', fun h13 => absurd (hkind.symm.trans h13) (by decide),
    fun _ x hx => ?_, fun _ _ => ?_⟩
  · obtain rfl : t = x := Option.some.inj (hdst.symm.trans hx)
    rw [hrec]
    exact ⟨rfl, rfl⟩
  · rw [hrec]
    exact ⟨rfl, rfl, rfl⟩

/-- What a descriptor publishes for the name that it writes. -/
theorem Ctl.publishDesc_spec (c : Ctl) (d : Desc) : c.Renames (c.publishDesc d) ∧
    ∀ n, d.writes.head? = some n → (c.name n).Committed ((c.publishDesc d).name n) d := by
  have hhead : ∀ {c' : Ctl} {n : Nat}, d.writes.head? = some n → c.Renames c' ∧ (c.name n).Committed (c'.name n) d →
      c.Renames c' ∧ ∀ m, d.writes.head? = some m → (c.name m).Committed (c'.name m) d := fun hn ⟨hren, hcomm⟩ =>
    ⟨hren, fun m hm => Option.some.inj (hn.symm.trans hm) ▸ hcomm⟩
  unfold Ctl.publishDesc
  split
  next _ n hkind hn => exact hhead hn (c.publishFree_spec hkind n)
  next n t hkind hn hdst => exact hhead hn (c.publishAlloc_spec hkind hdst n)
  next n t hn hdst h13 h12 =>
    obtain ⟨hren, hname⟩ := c.publish_spec n t d.commitFlags
    refine hhead hn ⟨hren, fun h => absurd h h13, fun _ x hx => ?_, fun h => absurd h h12⟩
    obtain rfl : t = x := Option.some.inj (hdst.symm.trans hx)
    rw [hname]
    exact ⟨rfl, rfl⟩
  next hnot13 hnone _ =>
    refine ⟨.refl c, fun n hn => ⟨fun h => (hnot13 n h hn).elim, fun _ x hx => (hnone n x hn hx).elim, fun _ hsome => ?_⟩⟩
    obtain ⟨x, hx⟩ := Option.isSome_iff_exists.mp hsome
    exact (hnone n x hn hx).elim

/-- Outside a pair a status is final at once. -/
theorem Ctl.Settled.endsWith_of_alone {c : Ctl} {k : Key} {st de : Nat} (h : c.Settled k st de) (halone : c.paired = false) :
    c.endsWith k st de := by
  obtain ⟨e, hdesc, hst, hde, hfinal | ⟨-, hpaired, -⟩⟩ := h
  · exact ⟨e, hdesc, hfinal, hst, hde⟩
  · simp [halone] at hpaired

/-- A commit whose incarnations stand publishes and completes; one whose name has changed completes with TILE_NAME (R53, R94). -/
theorem Ctl.commitNow_spec {c : Ctl} {d : Desc} (hdesc : c.desc? d.key = some d) (hstage : d.stage = .written) :
    (d.writes.all (c.incarnationOk d) = false →
      (c.commitNow d).concludes d.key 0x13 0 ∧ (c.commitNow d).names = c.names) ∧
    (d.writes.all (c.incarnationOk d) = true → c.paired = false →
      (c.commitNow d).endsWith d.key d.goodStatus 0 ∧
        ∀ n, d.writes.head? = some n → (c.name n).Committed ((c.commitNow d).name n) d) := by
  refine ⟨fun hbad => ?_, fun hok hpaired => ?_⟩
  · have hput : (c.modDesc d.key fun d => { d with stage := .written, sigWait := false }).desc? d.key =
        some { d with stage := .written, sigWait := false } := by
      refine (Ctl.desc?_modDesc_self _ _ _ ?_).trans ?_
      · exact fun _ => rfl
      · rw [hdesc]
        rfl
    rw [Ctl.commitNow, if_neg (by simp [hbad])]
    exact ⟨(Ctl.finish_settled hput rfl (by simp) _ _).concludes, (Ctl.finish_apart _ _ _ _).names⟩
  · obtain ⟨hren, hcomm⟩ := c.publishDesc_spec d
    have hput : ((c.publishDesc d).modDesc d.key fun d => { d with committed := true }).desc? d.key =
        some { d with committed := true } := by
      refine (Ctl.desc?_modDesc_self _ _ _ ?_).trans ?_
      · exact fun _ => rfl
      · rw [hren.desc?, hdesc]
        rfl
    have hapart := ((c.publishDesc d).modDesc d.key fun d => { d with committed := true }).finish_apart d.key d.goodStatus 0
    have hset := Ctl.finish_settled hput (by simp [Desc.completed, hstage]) (by simp [hstage]) d.goodStatus 0
    have halone : (((c.publishDesc d).modDesc d.key fun d => { d with committed := true }).finish d.key d.goodStatus 0).paired =
        false := hapart.paired.trans (hren.2.trans hpaired)
    rw [Ctl.commitNow, if_pos hok]
    refine ⟨hset.endsWith_of_alone halone, fun n hn => ?_⟩
    have hname : (((c.publishDesc d).modDesc d.key fun d => { d with committed := true }).finish d.key d.goodStatus 0).name n =
        (c.publishDesc d).name n := by
      rw [Ctl.name, hapart.names]
      rfl
    rw [hname]
    exact hcomm n hn

/-! ### Commits in a pair (R317) -/

/-- Words that an empty, ungated link takes go out at once (R424). -/
theorem Ctl.sendLink_outbox {c : Ctl} {l : Nat} (hgated : c.linksGated = false) (howed : (c.link l).owed = []) (kind ctl : Nat)
    (ws : List Word) : (c.sendLink l kind ctl ws).outbox = c.outbox ++ [.link l kind ctl ws] := by
  have hcharge : ∀ (c : Ctl) (k n : Nat), (c.charge .background k n).outbox = c.outbox := fun _ _ _ => rfl
  rw [Ctl.sendLink, Ctl.sendLinkFor, hgated, howed]
  simp only [List.isEmpty_nil, Bool.not_true, Bool.or_self, Bool.false_eq_true, if_false]
  rw [Ctl.modLink_outbox]
  split
  · rfl
  · exact congrArg (· ++ _) (hcharge c _ _)

theorem Ctl.sigFor_putSig (c : Ctl) (g : Sig) : (c.putSig g).sigFor g.ring g.idx g.row = g := by
  have hnone : (c.sigs.filter fun s => !(s.ring = g.ring && s.idx = g.idx && s.row = g.row)).find?
      (fun s => s.ring = g.ring && s.idx = g.idx && s.row = g.row) = none := by
    refine List.find?_eq_none.mpr fun s hs => ?_
    simpa only [Bool.not_eq_true', Bool.not_eq_true] using (List.mem_filter.mp hs).2
  simp only [Ctl.sigFor, Ctl.putSig]
  rw [List.find?_append, hnone]
  simp

/-- The fields by which a signature is found are those asked for. -/
theorem Ctl.sigFor_key (c : Ctl) (ring idx : Nat) (row : Option Nat) :
    (c.sigFor ring idx row).ring = ring ∧ (c.sigFor ring idx row).idx = idx ∧ (c.sigFor ring idx row).row = row := by
  unfold Ctl.sigFor
  cases h : c.sigs.find? fun s => s.ring = ring && s.idx = idx && s.row = row with
  | none => exact ⟨rfl, rfl, rfl⟩
  | some g => simpa [and_assoc] using List.find?_some h

/-- With the own signature sent and none of the peer's there, nothing is compared yet. -/
theorem Ctl.compareCommit_sendSig {c : Ctl} {k : Key} (hpeer : (c.sigFor k.ring k.idx none).peer = none) (s : BitVec 64) :
    (c.sendSig k none s).compareCommit k.ring k.idx = c.sendSig k none s := by
  have hkept : ((c.sendSig k none s).sigFor k.ring k.idx none).peer = none := by
    obtain ⟨hring, hidx, hrow⟩ := c.sigFor_key k.ring k.idx none
    let g : Sig := { c.sigFor k.ring k.idx none with local_ := some s, deadline := c.after (c.ticksOf rPAIR_CFG 0 16) }
    have hself : (c.sendSig k none s).sigFor g.ring g.idx g.row = g := Ctl.sigFor_putSig _ g
    rw [show g.ring = k.ring from hring, show g.idx = k.idx from hidx, show g.row = none from hrow] at hself
    exact (congrArg Sig.peer hself).trans hpeer
  rw [Ctl.compareCommit, hkept]
  cases ((c.sendSig k none s).sigFor k.ring k.idx none).local_ <;> rfl

/-- In a pair the signature of the result goes out first, and the descriptor waits for the peer's. -/
theorem Ctl.signCommit_spec {c : Ctl} {d : Desc} (cells : Cells) (hdesc : c.desc? d.key = some d)
    (hpeer : (c.sigFor d.key.ring d.key.idx none).peer = none) (hgated : c.linksGated = false)
    (howed : (c.link c.pairLink).owed = []) :
    (∃ e, (c.signCommit cells d).desc? d.key = some e ∧ e.stage = .peer ∧ e.sigWait = true) ∧
      (c.signCommit cells d).outbox = c.outbox ++
        [.link c.pairLink 10 0 (sigWords d.key.ring d.key.idx none (c.signature cells d))] := by
  have hput : (c.modDesc d.key fun d => { d with stage := .peer, sigWait := true }).desc? d.key =
      some { d with stage := .peer, sigWait := true } := by
    refine (Ctl.desc?_modDesc_self _ _ _ ?_).trans ?_
    · exact fun _ => rfl
    · rw [hdesc]
      rfl
  have hsign : c.signCommit cells d =
      (c.modDesc d.key fun d => { d with stage := .peer, sigWait := true }).sendSig d.key none (c.signature cells d) :=
    Ctl.compareCommit_sendSig (c := c.modDesc d.key fun d => { d with stage := .peer, sigWait := true }) hpeer _
  rw [hsign]
  refine ⟨⟨_, ((Ctl.sendSig_beside _ _ _ _).desc? _).trans hput, rfl, rfl⟩, ?_⟩
  exact Ctl.sendLink_outbox (c := c.modDesc d.key fun d => { d with stage := .peer, sigWait := true }) hgated howed _ _ _

/-- Settles O43: a release and a grant by the first descriptor that may go on, a commit by the names that it publishes, and in a pair
by the signature that goes out first. -/
theorem grantsAndCommits : Obligations.GrantsAndCommits := by
  refine ⟨?_, ?_, ?_, ?_⟩
  · intro s k d ht hadmit hfind hdesc hfree
    refine ⟨_, { d with stage := .check }, exec_dependencyRelease ht hadmit hfind hfree, ?_, rfl⟩
    refine (Ctl.desc?_modDesc_self _ _ _ ?_).trans ?_
    · exact fun _ => rfl
    · rw [hdesc]
      rfl
  · intro s d r x ht hissue hwanted hslots htested hfind hdesc href hshort hstand hpoison hfold hroom hplace hcalm
    have hexec := exec_freshSlotGrant ht hissue hwanted hslots htested hshort hfind
    rw [Ctl.tryPass5_of_place hdesc href hwanted hshort hstand hpoison hfold hroom hplace] at hexec
    obtain ⟨e, he, hsrcs, hadm⟩ := Ctl.pass5_spec (x := x) hdesc (Ctl.rowNeeds_of_calm hcalm) (Desc.isStream_of_dRef href)
    refine ⟨_, e, hexec, he, hsrcs, hadm, fun hkind => ?_⟩
    obtain ⟨⟨e', he', hwritten, hdst⟩, hfresh⟩ := Ctl.pass5_alloc (x := x) hdesc hkind
    obtain rfl : e = e' := Option.some.inj (he.symm.trans he')
    exact ⟨hwritten, hdst, hfresh⟩
  · intro s k i d ht hfind hdesc halone
    obtain ⟨hbad, hok⟩ := Ctl.commitNow_spec hdesc (Ctl.stage_of_commitDesc hfind)
    have hstep : s.ctl.commitStep s.cells d = s.ctl.commitNow d := by
      rw [Ctl.commitStep]
      rcases halone with hpaired | hfail
      · simp [hpaired]
      · simp [hfail]
    refine ⟨_, exec_commit ht hfind, fun h => ?_, fun h => ?_⟩ <;> simp only [hstep]
    · exact hbad h
    · have hpaired : s.ctl.paired = false := halone.resolve_right (by simp [h])
      obtain ⟨hend, hnames⟩ := hok h hpaired
      refine ⟨hend, fun n hn => ?_⟩
      obtain ⟨hfree, htable, halloc⟩ := hnames n hn
      exact ⟨hfree, htable, halloc⟩
  · intro s k i d ht hfind hdesc hpaired hok hpeer hgated howed
    obtain ⟨⟨e, he, hstage, hsig⟩, hout⟩ := Ctl.signCommit_spec s.cells hdesc hpeer hgated howed
    have hstep : s.ctl.commitStep s.cells d = s.ctl.signCommit s.cells d := by simp [Ctl.commitStep, hpaired, hok]
    have hexec := exec_commit ht hfind
    rw [hstep] at hexec
    exact ⟨_, e, hexec, he, hstage, hsig, hout⟩

end Sys2Proof.Machine

/-!
SUPPORT. What the block's own work leaves of the unit ports: completing descriptors, draining rings, translating bursts, and starting
TILE_OPs takes no beat off a port, counts none, and brings no port to life.
-/
namespace Sys2Proof.Machine

/-! ### A port that stays in its place -/

/-- `p'` is `p` later on: the same beats are outstanding, whatever became of their instructions, and the unit has not come or gone; a
QUIESCING port may have nothing left (R182), and a port that takes no work raises no request. -/
structure Port.Stays (p p' : Port) : Prop where
  seqs : p'.outst.map (·.seq) = p.outst.map (·.seq)
  seq : p'.seq = p.seq
  present : p'.present = p.present
  cause : p'.cause = p.cause
  state : p'.state = p.state ∨ (p.state = .quiescing ∧ p'.state = .quiesced)
  request : p.state ∉ [.ready, .quiescing] → p.opReq = none → p'.opReq = none

theorem Port.Stays.refl (p : Port) : p.Stays p := ⟨rfl, rfl, rfl, rfl, .inl rfl, fun _ h => h⟩

/-- A port that takes no work takes none later on. -/
theorem Port.Stays.idle {p p' : Port} (h : p.Stays p') (hidle : p.state ∉ [.ready, .quiescing]) :
    p'.state ∉ [.ready, .quiescing] := by
  rcases h.state with hsame | ⟨-, hquiesced⟩
  · rwa [hsame]
  · rw [hquiesced]
    decide

theorem Port.Stays.trans {p p' p'' : Port} (h : p.Stays p') (h' : p'.Stays p'') : p.Stays p'' := by
  refine ⟨h'.seqs.trans h.seqs, h'.seq.trans h.seq, h'.present.trans h.present, h'.cause.trans h.cause, ?_,
    fun hidle hnone => h'.request (h.idle hidle) (h.request hidle hnone)⟩
  rcases h.state with hsame | ⟨hquiescing, hquiesced⟩
  · rw [← hsame]
    exact h'.state
  · rcases h'.state with hsame' | ⟨hquiescing', -⟩
    · exact .inr ⟨hquiescing, hsame'.trans hquiesced⟩
    · rw [hquiesced] at hquiescing'
      cases hquiescing'

/-- Only a QUIESCING port changes its state. -/
theorem Port.Stays.state_eq {p p' : Port} (h : p.Stays p') (hne : p.state ≠ .quiescing) : p'.state = p.state :=
  h.state.resolve_right fun hq => hne hq.1

theorem Port.Stays.outst_nil {p p' : Port} (h : p.Stays p') (hnil : p.outst = []) : p'.outst = [] := by
  have hseqs := h.seqs
  rw [hnil] at hseqs
  exact List.map_eq_nil_iff.mp hseqs

theorem Port.stays_forget (p : Port) (k : Key) : p.Stays (p.forget k) := by
  refine ⟨?_, rfl, rfl, rfl, .inl rfl, fun _ h => h⟩
  refine (List.map_map).trans (List.map_congr_left fun o _ => rfl)

/-! ### The registers of a port -/

/-- The registers of a port beside its errors and departures: PORT_CTL, PORT_CAP, OP_BEATS and W_BEATS, by their places in a page. -/
def portReg (o : Nat) : Bool := decide (0xA0000 ≤ o) && [0x44, 0x50, 0x54, 0x58, 0x5C, 0x60, 0x64].contains (o % 0x100)

/-- Registers one to a ring or slice lie at the place of the first. -/
theorem portReg_of_place {base o : Nat} (ho : o % 0x100 = base) (h : [0x44, 0x50, 0x54, 0x58, 0x5C, 0x60, 0x64].contains base = false) :
    portReg o = false := by
  rw [portReg, ho, h, Bool.and_false]

/-- Those of a slice lie in pages of four. -/
theorem portReg_slice_of {base n : Nat} (hlow : 0xA0000 ≤ base)
    (h : [0x44, 0x50, 0x54, 0x58, 0x5C, 0x60, 0x64].contains (base % 0x100) = true) : portReg (base + 0x400 * n) = true := by
  have hplace : (base + 0x400 * n) % 0x100 = base % 0x100 := by omega
  have hle : 0xA0000 ≤ base + 0x400 * n := by omega
  rw [portReg, hplace, h, decide_eq_true hle]
  rfl

/-- `c'` is `c` later on as far as its ports go. -/
structure Ctl.Attends (c c' : Ctl) : Prop where
  port : ∀ n, (c.port n).Stays (c'.port n)
  regs : ∀ o, portReg o = true → c'.reg o = c.reg o

theorem Ctl.Attends.refl (c : Ctl) : c.Attends c := ⟨fun _ => .refl _, fun _ _ => rfl⟩

theorem Ctl.Attends.trans {c c' c'' : Ctl} (h : c.Attends c') (h' : c'.Attends c'') : c.Attends c'' :=
  ⟨fun n => (h.port n).trans (h'.port n), fun o ho => (h'.regs o ho).trans (h.regs o ho)⟩

theorem Ctl.Attends.each {α : Type} (c : Ctl) (l : List α) {f : Ctl → α → Ctl} (hf : ∀ (c : Ctl) (a : α), c.Attends (f c a)) :
    c.Attends (c.each l f) :=
  Ctl.each_induction (P := c.Attends) (fun e a h => h.trans (hf e a)) l (.refl c)

theorem Ctl.Attends.ite {p : Prop} [Decidable p] {c c' : Ctl} (h : c.Attends c') : c.Attends (if p then c' else c) := by
  split
  · exact h
  · exact .refl c

theorem Ctl.port_congr {c c' : Ctl} (h : c'.slices = c.slices) (n : Nat) : c'.port n = c.port n := by
  rw [Ctl.port, Ctl.slice, h, Ctl.port, Ctl.slice]

/-- What touches no slice and no register of a port. -/
theorem Ctl.Attends.of_slices {c c' : Ctl} (hs : c'.slices = c.slices) (hr : ∀ o, portReg o = true → c'.reg o = c.reg o) :
    c.Attends c' := ⟨fun n => Ctl.port_congr hs n ▸ .refl _, hr⟩

/-- What touches no slice and no register. -/
theorem Ctl.Attends.of_same {c c' : Ctl} (hs : c'.slices = c.slices) (hp : c'.part = c.part) (hr : c'.regs = c.regs) : c.Attends c' :=
  .of_slices hs fun o _ => Ctl.reg_congr hp hr o

theorem Ctl.attends_setReg (c : Ctl) {off : Nat} (v : Word) (h : portReg off = false) : c.Attends (c.setReg off v) :=
  .of_slices rfl fun o ho => Ctl.reg_setReg_ne c v fun he => by simp [he, ho] at h

theorem Ctl.attends_modDesc (c : Ctl) (k : Key) (f : Desc → Desc) : c.Attends (c.modDesc k f) := .of_same rfl rfl rfl

theorem Ctl.attends_modPort (c : Ctl) (n : Nat) {f : Port → Port} (hf : (c.port n).Stays (f (c.port n))) :
    c.Attends (c.modPort n f) := by
  refine ⟨fun j => ?_, fun _ _ => rfl⟩
  rw [Ctl.modPort_port]
  split
  next h => exact h ▸ hf
  next => exact .refl _

theorem Ctl.Paces.attends {c c' : Ctl} (h : c.Paces c') : c.Attends c' :=
  .of_slices (by rw [h.frame]) fun o ho => h.keeps o fun he => by
    rw [List.mem_singleton.mp he] at ho
    exact absurd ho (by decide)

theorem portReg_notMem_doneRegs {o : Nat} (h : portReg o = true) : o ∉ doneRegs := fun hmem => by
  have hnone : ∀ o ∈ doneRegs, portReg o = false := by decide
  exact absurd h (by simp [hnone o hmem])

theorem Ctl.Apart.attends {c c' : Ctl} (h : c.Apart c') (hs : c'.slices = c.slices) : c.Attends c' :=
  .of_slices hs fun o ho => h.regs o (portReg_notMem_doneRegs ho)

/-! ### Completing a descriptor -/

theorem Ctl.attends_setSlots (c : Ctl) (ks : List Nat) (st : SlotState) (o : Owner) : c.Attends (c.setSlots ks st o) :=
  .each c ks fun _ _ => .of_same rfl rfl rfl

theorem Ctl.attends_clearSlots (c : Ctl) (ks : List Nat) : c.Attends (c.clearSlots ks) := by
  have hdrop : ∀ (c : Ctl) (k : Nat), c.Attends (c.dropLatches k) := fun c k => .each c _ fun c n => by
    split
    · exact .refl c
    · exact c.attends_modPort n ⟨rfl, rfl, rfl, rfl, .inl rfl, fun _ h => h⟩
  exact .each c ks fun c k => ((hdrop c k).trans (Ctl.attends_setSlots _ _ _ _)).trans (.of_same rfl rfl rfl)

theorem Ctl.attends_reapRetired (c : Ctl) : c.Attends c.reapRetired := c.attends_clearSlots _

@[simp] theorem Ctl.invalDone_slices (c : Ctl) : c.invalDone.slices = c.slices := by
  unfold Ctl.invalDone
  split <;> rfl

@[simp] theorem Ctl.dropBursts_slices (c : Ctl) (f : Burst → Bool) : (c.dropBursts f).slices = c.slices := Ctl.invalDone_slices _

theorem Ctl.attends_dropBursts (c : Ctl) (f : Burst → Bool) : c.Attends (c.dropBursts f) :=
  (c.dropBursts_beside f).attends (c.dropBursts_slices f)

theorem Ctl.attends_portEvt (c : Ctl) (n : Nat) : c.Attends (c.portEvt n) := by
  refine (c.portEvt_beside n).attends ?_
  unfold Ctl.portEvt Ctl.putMask
  split <;> rfl

/-- A port that enters a state says so in PORT_EVT alone (R185). -/
theorem Ctl.attends_quiesceDone (c : Ctl) (n : Nat) : c.Attends (c.quiesceDone n) := by
  unfold Ctl.quiesceDone Ctl.portEnter
  dsimp only
  split
  next h =>
    simp only [Bool.and_eq_true, decide_eq_true_eq] at h
    exact (c.attends_modPort n ⟨rfl, rfl, rfl, rfl, .inr ⟨h.1.1, rfl⟩, fun _ h => h⟩).trans (Ctl.attends_portEvt _ n)
  next => exact .refl c

theorem Ctl.attends_withdraw (c : Ctl) (k : Key) : c.Attends (c.withdraw k) := by
  unfold Ctl.withdraw
  dsimp only
  refine .trans ?_ (.each _ _ fun c n => ?_)
  · refine .trans (.trans ?_ (Ctl.attends_dropBursts _ _)) (.of_same rfl rfl rfl)
    exact .of_same rfl rfl rfl
  · split
    · exact (c.attends_modPort n (Port.stays_forget _ k)).trans (Ctl.attends_quiesceDone _ n)
    · exact .refl c

theorem Ctl.attends_abandonFresh (c : Ctl) (k : Key) : c.Attends (c.abandonFresh k) := by
  have hfree : ∀ (c : Ctl) (ks : List Nat), c.Attends (c.each ks fun c n => c.modSlot n fun s => { s with owner := .none }) :=
    fun c ks => .each c ks fun _ _ => .of_same rfl rfl rfl
  unfold Ctl.abandonFresh
  dsimp only
  refine .trans (.trans ?_ (Ctl.attends_clearSlots _ _)) (.of_same rfl rfl rfl)
  split
  · exact hfree c _
  · exact (hfree c _).trans (.of_same rfl rfl rfl)

theorem Ctl.attends_releaseMap (c : Ctl) (k : Key) : c.Attends (c.releaseMap k) := by
  refine (c.releaseMap_beside k).attends ?_
  unfold Ctl.releaseMap
  split
  · split <;> rfl
  · rfl

theorem Ctl.sendLink_slices (c : Ctl) (l kind ctl : Nat) (ws : List Word) : (c.sendLink l kind ctl ws).slices = c.slices := by
  have hcharge : ∀ (c : Ctl) (k n : Nat), (c.charge .background k n).slices = c.slices := fun _ _ _ => rfl
  unfold Ctl.sendLink Ctl.sendLinkFor
  split
  · rfl
  · dsimp only
    rw [Ctl.modLink_slices, Ctl.emit_slices]
    split
    · rfl
    · exact hcharge c _ _

theorem Ctl.attends_sendOutcome (c : Ctl) (k : Key) (status detail cursor : Nat) :
    c.Attends (c.sendOutcome k status detail cursor) := by
  refine (c.sendOutcome_beside k status detail cursor).attends ?_
  unfold Ctl.sendOutcome
  split
  · exact Ctl.sendLink_slices _ _ _ _ _
  · rfl

theorem Ctl.attends_sendSig (c : Ctl) (k : Key) (row : Option Nat) (s : BitVec 64) : c.Attends (c.sendSig k row s) :=
  (c.sendSig_beside k row s).attends (Ctl.sendLink_slices _ _ _ _ _)

theorem Ctl.attends_mismatch (c : Ctl) (g : Sig) (a b : BitVec 64) : c.Attends (c.mismatch g a b) := by
  have hhalt : ∀ (c : Ctl) (cause : Nat), (c.haltPair cause).slices = c.slices := by
    intro c cause
    unfold Ctl.haltPair
    split <;> rfl
  exact (c.mismatch_beside g a b).attends ((Ctl.sendLink_slices _ _ _ _ _).trans (hhalt _ 1))

theorem Ctl.attends_barrier (c : Ctl) (d : Desc) : c.Attends (c.barrier d) := by
  unfold Ctl.barrier
  exact .ite ((c.paces_modPower _).trans (Ctl.paces_startMargin _)).attends

theorem Ctl.paces_raiseVreq (c : Ctl) : c.Paces c.raiseVreq := by
  unfold Ctl.raiseVreq
  split
  · exact c.paces_putVreq _
  · exact .refl c

theorem Ctl.attends_wakeOnWork (c : Ctl) : c.Attends c.wakeOnWork := by
  have hset : c.Attends (c.setRf rPSTATE_STATUS 0 3 5) := c.attends_setReg _ (by decide)
  unfold Ctl.wakeOnWork
  refine .ite (.trans ?_ (Ctl.paces_raiseVreq _).attends)
  split
  · exact hset
  · exact hset.trans (Ctl.paces_modPower _ _).attends

theorem Ctl.attends_close (c : Ctl) (k : Key) : c.Attends (c.close k) := by
  unfold Ctl.close
  split
  · exact .refl c
  · split
    · exact .refl c
    · exact .of_same rfl rfl rfl

theorem Ctl.attends_fixNow (c : Ctl) (k : Key) (st de : Nat) : c.Attends (c.fixNow k st de) := by
  have hrefuse : ∀ c : Ctl, c.Attends ((c.setRf rXN_STATUS 16 8 de).count rREFUSALS 1) := fun c =>
    (c.attends_setReg _ (by decide)).trans (Ctl.attends_setReg _ _ (by decide))
  unfold Ctl.fixNow
  split
  · exact .refl c
  · split
    · exact .refl c
    · refine .trans (.trans (.trans ?_ (Ctl.attends_modDesc _ k _)) (Ctl.attends_close _ k)) (Ctl.attends_reapRetired _)
      refine .trans (.trans (.trans ?_ (.ite (Ctl.attends_sendOutcome _ _ _ _ _))) (.ite (hrefuse _))) (.ite (Ctl.attends_barrier _ _))
      exact ((c.attends_withdraw k).trans (Ctl.attends_abandonFresh _ k)).trans (Ctl.attends_releaseMap _ k)

theorem Ctl.attends_fix (c : Ctl) (k : Key) (st de : Nat) : c.Attends (c.fix k st de) := by
  have hpropose : ∀ d, c.Attends (c.propose d st de) := by
    intro d
    have hput := ((c.attends_withdraw d.key).trans (Ctl.attends_releaseMap _ d.key)).trans
      (Ctl.attends_modDesc _ d.key fun e => e.proposing st de)
    unfold Ctl.propose
    dsimp only
    split
    · exact hput
    · exact hput.trans (Ctl.attends_sendSig _ _ _ _)
  have hagree : ∀ (c : Ctl) (d : Desc), c.Attends (c.agree d st de) := by
    intro c d
    have hsigs : ∀ gs, c.Attends { c with sigs := gs } := fun _ => .of_same rfl rfl rfl
    unfold Ctl.agree
    dsimp only
    split
    · split
      · exact ((hsigs _).trans (Ctl.attends_setReg _ _ (by decide))).trans (Ctl.attends_fixNow _ _ _ _)
      · exact (hsigs _).trans (Ctl.attends_mismatch _ _ _ _)
    · exact .refl c
  unfold Ctl.fix
  split
  · exact .refl c
  · split
    · exact c.attends_fixNow k st de
    · split
      · exact .refl c
      · exact (hpropose _).trans (hagree _ _)

theorem Ctl.attends_complete (c : Ctl) (k : Key) (st de : Nat) : c.Attends (c.complete k st de) := by
  unfold Ctl.complete
  split
  · exact c.attends_fix k st de
  · exact (c.attends_fix k st de).trans (Ctl.attends_fix _ _ st de)

/-- Completing a descriptor takes its beats for lost, and no more. -/
theorem Ctl.attends_finish (c : Ctl) (k : Key) (st de : Nat) : c.Attends (c.finish k st de) := by
  refine (c.attends_complete k st de).trans (.each _ _ fun c d => ?_)
  exact .ite ((c.attends_fix _ _ _).trans (Ctl.attends_wakeOnWork _))

end Sys2Proof.Machine

/-!
SUPPORT. Rings that drain, and bursts that are translated and fail, leave the unit ports in their places.
-/
namespace Sys2Proof.Machine

/-! ### Rings -/

/-- Registers of a ring lie beside those of the ports. -/
theorem portReg_ring {base k : Nat} (h : [0x44, 0x50, 0x54, 0x58, 0x5C, 0x60, 0x64].contains (base % 0x100) = false) :
    portReg (base + 0x100 * k) = false := portReg_of_place (Nat.add_mul_mod_self_left _ _ _) h

theorem Ctl.attends_modRing (c : Ctl) (k : Nat) (f : Ring → Ring) : c.Attends (c.modRing k f) := .of_same rfl rfl rfl

theorem Ctl.attends_emit (c : Ctl) (o : Out) : c.Attends (c.emit o) := .of_same rfl rfl rfl

theorem Ctl.attends_modMem (c : Ctl) (f : Mem → Mem) : c.Attends (c.modMem f) := .of_same rfl rfl rfl

theorem Ctl.attends_funcSettle (c : Ctl) : c.Attends c.funcSettle :=
  .of_slices (by rw [c.funcSettle_frame.1]) fun o ho => c.funcSettle_frame.2 o fun he => by
    rw [List.mem_singleton.mp he] at ho
    exact absurd ho (by decide)

theorem Ctl.attends_settleRing (c : Ctl) (k : Nat) : c.Attends (c.settleRing k) := by
  rcases c.settleRing_cases k with h | ⟨v, h⟩ <;> rw [h]
  · exact .refl c
  · exact (((c.attends_setReg _ (portReg_ring (by decide))).trans (Ctl.attends_setReg _ _ (portReg_ring (by decide)))).trans
      (Ctl.attends_setReg _ _ (portReg_ring (by decide)))).trans (Ctl.attends_funcSettle _)

theorem Ctl.attends_disarm (c : Ctl) (k : Nat) : c.Attends (c.disarm k) := by
  have hoff : ∀ c : Ctl, c.Attends ((c.dropBursts fun b => decide (b.purpose = .watch k)).watchOff k) := fun c =>
    (((c.attends_dropBursts _).trans (Ctl.attends_modRing _ _ _)).trans
      (Ctl.attends_setReg _ _ (portReg_ring (by decide)))).trans (Ctl.attends_funcSettle _)
  unfold Ctl.disarm
  dsimp only
  split
  · exact (c.attends_emit _).trans (hoff _)
  · exact (c.attends_emit _).trans (hoff _)
  · exact hoff c

theorem Ctl.attends_cancelFences (c : Ctl) (k : Nat) : c.Attends (c.cancelFences k) := .each c _ fun c d => c.attends_fix d.key 0x40 8

theorem Ctl.attends_orphanStreams (c : Ctl) (k : Nat) : c.Attends (c.orphanStreams k) :=
  Ctl.orphanStreams_cases (P := c.Attends) (fun e x h => h.trans (e.attends_complete x _ _)) k (.refl c)

theorem Ctl.attends_drain (c : Ctl) (k : Nat) (cause : Option Nat) : c.Attends (c.drain k cause) := by
  have hput : c.Attends ((c.putRingState k 2).lower (rRING_CTL k) 0) :=
    (c.attends_setReg _ (portReg_ring (by decide))).trans (Ctl.attends_setReg _ _ (portReg_ring (by decide)))
  have hempty : ∀ (c : Ctl) (ds : List Desc) (f : Ring → Ring) (q : Burst → Bool), c.Attends
      (({ c.dropBursts q with descs := ds } : Ctl).modRing k f) := fun c ds f q =>
    (c.attends_dropBursts q).trans (.of_same rfl rfl rfl)
  have hrest : ∀ c : Ctl, c.Attends (((c.cancelFences k).orphanStreams k).settleRing k) := fun c =>
    ((c.attends_cancelFences k).trans (Ctl.attends_orphanStreams _ k)).trans (Ctl.attends_settleRing _ k)
  unfold Ctl.drain
  split
  · exact .refl c
  · refine .trans (.trans (.trans hput ?_) (hempty _ _ _ _)) (hrest _)
    refine .trans ?_ (Ctl.attends_disarm _ k)
    split
    · exact Ctl.attends_setReg _ _ (portReg_ring (by decide))
    · exact .refl _

theorem Ctl.attends_stopStart (c : Ctl) (k : Nat) : c.Attends (c.stopStart k) := by
  have hlower : ∀ c : Ctl, c.Attends (c.lower (rRING_CTL k) 0) := fun c => c.attends_setReg _ (portReg_ring (by decide))
  unfold Ctl.stopStart
  split
  · exact (c.attends_modRing k _).trans (hlower _)
  · exact hlower c

/-! ### Failures of bursts -/

theorem Ctl.attends_recordFault (c : Ctl) (k : Key) (final : Bool) : c.Attends (c.recordFault k final) := by
  have hheld : ∀ c : Ctl, c.Attends ((if final then c.modDesc k fun d => { d with stage := .final } else c).modRing k.ring fun r =>
      { r with recFault := true, held := if final then r.held ++ [k] else r.held }) := fun c =>
    (Ctl.Attends.ite (c.attends_modDesc k _)).trans (Ctl.attends_modRing _ _ _)
  unfold Ctl.recordFault
  dsimp only
  split
  · exact ((hheld c).trans (Ctl.attends_stopStart _ _)).trans (Ctl.attends_setReg _ _ (portReg_ring (by decide)))
  · exact ((hheld c).trans (Ctl.attends_drain _ _ _)).trans (Ctl.attends_settleRing _ _)

theorem Ctl.attends_ringFault (c : Ctl) (p : BPurpose) : c.Attends (c.ringFault p) := by
  unfold Ctl.ringFault
  split
  · exact c.attends_drain _ _
  · exact c.attends_drain _ _
  · exact c.attends_drain _ _
  · exact c.attends_recordFault _ _
  · exact c.attends_recordFault _ _
  · exact (c.attends_modRing _ _).trans (Ctl.attends_drain _ _ _)
  · exact .refl c

theorem Ctl.rowFail_slices (c : Ctl) (k : Key) (f : RowFail) : (c.rowFail k f).slices = c.slices := by
  unfold Ctl.rowFail
  split
  · rfl
  · exact Ctl.dropBursts_slices _ _

theorem Ctl.attends_rowFail (c : Ctl) (k : Key) (f : RowFail) : c.Attends (c.rowFail k f) := by
  unfold Ctl.rowFail
  split
  · exact .refl c
  · exact (c.attends_modDesc k _).trans (Ctl.attends_dropBursts _ _)

theorem Ctl.attends_dropPrefetch (c : Ctl) (k : Key) : c.Attends (c.dropPrefetch k) := by
  have hoperand : ∀ (c : Ctl) (q : Key) (n : Nat), c.Attends (c.dropOperand q n) := by
    intro c q n
    unfold Ctl.dropOperand
    refine .ite ?_
    exact (c.attends_modPort n (f := fun x => { x with operands := x.operands.del 2 })
      ⟨rfl, rfl, rfl, rfl, .inl rfl, fun _ h => h⟩).trans (.of_same rfl rfl rfl)
  have hdrop : ∀ c : Ctl, c.Attends ((((c.withdraw k).abandonFresh k).modDesc k fun d => { d with
      prefetched := false, pfPages := [], done := [], buf := [], aux := [], bad := none, prog := 0 }).count rPF_DROPPED 1) := fun c =>
    (((c.attends_withdraw k).trans (Ctl.attends_abandonFresh _ k)).trans (Ctl.attends_modDesc _ k _)).trans
      (Ctl.attends_setReg _ _ (by decide))
  unfold Ctl.dropPrefetch
  split
  · refine .ite (.trans ?_ (hdrop _))
    split
    · exact .each c _ fun c n => hoperand c _ n
    · exact .refl c
  · exact .refl c

theorem Ctl.attends_burstFails (c : Ctl) (b : Burst) (status detail : Nat) (parks : Bool) :
    c.Attends (c.burstFails b status detail parks) := by
  have hrow : ∀ k r, c.Attends (if b.prefetch then c.dropPrefetch k
      else c.rowFail k { row := r, status := status, detail := detail, parks := parks }) := by
    intro k r
    split
    · exact c.attends_dropPrefetch k
    · exact c.attends_rowFail k _
  have hservice : ∀ f, c.Attends (c.modMsq f) := fun _ => .of_same rfl rfl rfl
  unfold Ctl.burstFails
  dsimp only
  split
  · exact hrow _ _
  · exact hrow _ _
  · exact hrow _ _
  · exact hservice _
  · exact hservice _
  · exact c.attends_ringFault _

/-! ### Translation -/

theorem Ctl.cacheMicro_slices (c : Ctl) (ch : Nat) (x : Xlate) : (c.cacheMicro ch x).slices = c.slices := by
  unfold Ctl.cacheMicro
  dsimp only
  split <;> rfl

theorem Ctl.attends_cacheMicro (c : Ctl) (ch : Nat) (x : Xlate) : c.Attends (c.cacheMicro ch x) := by
  unfold Ctl.cacheMicro
  dsimp only
  split
  · exact .refl c
  · exact .of_same rfl rfl rfl

theorem Ctl.attends_resolve (c : Ctl) (b : Burst) (x : Xlate) : c.Attends (c.resolve b x) := by
  have hready : ∀ (p : BPurpose) (f : Burst → Burst) (ch : Nat), c.Attends ((c.modBurst p f).cacheMicro ch x) := fun p f ch =>
    (c.attends_modMem _).trans (Ctl.attends_cacheMicro _ ch x)
  have hdawn : ∀ c' : Ctl, c.Attends c' → c.Attends (if c'.pstate ∈ [0, 1, 3] then c'.startDawn else c') := fun c' h =>
    h.trans (.ite c'.paces_startDawn.attends)
  unfold Ctl.resolve
  dsimp only
  split
  · exact (c.attends_dropBursts _).trans (Ctl.attends_burstFails _ _ _ _ _)
  · split
    · exact ((c.attends_dropBursts _).trans (Ctl.attends_modRing _ _ _)).trans (Ctl.attends_emit _ _)
    · split
      · exact (hdawn _ (hready _ _ _)).trans (.ite (Ctl.attends_modDesc _ _ _))
      · exact hdawn _ (hready _ _ _)

theorem Ctl.attends_startWalk (c : Ctl) (b : Burst) : c.Attends (c.startWalk b) :=
  ((c.attends_modMem _).trans (Ctl.attends_setReg _ _ (by decide))).trans (Ctl.attends_emit _ _)

theorem Ctl.attends_translate (c : Ctl) (p : BPurpose) : c.Attends (c.translate p) := by
  unfold Ctl.translate
  split
  · exact .refl c
  · split
    · exact .refl c
    · split
      · exact c.attends_modMem _
      · split
        · exact (c.attends_setReg _ (by decide)).trans (Ctl.attends_resolve _ _ _)
        · split
          · exact c.attends_modMem _
          · split
            · exact (c.attends_startWalk _).trans (Ctl.attends_modMem _ _)
            · exact .refl c

/-- Whatever is requested, and whatever of it fails, no beat of a port is taken off or counted. -/
theorem Ctl.attends_request (c : Ctl) (bs : List Burst) : c.Attends (c.request bs) :=
  (c.attends_modMem _).trans (.each _ _ Ctl.attends_translate)

end Sys2Proof.Machine

/-!
SUPPORT. What a port does by itself (R84, R156, R265), and what starts on the ports and leaves them (R109, R179, R180).
-/
namespace Sys2Proof.Machine

/-! ### Where only rows need translations, a request touches no port -/

theorem Ctl.Paces.slices {c c' : Ctl} (h : c.Paces c') : c'.slices = c.slices := by rw [h.frame]

theorem Ctl.burstFails_slices (c : Ctl) {b : Burst} (hkey : b.purpose.key?.isSome = true) (hpf : b.prefetch = false)
    (status detail : Nat) (parks : Bool) : (c.burstFails b status detail parks).slices = c.slices := by
  have hrow : ∀ k r, (if b.prefetch then c.dropPrefetch k
      else c.rowFail k { row := r, status := status, detail := detail, parks := parks }).slices = c.slices := by
    intro k r
    rw [hpf]
    exact c.rowFail_slices k _
  unfold Ctl.burstFails
  dsimp only
  rcases BPurpose.cases_of_key hkey with ⟨k, r, bl, q, hp⟩ | ⟨k, r, bl, q, hp⟩ | ⟨k, r, bl, q, hp⟩ | ⟨k, q, hp⟩ <;> rw [hp]
  · exact hrow k r
  · exact hrow k r
  · exact hrow k r
  · rfl

theorem Ctl.resolve_slices (c : Ctl) {b : Burst} (hkey : b.purpose.key?.isSome = true) (hpf : b.prefetch = false) (x : Xlate) :
    (c.resolve b x).slices = c.slices := by
  have hready : ∀ (f : Burst → Burst) (ch : Nat), ((c.modBurst b.purpose f).cacheMicro ch x).slices = c.slices := fun _ ch =>
    Ctl.cacheMicro_slices _ ch x
  have hdawn : ∀ c' : Ctl, c'.slices = c.slices → (if c'.pstate ∈ [0, 1, 3] then c'.startDawn else c').slices = c.slices := by
    intro c' h
    split
    · exact c'.paces_startDawn.slices.trans h
    · exact h
  unfold Ctl.resolve
  dsimp only
  split
  · exact (Ctl.burstFails_slices _ hkey hpf _ _ _).trans (c.dropBursts_slices _)
  · rcases BPurpose.cases_of_key hkey with ⟨k, r, bl, q, hp⟩ | ⟨k, r, bl, q, hp⟩ | ⟨k, r, bl, q, hp⟩ | ⟨k, q, hp⟩ <;>
      rw [hp] at hready ⊢
    · exact hdawn _ (hready _ _)
    · exact hdawn _ (hready _ _)
    · dsimp only
      rw [hpf]
      exact hdawn _ (hready _ _)
    · exact hdawn _ (hready _ _)

theorem Ctl.RowNeeds.translate_slices {c : Ctl} (h : c.RowNeeds) (p : BPurpose) : (c.translate p).slices = c.slices := by
  unfold Ctl.translate
  split
  · rfl
  next b hb =>
    have hstate := List.find?_some hb
    simp only [Bool.and_eq_true, decide_eq_true_eq] at hstate
    obtain ⟨hkey, hpf⟩ := h b (List.mem_of_find?_eq_some hb) hstate.2
    split
    · rfl
    · split
      · rfl
      · split
        · exact Ctl.resolve_slices _ hkey hpf _
        · split
          · rfl
          · split <;> rfl

theorem Ctl.RowNeeds.request_slices {c : Ctl} (h : c.RowNeeds) {bs : List Burst}
    (hbs : ∀ b ∈ bs, b.purpose.key?.isSome = true ∧ b.prefetch = false) : (c.request bs).slices = c.slices := by
  have hadd : (c.addBursts bs).RowNeeds := fun b hb hneed => (List.mem_append.mp hb).elim (fun hb => h b hb hneed) (hbs b)
  exact (Ctl.each_induction (P := fun e => e.RowNeeds ∧ e.slices = c.slices)
    (fun e p he => ⟨(e.works_translate p he.1).2, (he.1.translate_slices p).trans he.2⟩) _ ⟨hadd, rfl⟩).2

/-! ### A port that pumps -/

/-- From `c` to `c'` ports have pumped: they stay in their places, and where only rows need translations each has the fragments
and the outstanding beats that it had. -/
structure Ctl.Pumps (c c' : Ctl) : Prop where
  attends : c.Attends c'
  works : c.Works c'
  beats : c.RowNeeds → ∀ n, (c'.port n).queue = (c.port n).queue ∧ (c'.port n).outst = (c.port n).outst

theorem Ctl.Pumps.refl (c : Ctl) : c.Pumps c := ⟨.refl c, .refl c, fun _ _ => ⟨rfl, rfl⟩⟩

theorem Ctl.Pumps.trans {c c' c'' : Ctl} (h : c.Pumps c') (h' : c'.Pumps c'') : c.Pumps c'' := by
  refine ⟨h.attends.trans h'.attends, h.works.trans h'.works, fun hneeds n => ?_⟩
  obtain ⟨hqueue, houtst⟩ := h.beats hneeds n
  obtain ⟨hqueue', houtst'⟩ := h'.beats (h.works hneeds).2 n
  exact ⟨hqueue'.trans hqueue, houtst'.trans houtst⟩

theorem Ctl.Pumps.each {α : Type} (c : Ctl) (l : List α) {f : Ctl → α → Ctl} (hf : ∀ (c : Ctl) (a : α), c.Pumps (f c a)) :
    c.Pumps (c.each l f) :=
  Ctl.each_induction (P := c.Pumps) (fun e a h => h.trans (hf e a)) l (.refl c)

theorem Ctl.Pumps.cond {p : Prop} [Decidable p] {c c' c'' : Ctl} (h : c.Pumps c') (h' : c.Pumps c'') :
    c.Pumps (if p then c' else c'') := by
  split
  · exact h
  · exact h'

/-- What touches no slice, as far as ports go. -/
theorem Ctl.Attends.pumps {c c' : Ctl} (h : c.Attends c') (hw : c.Works c') (hs : c'.slices = c.slices) : c.Pumps c' :=
  ⟨h, hw, fun _ n => by rw [Ctl.port_congr hs]; exact ⟨rfl, rfl⟩⟩

theorem Ctl.pumps_modPort (c : Ctl) (n : Nat) {f : Port → Port} (hf : (c.port n).Stays (f (c.port n)))
    (hq : (f (c.port n)).queue = (c.port n).queue) (ho : (f (c.port n)).outst = (c.port n).outst) : c.Pumps (c.modPort n f) := by
  refine ⟨c.attends_modPort n hf, c.works_modPort n f, fun _ j => ?_⟩
  rw [Ctl.modPort_port]
  split
  next h => exact h ▸ ⟨hq, ho⟩
  next => exact ⟨rfl, rfl⟩

theorem Ctl.Paces.pumps {c c' : Ctl} (h : c.Paces c') : c.Pumps c' := h.attends.pumps h.works h.slices

@[simp] theorem Ctl.charge_slices (c : Ctl) (who : Account) (k n : Nat) : (c.charge who k n).slices = c.slices := by
  unfold Ctl.charge Ctl.addAccount
  dsimp only
  split
  · rfl
  · split <;> rfl

@[simp] theorem Ctl.charge_reg (c : Ctl) (who : Account) (k n o : Nat) : (c.charge who k n).reg o = c.reg o := by
  unfold Ctl.charge Ctl.addAccount
  dsimp only
  split
  · rfl
  · split <;> rfl

theorem Ctl.attends_charge (c : Ctl) (who : Account) (k n : Nat) : c.Attends (c.charge who k n) :=
  .of_slices (c.charge_slices who k n) fun o _ => c.charge_reg who k n o

theorem Ctl.pumps_charge (c : Ctl) (who : Account) (k n : Nat) : c.Pumps (c.charge who k n) :=
  (c.attends_charge who k n).pumps (c.works_charge who k n) (c.charge_slices who k n)

theorem Ctl.pumps_count (c : Ctl) {off : Nat} (n : Nat) (h : portReg off = false) : c.Pumps (c.count off n) :=
  (c.attends_setReg _ h).pumps (c.works_count off n) rfl

/-- Registers of a slice lie in pages of four. -/
theorem portReg_slice {base n : Nat} (h : [0x44, 0x50, 0x54, 0x58, 0x5C, 0x60, 0x64].contains (base % 0x100) = false) :
    portReg (base + 0x400 * n) = false := portReg_of_place (by omega) h

theorem Ctl.pumps_request (c : Ctl) {bs : List Burst} (hbs : ∀ b ∈ bs, b.purpose.key?.isSome = true ∧ b.prefetch = false) :
    c.Pumps (c.request bs) :=
  ⟨c.attends_request bs, c.works_request hbs, fun hneeds n => by rw [Ctl.port_congr (hneeds.request_slices hbs)]; exact ⟨rfl, rfl⟩⟩

theorem Ctl.pumps_needKey (c : Ctl) (n : Nat) (a : Assign) : c.Pumps (c.needKey n a) := by
  unfold Ctl.needKey
  split
  · exact .refl c
  · refine .cond (.refl c) (.cond ?_ ?_)
    · exact (c.pumps_modPort n ⟨rfl, rfl, rfl, rfl, .inl rfl, fun _ h => h⟩ rfl rfl).trans (Ctl.paces_startDawn _).pumps
    · refine c.pumps_request fun b hb => ?_
      obtain ⟨i, -, rfl⟩ := List.mem_map.mp hb
      exact ⟨rfl, rfl⟩

theorem Ctl.pumps_latchHit (c : Ctl) (n s : Nat) (k : Key) (l : Latch) : c.Pumps (c.latchHit n s k l) := by
  have hput : ∀ (c : Ctl) (ws : List Codeword), c.Pumps (c.putOperand n s ws) := fun c ws =>
    c.pumps_modPort n ⟨rfl, rfl, rfl, rfl, .inl rfl, fun _ h => h⟩ rfl rfl
  have hlatch : ∀ ls : Port → List Latch, c.Pumps (c.modPort n fun p => { p with latches := ls p }) := fun ls =>
    c.pumps_modPort n ⟨rfl, rfl, rfl, rfl, .inl rfl, fun _ h => h⟩ rfl rfl
  exact (((hlatch _).trans (Ctl.pumps_count _ 1 (portReg_slice (by decide)))).trans (Ctl.pumps_charge _ _ _ _)).trans (hput _ _)

theorem Ctl.attends_addJobs (c : Ctl) (js : List Job) : c.Attends (c.addJobs js) := .of_same rfl rfl rfl

theorem Ctl.pumps_addJobs (c : Ctl) (js : List Job) : c.Pumps (c.addJobs js) := (c.attends_addJobs js).pumps (c.works_addJobs js) rfl

theorem Ctl.pumps_fetchStream (c : Ctl) (n s : Nat) : c.Pumps (c.fetchStream n s) := by
  unfold Ctl.fetchStream
  split
  · exact .refl c
  · split
    · exact .refl c
    · split
      · exact .refl c
      · split
        · exact c.pumps_latchHit _ _ _ _
        · split
          · exact .refl c
          · exact (c.pumps_count 1 (portReg_slice (by decide))).trans (Ctl.pumps_addJobs _ _)

theorem Ctl.beat_slices (c : Ctl) (st : Stream) (who : Account) : (c.beat st who).slices = c.slices := by
  unfold Ctl.beat
  dsimp only
  split <;> exact c.paces_startDawn.slices

theorem Ctl.attends_beat (c : Ctl) (st : Stream) (who : Account) : c.Attends (c.beat st who) := by
  have htoken : ∀ (c : Ctl) (bs : Tab Nat), c.Attends (if c.power.pace = 2047 then c else { c with buckets := bs }) := fun c bs => by
    split
    · exact .refl c
    · exact .of_same rfl rfl rfl
  have hraise : ∀ c : Ctl, c.Attends c.raiseJobs := fun _ => .of_same rfl rfl rfl
  unfold Ctl.beat
  dsimp only
  refine .trans (.trans (.trans ?_ (htoken _ _)) (Ctl.paces_modPower _ _).attends) (Ctl.paces_modPower _ _).attends
  exact c.paces_startDawn.attends.trans (hraise _)

/-- A request goes up on a port that takes work alone (R156). -/
theorem Ctl.pumps_raiseReq (c : Ctl) (n : Nat) : c.Pumps (c.raiseReq n) := by
  unfold Ctl.raiseReq
  split
  · exact .refl c
  next a d _ =>
    dsimp only
    split
    · exact .refl c
    next hfree =>
      simp only [Bool.or_eq_true, not_or, decide_eq_true_eq, not_not] at hfree
      have hstate : (c.port n).state ∈ [PortState.ready, .quiescing] := hfree.1.1.2
      have hbeat : c.Pumps (c.startDawn.beat (.operand n) (.desc d.key)) := c.paces_startDawn.pumps.trans
        ((Ctl.attends_beat _ _ _).pumps (Ctl.works_beat _ _ _) (Ctl.beat_slices _ _ _))
      have hport : (c.startDawn.beat (.operand n) (.desc d.key)).port n = c.port n :=
        Ctl.port_congr ((Ctl.beat_slices _ _ _).trans c.paces_startDawn.slices) n
      split
      · split
        · exact c.paces_startDawn.pumps
        · refine (hbeat.trans (Ctl.pumps_modPort _ n ⟨rfl, rfl, rfl, rfl, .inl rfl, fun hidle => ?_⟩ rfl rfl)).trans
            (Ctl.paces_emit _ _).pumps
          rw [hport] at hidle
          exact absurd hstate hidle
      · exact .refl c

theorem Ctl.pumps_pumpPort (c : Ctl) (n : Nat) : c.Pumps (c.pumpPort n) := by
  have hfeed : c.Pumps (c.feedKeys n) := .each c _ fun c a => by
    split
    · exact .refl c
    · exact c.pumps_needKey n a
  unfold Ctl.pumpPort
  refine .cond (.refl c) ?_
  exact (((hfeed.trans (Ctl.pumps_fetchStream _ n 0)).trans (Ctl.pumps_fetchStream _ n 1)).trans
    (Ctl.pumps_fetchStream _ n 2)).trans (Ctl.pumps_raiseReq _ n)

/-- With no descriptor there is nothing to pump. -/
theorem Ctl.pumpPort_of_no_descs {c : Ctl} (h : c.descs = []) (n : Nat) : c.pumpPort n = c := by
  have hdesc : ∀ k, c.desc? k = none := fun k => by rw [Ctl.desc?, h, List.find?_nil]
  have hhead : c.head n = none := by
    unfold Ctl.head
    split
    · rw [hdesc, Option.map_none]
    · rfl
  have hkey : ∀ a, c.needKey n a = c := fun a => by simp only [Ctl.needKey, hdesc, Option.bind_none]
  have hfeed : c.feedKeys n = c := Ctl.each_induction (P := fun e => e = c) (fun e a he => by
    rw [he, hkey]
    split <;> rfl) _ rfl
  simp only [Ctl.pumpPort, hfeed, Ctl.fetchStream, Ctl.raiseReq, hhead, ite_self]

/-- Where what is requested waits for a walk, a port that pumps keeps its fragments and outstanding beats. -/
theorem Ctl.beats_pumpPort {c : Ctl} (h : ∀ d ∈ c.descs, c.RowNeeds) (n : Nat) :
    ((c.pumpPort n).port n).queue = (c.port n).queue ∧ ((c.pumpPort n).port n).outst = (c.port n).outst := by
  cases hdescs : c.descs with
  | nil => rw [Ctl.pumpPort_of_no_descs hdescs]; exact ⟨rfl, rfl⟩
  | cons d ds => exact (c.pumps_pumpPort n).beats (h d (by simp [hdescs])) n

/-! ### TILE_OPs start (R109) -/

theorem Ctl.attends_assign (c : Ctl) (k : Key) (as : List (Nat × Nat × Nat)) (load : Tab Word) : c.Attends (c.assign k as load) := by
  unfold Ctl.assign
  dsimp only
  refine .trans (.trans (.each c _ fun c n => c.attends_modPort n ?_) (Ctl.attends_modDesc _ k _))
    (.each _ _ fun c n => (c.pumps_pumpPort n).attends)
  exact ⟨rfl, rfl, rfl, rfl, .inl rfl, fun _ h => h⟩

theorem Ctl.attends_startTileOp (c : Ctl) (k : Key) : c.Attends (c.startTileOp k) := by
  have hraised : ∀ (c : Ctl) (b : Bool) (p : Nat), c.Attends (if b = true then c else c.phaseRaise p) := by
    intro c b p
    split
    · exact .refl c
    · exact (c.paces_phaseRaise p).attends
  have hrun : ∀ (c : Ctl) (f : Desc → Desc) (as : List (Nat × Nat × Nat)) (load : Tab Word),
      c.Attends ((c.modDesc k f).assign k as load) := fun c f as load =>
    (c.attends_modDesc k f).trans (Ctl.attends_assign _ k as load)
  unfold Ctl.startTileOp
  split
  · exact .refl c
  · dsimp only
    split
    · split
      · exact .refl c
      · split
        · exact c.attends_finish _ _ _
        · refine .trans ?_ (hrun _ _ _ _)
          split
          · exact (hraised c _ _).trans (.ite (Ctl.attends_modDesc _ _ _))
          · exact hraised c _ _
    · exact .refl c

theorem Ctl.attends_startHeld (c : Ctl) : c.Attends c.startHeld := .each c _ fun c d => c.attends_startTileOp d.key

/-! ### A unit leaves (R179, R180) -/

theorem Ctl.attends_reassign (c : Ctl) (n : Nat) : c.Attends (c.reassign n) := by
  have hforget : ∀ (c : Ctl) (k : Key), c.Attends (c.each (List.range c.slicesN) fun c m => c.modPort m (·.forget k)) := fun c k =>
    .each c _ fun c m => c.attends_modPort m (Port.stays_forget _ k)
  unfold Ctl.reassign
  dsimp only
  refine .trans (.trans (c.attends_modPort n ⟨rfl, rfl, rfl, rfl, .inl rfl, fun _ _ => rfl⟩) (.each _ _ fun c k => ?_))
    (Ctl.attends_startHeld _)
  split
  · exact .refl c
  · split
    · exact .refl c
    · split
      · exact (hforget c k).trans (Ctl.attends_modDesc _ k _)
      · exact (c.attends_modDesc k _).trans (Ctl.attends_assign _ k _ _)

end Sys2Proof.Machine

/-!
SUPPORT. A unit that leaves its port (R179, R182, R183), and the settled statement about PORT_CTL.
-/
namespace Sys2Proof.Machine

/-! ### A port that is idled -/

theorem Ctl.modPort_self (c : Ctl) (n : Nat) (f : Port → Port) : (c.modPort n f).port n = f (c.port n) := by
  rw [Ctl.modPort_port, if_pos rfl]

theorem Ctl.portEvt_port (c : Ctl) (n j : Nat) : (c.portEvt n).port j = c.port j := by
  unfold Ctl.portEvt Ctl.putMask
  split <;> rfl

theorem Ctl.portEvt_portReg (c : Ctl) (n : Nat) {o : Nat} (h : portReg o = true) : (c.portEvt n).reg o = c.reg o :=
  (c.attends_portEvt n).regs o h

/-- A port that enters a state has it, and the cause given with it. -/
theorem Ctl.portEnter_port (c : Ctl) (n : Nat) (st : PortState) (cause : Option Nat) :
    (c.portEnter n st cause).port n = { c.port n with state := st, cause := cause.getD (c.port n).cause } := by
  rw [Ctl.portEnter, Ctl.portEvt_port, Ctl.modPort_self]

theorem Ctl.portEnter_portReg (c : Ctl) (n : Nat) (st : PortState) (cause : Option Nat) {o : Nat} (h : portReg o = true) :
    (c.portEnter n st cause).reg o = c.reg o := Ctl.portEvt_portReg _ n h

/-- In `c'` port `n` has been idled in state `st`: no beat is outstanding there and none asked for; PRESENT and the registers of the
ports are those of `c`. -/
structure Ctl.Leaves (c c' : Ctl) (n : Nat) (st : PortState) (cause : Nat) : Prop where
  state : (c'.port n).state = st
  cause : (c'.port n).cause = cause
  outst : (c'.port n).outst = []
  request : (c'.port n).opReq = none
  present : (c'.port n).present = (c.port n).present
  regs : ∀ o, portReg o = true → c'.reg o = c.reg o

/-- What the block goes on to do does not bring the unit back. -/
theorem Ctl.Leaves.attends {c c' c'' : Ctl} {n : Nat} {st : PortState} {cause : Nat} (h : c.Leaves c' n st cause)
    (hst : st ∉ [.ready, .quiescing]) (ha : c'.Attends c'') : c.Leaves c'' n st cause := by
  have hport := ha.port n
  have hne : st ≠ .quiescing := fun he => hst (by simp [he])
  refine ⟨(hport.state_eq ?_).trans h.state, hport.cause.trans h.cause, hport.outst_nil h.outst, hport.request ?_ h.request,
    hport.present.trans h.present, fun o ho => (ha.regs o ho).trans (h.regs o ho)⟩
  · rw [h.state]
    exact hne
  · rw [h.state]
    exact hst

theorem Ctl.idlePort_port (c : Ctl) (n : Nat) : (c.idlePort n).port n = { c.port n with
    outst := [], operands := [], opReq := none, wDeadline := none, wReq := none, seqFresh := false, rcWords := [], rcIdx := 0,
    rcTries := 0 } := Ctl.modPort_self _ n _

theorem Ctl.leaves_idlePort {c c' : Ctl} {n : Nat} (hp : (c'.port n).present = (c.port n).present)
    (hr : ∀ o, portReg o = true → c'.reg o = c.reg o) :
    c.Leaves (c'.idlePort n) n (c'.port n).state (c'.port n).cause := by
  have hport := c'.idlePort_port n
  exact ⟨by rw [hport], by rw [hport], by rw [hport], by rw [hport], by rw [hport]; exact hp, hr⟩

/-- The state in which a unit that goes with a cause leaves its port (Tables 5.3, 5.7). -/
def leftState (cause : Nat) : PortState := if cause = 5 then .fenced else if cause = 6 then .absent else .gone

theorem leftState_idle (cause : Nat) : leftState cause ∉ [.ready, .quiescing] := by
  unfold leftState
  split
  · decide
  · split <;> decide

/-- A unit marked gone (R179). -/
theorem Ctl.markGone_leaves (c : Ctl) (n cause : Nat) : c.Leaves (c.markGone n cause) n (leftState cause) cause := by
  have henter := (c.bump (rPORT_GONE n) 0 16 1).portEnter_port n (leftState cause) (some cause)
  have hidle := Ctl.leaves_idlePort (c := c) (n := n)
    (c' := (c.bump (rPORT_GONE n) 0 16 1).portEnter n (leftState cause) (some cause)) (by rw [henter]; rfl) fun o ho =>
      (Ctl.portEnter_portReg _ n _ _ ho).trans ((c.attends_setReg _ (portReg_slice (by decide))).regs o ho)
  rw [henter] at hidle
  refine hidle.attends (leftState_idle cause) (.trans (.each _ _ fun c k => ?_) (Ctl.attends_reassign _ n))
  exact c.attends_finish k 0x42 0

/-- A unit taken from its port with no instruction lost. -/
theorem Ctl.leaves_reassign (c : Ctl) (n : Nat) {st : PortState} (hst : st ∉ [.ready, .quiescing]) :
    c.Leaves (((c.modPort n fun p => { p with state := st }).idlePort n).reassign n) n st (c.port n).cause := by
  have hport : (c.modPort n fun p => { p with state := st }).port n = { c.port n with state := st } := by
    rw [Ctl.modPort_self]
  have hidle := Ctl.leaves_idlePort (c := c) (n := n) (c' := c.modPort n fun p => { p with state := st }) (by rw [hport])
    fun _ _ => rfl
  rw [hport] at hidle
  exact hidle.attends hst (Ctl.attends_reassign _ n)

/-! ### PORT_CTL (R181 to R183) -/

/-- RESET makes a port ABSENT, but not a FENCED one, nor one gone with its slice, which is still out of service (R181, Table 5.3). -/
theorem Ctl.resetPort_leaves (c : Ctl) (n : Nat) :
    ∃ cause, c.Leaves (c.resetPort n) n (if (c.port n).state = .fenced then .fenced
      else if (c.port n).state = .gone ∧ (c.port n).cause = 7 ∧ c.isIn n = false then .gone else .absent) cause := by
  have hkept := Ctl.leaves_idlePort (c := c) (c' := c) (n := n) rfl fun _ _ => rfl
  unfold Ctl.resetPort
  by_cases hfenced : (c.port n).state = .fenced
  · refine ⟨(c.port n).cause, ?_⟩
    rw [if_pos (by simp [hfenced]), if_pos hfenced]
    rw [hfenced] at hkept
    exact hkept
  · rw [if_neg hfenced]
    by_cases hgone : (c.port n).state = .gone ∧ (c.port n).cause = 7 ∧ c.isIn n = false
    · refine ⟨(c.port n).cause, ?_⟩
      rw [if_pos (by simp [hgone]), if_pos hgone]
      rw [hgone.1] at hkept
      exact hkept
    · rw [if_neg (by simpa [hfenced] using hgone), if_neg hgone]
      split
      · exact ⟨_, c.markGone_leaves n 6⟩
      · exact ⟨_, c.leaves_reassign n (by decide)⟩

/-- FENCE makes any port FENCED (Table 5.3). -/
theorem Ctl.fencePort_spec (c : Ctl) (n : Nat) : ((c.fencePort n).port n).state = .fenced ∧
    ∀ o, portReg o = true → (c.fencePort n).reg o = c.reg o := by
  unfold Ctl.fencePort
  split
  next hfenced => exact ⟨hfenced, fun _ _ => rfl⟩
  next =>
    split
    · exact ⟨(c.markGone_leaves n 5).state, (c.markGone_leaves n 5).regs⟩
    · have hleaves := c.leaves_reassign n (st := .fenced) (by decide)
      exact ⟨hleaves.state, hleaves.regs⟩

/-- QUIESCE of a READY port (R182). -/
theorem Ctl.quiesce_spec (c : Ctl) (n : Nat) (hready : (c.port n).state = .ready) :
    ((c.quiesce n).port n).state = (if (c.port n).queue = [] ∧ (c.port n).outst = [] then .quiesced else .quiescing) ∧
      ∀ o, portReg o = true → (c.quiesce n).reg o = c.reg o := by
  have hport : (c.modPort n fun p => { p with state := .quiescing }).port n = { c.port n with state := .quiescing } := by
    rw [Ctl.modPort_self]
  unfold Ctl.quiesce
  rw [if_pos hready, Ctl.quiesceDone, hport]
  simp only [decide_true, Bool.true_and, Bool.and_eq_true, List.isEmpty_iff]
  split
  · exact ⟨by rw [Ctl.portEnter_port], fun o ho => (Ctl.portEnter_portReg _ n _ _ ho).trans rfl⟩
  · exact ⟨by rw [hport], fun _ _ => rfl⟩

/-- QUIESCE cleared: the port is READY, and TILE_OPs that wait for one start (R182). -/
theorem Ctl.unquiesce_spec (c : Ctl) (n : Nat) (h : (c.port n).state ∈ [PortState.quiescing, .quiesced]) :
    ((c.unquiesce n).port n).state = .ready ∧ ∀ o, portReg o = true → (c.unquiesce n).reg o = c.reg o := by
  unfold Ctl.unquiesce
  rw [if_pos h]
  refine ⟨((Ctl.attends_startHeld _).port n).state_eq ?_ |>.trans ?_, fun o ho => ((Ctl.attends_startHeld _).regs o ho).trans ?_⟩
  · simp [Ctl.portEnter_port]
  · rw [Ctl.portEnter_port]
  · exact (Ctl.portEnter_portReg _ n _ _ ho).trans rfl

/-- FENCE cleared makes a FENCED port ABSENT (R181). -/
theorem Ctl.unfencePort_spec (c : Ctl) (n : Nat) (h : (c.port n).state = .fenced) :
    ((c.unfencePort n).port n).state = .absent ∧ ∀ o, (c.unfencePort n).reg o = c.reg o := by
  rw [Ctl.unfencePort, if_pos h]
  exact ⟨by rw [Ctl.modPort_self], fun _ => rfl⟩

theorem portReg_portCtl (n : Nat) : portReg (rPORT_CTL n) = true := portReg_slice_of (by decide) (by decide)

theorem Ctl.bit_raise_self (c : Ctl) (off : Nat) {i : Nat} (hi : i < 32) : bit ((c.raise off i).reg off) i = true := by
  rw [Ctl.reg_raise, if_pos rfl, bit_raised _ hi]
  simp

theorem Ctl.bit_lower_self (c : Ctl) (off : Nat) {i : Nat} (hi : i < 32) : bit ((c.lower off i).reg off) i = false := by
  rw [Ctl.reg_lower, if_pos rfl, bit_lowered _ hi]
  simp

/-- Settles O50: each write of PORT_CTL takes effect, and what the block goes on to do neither brings a unit back nor touches
PORT_CTL. -/
theorem portControl : Obligations.PortControl := by
  refine ⟨fun s n id hr => ?_, fun s n id hr hready => ?_, fun s n id hr hquiet => ?_, fun s n id hr => ?_,
    fun s n id hr hfenced => ?_⟩
  · obtain ⟨cause, hleaves⟩ := s.ctl.resetPort_leaves n
    exact ⟨_, ctlStep_open_of_reaches hr _, hleaves.outst, hleaves.request, hleaves.state⟩
  · obtain ⟨hstate, hregs⟩ := (s.ctl.raise (rPORT_CTL n) 1).quiesce_spec n hready
    refine ⟨_, ctlStep_open_of_reaches hr _, ?_, hstate⟩
    exact (congrArg (bit · 1) (hregs _ (portReg_portCtl n))).trans (s.ctl.bit_raise_self _ (by decide))
  · obtain ⟨hstate, hregs⟩ := (s.ctl.lower (rPORT_CTL n) 1).unquiesce_spec n hquiet
    refine ⟨_, ctlStep_open_of_reaches hr _, ?_, hstate⟩
    exact (congrArg (bit · 1) (hregs _ (portReg_portCtl n))).trans (s.ctl.bit_lower_self _ (by decide))
  · obtain ⟨hstate, hregs⟩ := (s.ctl.raise (rPORT_CTL n) 0).fencePort_spec n
    refine ⟨_, ctlStep_open_of_reaches hr _, ?_, hstate⟩
    exact (congrArg (bit · 0) (hregs _ (portReg_portCtl n))).trans (s.ctl.bit_raise_self _ (by decide))
  · obtain ⟨hstate, hregs⟩ := (s.ctl.lower (rPORT_CTL n) 0).unfencePort_spec n hfenced
    refine ⟨_, ctlStep_open_of_reaches hr _, fun o ho => (hregs o).trans (Ctl.reg_setReg_ne _ _ ?_), ?_, hstate⟩
    · exact fun he => ho (by simp [he])
    · exact (congrArg (bit · 0) (hregs _)).trans (s.ctl.bit_lower_self _ (by decide))

end Sys2Proof.Machine

/-!
SUPPORT. The roll call of a port and the fall of PRESENT (R171 to R176), and the settled statement about them.
-/
namespace Sys2Proof.Machine

/-! ### Capability words (Table 5.4) -/

theorem Ctl.askWord_port (c : Ctl) (n i : Nat) : (c.askWord n i).port n =
    { c.port n with rcIdx := i, rcDeadline := c.sliceAfter n (c.ticksOf (rPORT_CFG n) 8 8) } :=
  c.modPort_self n fun p => { p with rcIdx := i, rcDeadline := c.sliceAfter n (c.ticksOf (rPORT_CFG n) 8 8) }

/-- A roll call begins (R172). -/
theorem Ctl.presentHigh_spec {c : Ctl} {n : Nat} (hstate : c.pstate ∉ [2, 4, 5]) (habsent : (c.port n).state = .absent)
    (hin : c.isIn n = true) :
    ((c.presentHigh n).port n).state = .rolling ∧ ((c.presentHigh n).port n).present = true ∧
      (c.presentHigh n).outbox = c.outbox ++ [.rollCall n 0] ∧ (c.presentHigh n).regs = c.regs := by
  have hport := c.modPort_self n fun p => { p with present := true, lowTicks := 0 }
  have hbegin : c.presentHigh n = (((c.modPort n fun p => { p with present := true, lowTicks := 0 }).modPort n fun p =>
      { p with state := .rolling, rcTries := 0, rcWords := [] }).askWord n 0) := by
    refine if_pos ?_
    rw [hport]
    simp only [habsent, Bool.and_eq_true, decide_eq_true_eq]
    exact ⟨⟨trivial, hin⟩, hstate⟩
  rw [hbegin, Ctl.askWord_port, Ctl.modPort_self, hport]
  exact ⟨rfl, rfl, rfl, rfl⟩

/-- Roll call fails with a cause (R174). -/
theorem Ctl.refusePort_spec (c : Ctl) (n cause : Nat) :
    ((c.refusePort n cause).port n).state = .refused ∧ ((c.refusePort n cause).port n).cause = cause := by
  rw [Ctl.refusePort, Ctl.portEnter_port]
  exact ⟨rfl, rfl⟩

/-- Port `n` of `c` with one more capability word. -/
def Ctl.withWord (c : Ctl) (n : Nat) (w : Word) : Ctl :=
  c.modPort n fun p => { p with rcWords := (c.port n).rcWords ++ [w], rcTries := 0 }

/-- A good word is kept; the next is asked for, or the roll call is finished with four (R174). -/
theorem Ctl.rollWord_good {c : Ctl} {n : Nat} {cw : Codeword} {w : Word} (hroll : (c.port n).state = .rolling)
    (hw : decodeCw cw = .ok w ∨ decodeCw cw = .corrected w) :
    c.rollWord n cw = if (c.port n).rcIdx < 3 then (c.withWord n w).askWord n ((c.port n).rcIdx + 1)
      else (c.withWord n w).finishRoll n ((c.port n).rcWords ++ [w]) := by
  unfold Ctl.rollWord
  rw [if_neg (not_not.mpr hroll)]
  rcases hw with hw | hw <;> rw [hw] <;> rfl

theorem Ctl.classPorts_modPort (c : Ctl) (n cls : Nat) (sts : List PortState) {f : Port → Port} (hf : ∀ p, (f p).state = p.state) :
    (c.modPort n f).classPorts cls sts = c.classPorts cls sts := by
  have hstate : ∀ m, ((c.modPort n f).port m).state = (c.port m).state := by
    intro m
    rw [Ctl.modPort_port]
    split
    next h => rw [hf, h]
    next => rfl
  refine List.filter_congr fun m _ => ?_
  rw [hstate]
  rfl

/-- A class of 0 or 0xFF is no class (R174). -/
theorem Ctl.finishRoll_noClass (c : Ctl) (n : Nat) {ws : List Word} (h : fld (ws.getD 0 0) 0 8 ∈ [0, 0xFF]) :
    c.finishRoll n ws = c.refusePort n 8 := if_pos (by simpa using h)

/-- The registers of a port hold its capability words (R175). -/
def Ctl.setCaps (c : Ctl) (n : Nat) (ws : List Word) : Ctl :=
  (((c.setReg (rPORT_CAP0 n) (ws.getD 0 0)).setReg (rPORT_CAP1 n) (ws.getD 1 0)).setReg (rPORT_CAP2 n) (ws.getD 2 0)).setReg
    (rPORT_CAP3 n) (ws.getD 3 0)

theorem Ctl.setCaps_caps (c : Ctl) (n : Nat) (ws : List Word) :
    (c.setCaps n ws).reg (rPORT_CAP0 n) = ws.getD 0 0 ∧ (c.setCaps n ws).reg (rPORT_CAP3 n) = ws.getD 3 0 := by
  refine ⟨?_, Ctl.reg_setReg_self _ _ _⟩
  rw [Ctl.setCaps, Ctl.reg_setReg_ne _ _ (by simp), Ctl.reg_setReg_ne _ _ (by simp), Ctl.reg_setReg_ne _ _ (by simp),
    Ctl.reg_setReg_self]

/-- The first unit of a class makes its port READY with its capabilities, and TILE_OPs that wait for it start (R175, R176). -/
theorem Ctl.finishRoll_first (c : Ctl) (n : Nat) {ws : List Word} (hcls : fld (ws.getD 0 0) 0 8 ∉ [0, 0xFF])
    (hfirst : c.classPorts (fld (ws.getD 0 0) 0 8) [.ready, .quiescing] = []) :
    ((c.finishRoll n ws).port n).state = .ready ∧ (c.finishRoll n ws).reg (rPORT_CAP0 n) = ws.getD 0 0 ∧
      (c.finishRoll n ws).reg (rPORT_CAP3 n) = ws.getD 3 0 := by
  have hready : c.finishRoll n ws = (({ c.setCaps n ws with
      classes := c.classes.set (fld (ws.getD 0 0) 0 8) (acceptance ws) }.modPort n fun p => { p with seq := 0 }).portEnter n
        .ready none).startHeld := by
    unfold Ctl.finishRoll
    dsimp only
    rw [if_neg (by simpa using hcls), hfirst, if_neg (by simp)]
    rfl
  have hreg : ∀ o, portReg o = true → (c.finishRoll n ws).reg o = (c.setCaps n ws).reg o := fun o ho => by
    rw [hready]
    exact ((Ctl.attends_startHeld _).regs o ho).trans (Ctl.portEnter_portReg _ n _ _ ho)
  obtain ⟨hcap0, hcap3⟩ := c.setCaps_caps n ws
  refine ⟨?_, (hreg _ (portReg_slice_of (by decide) (by decide))).trans hcap0,
    (hreg _ (portReg_slice_of (by decide) (by decide))).trans hcap3⟩
  rw [hready]
  refine (((Ctl.attends_startHeld _).port n).state_eq ?_).trans ?_ <;> simp [Ctl.portEnter_port]

/-- An uncorrectable word is asked for again, twice at most (R174). -/
theorem Ctl.rollWord_uncorrectable {c : Ctl} {n : Nat} {cw : Codeword} (hroll : (c.port n).state = .rolling)
    (hw : decodeCw cw = .uncorrectable) :
    c.rollWord n cw = if (c.port n).rcTries < 2 then
        ((c.bump (rPORT_ERR n) 24 8 1).modPort n fun p => { p with rcTries := p.rcTries + 1 }).askWord n (c.port n).rcIdx
      else c.refusePort n 10 := by
  unfold Ctl.rollWord
  rw [if_neg (not_not.mpr hroll), hw]

/-! ### PRESENT falls (Tables 5.3, 5.7) -/

/-- At a port that takes work PRESENT low frees an idle unit, and marks one at work gone. -/
theorem Ctl.presentFalls_working {c : Ctl} {n : Nat} (h : (c.port n).state ∈ [PortState.ready, .quiescing]) :
    c.presentFalls n = if (c.port n).outst.isEmpty && (c.port n).queue.isEmpty
      then (c.modPort n fun p => { p with present := false, lowTicks := p.lowTicks + 1 }).portAbsent n
      else (c.modPort n fun p => { p with present := false, lowTicks := p.lowTicks + 1 }).markGone n 3 := by
  unfold Ctl.presentFalls
  dsimp only
  rw [Ctl.modPort_self]
  rcases (List.mem_cons.mp h).imp_right List.mem_singleton.mp with h | h <;> rw [h]

theorem Ctl.portAbsent_spec (c : Ctl) (n : Nat) :
    ((c.portAbsent n).port n).state = .absent ∧ ((c.portAbsent n).port n).present = (c.port n).present := by
  have hport := (Ctl.attends_reassign (c.modPort n fun p => { p with state := .absent }) n).port n
  rw [Ctl.modPort_self] at hport
  exact ⟨hport.state_eq (by simp), hport.present⟩

theorem Ctl.presentFalls_spec {c : Ctl} {n : Nat} (h : (c.port n).state ∈ [PortState.ready, .quiescing]) :
    ((c.presentFalls n).port n).present = false ∧
      ((c.port n).outst = [] → (c.port n).queue = [] → ((c.presentFalls n).port n).state = .absent) ∧
      ((c.port n).outst ≠ [] ∨ (c.port n).queue ≠ [] → ((c.presentFalls n).port n).state = .gone ∧
        ((c.presentFalls n).port n).cause = 3) := by
  have hport := c.modPort_self n fun p => { p with present := false, lowTicks := p.lowTicks + 1 }
  rw [Ctl.presentFalls_working h]
  split
  next hidle =>
    simp only [Bool.and_eq_true, List.isEmpty_iff] at hidle
    obtain ⟨habsent, hpresent⟩ := (c.modPort n fun p => { p with present := false, lowTicks := p.lowTicks + 1 }).portAbsent_spec n
    rw [hport] at hpresent
    exact ⟨hpresent, fun _ _ => habsent, fun hwork => absurd hidle (by tauto)⟩
  next hwork =>
    simp only [Bool.and_eq_true, List.isEmpty_iff] at hwork
    have hleaves := (c.modPort n fun p => { p with present := false, lowTicks := p.lowTicks + 1 }).markGone_leaves n 3
    have hpresent := hleaves.present
    rw [hport] at hpresent
    exact ⟨hpresent, fun ho hq => absurd ⟨ho, hq⟩ hwork, fun _ => ⟨hleaves.state, hleaves.cause⟩⟩

/-! ### The commands -/

theorem exec_rollCall {s : State} {n : Nat} (ht : s.takes (.rollCall n) = true) (hnight : s.ctl.pstate ≠ 4) :
    exec (.rollCall n) s = .next { s with ctl := s.ctl.presentHigh n } := by
  change execRollCall n s = _
  rw [execRollCall, ctlStep_takes _ ht, if_neg hnight]

theorem exec_rollCallWord {s : State} {n : Nat} {cw : Codeword} (ht : s.takes (.rollCallWord n cw) = true) :
    exec (.rollCallWord n cw) s = .next { s with ctl := s.ctl.rollWord n cw } := by
  change execRollCallWord n cw s = _
  rw [execRollCallWord, ctlStep_takes _ ht]

theorem exec_rollTimeout {s : State} {n : Nat} (ht : s.takes (.rollTimeout n) = true) (hroll : (s.ctl.port n).state = .rolling)
    (hdue : s.ctl.sliceDue n (s.ctl.port n).rcDeadline = true) :
    exec (.rollTimeout n) s = .next { s with ctl := s.ctl.refusePort n 11 } := by
  change execRollTimeout n s = _
  rw [execRollTimeout, ctlStep_takes _ ht, if_pos (by simp [hroll, hdue])]

theorem exec_presentLow {s : State} {n : Nat} (ht : s.takes (.presentLow n) = true) (hnight : s.ctl.pstate ≠ 4) :
    exec (.presentLow n) s = .next { s with ctl := s.ctl.presentFalls n } := by
  change execPresentLow n s = _
  rw [execPresentLow, ctlStep_takes _ ht, if_neg hnight]

/-- Settles O49: a word moves the roll call of its port on, or ends it, and PRESENT low ends the port's work. -/
theorem rollCall : Obligations.RollCall := by
  refine ⟨fun s n ht hstate habsent hin => ?_, fun s n cw w ht hroll hw => ?_, fun s n cw ht hroll hw => ?_,
    fun s n ht hroll hdue => ⟨_, exec_rollTimeout ht hroll hdue, s.ctl.refusePort_spec n 11⟩,
    fun s n ht hnight hwork => ⟨_, exec_presentLow ht hnight, Ctl.presentFalls_spec hwork⟩⟩
  · have hnight : s.ctl.pstate ≠ 4 := fun he => hstate (by simp [he])
    exact ⟨_, exec_rollCall ht hnight, Ctl.presentHigh_spec hstate habsent hin⟩
  · refine ⟨_, _, exec_rollCallWord ht, rfl, fun hidx => ?_, fun hidx hcls => ?_, fun hidx hcls hfirst => ?_⟩ <;>
      rw [Ctl.rollWord_good hroll hw]
    · rw [if_pos hidx, Ctl.askWord_port, Ctl.withWord, Ctl.modPort_self]
      exact ⟨hroll, rfl, rfl, rfl⟩
    · rw [if_neg hidx.not_gt, Ctl.finishRoll_noClass _ n hcls]
      exact Ctl.refusePort_spec _ n 8
    · rw [if_neg hidx.not_gt]
      refine Ctl.finishRoll_first _ n hcls ?_
      rw [Ctl.withWord, Ctl.classPorts_modPort]
      · exact hfirst
      · exact fun _ => rfl
  · refine ⟨_, exec_rollCallWord ht, fun htries => ?_, fun htries => ?_⟩ <;> rw [Ctl.rollWord_uncorrectable hroll hw]
    · rw [if_pos htries, Ctl.askWord_port, Ctl.modPort_self]
      exact ⟨hroll, rfl⟩
    · rw [if_neg htries.not_gt]
      exact s.ctl.refusePort_spec n 10

end Sys2Proof.Machine

/-!
SUPPORT. Operand and result beats of a port (R157 to R165), and the settled statement about them and their timeouts.
-/
namespace Sys2Proof.Machine

/-! ### Counters and charges -/

theorem Ctl.counted_count (c : Ctl) (off n : Nat) : c.counted (c.count off n) off n := by
  have hfld : ∀ w : Word, fld w 0 32 = w.toNat := fun w => Nat.mod_eq_of_lt w.isLt
  have hlt : satAdd 32 (c.rf off 0 32) n < 2 ^ 32 := by
    rw [satAdd]
    omega
  rw [Ctl.counted, ← hfld, Ctl.count_eq, Ctl.reg_setReg_self, fld_setFld_same _ _ (by decide), Nat.mod_eq_of_lt hlt, satAdd, Ctl.rf,
    hfld]

/-- A counter reads what counting once has left, and nothing has touched since. -/
theorem Ctl.counted_of_reg {c c' : Ctl} {off n : Nat} (h : c'.reg off = (c.count off n).reg off) : c.counted c' off n := by
  rw [Ctl.counted, h]
  exact c.counted_count off n

/-- Charging an event changes the energy of its descriptor alone (R332). -/
theorem Ctl.charge_descs (c : Ctl) (who : Account) (k n : Nat) : ∃ g : Desc → Desc,
    (c.charge who k n).descs = c.descs.map g ∧ ∀ e, (g e).key = e.key ∧ (g e).words = e.words := by
  have hsame : ∀ c' : Ctl, c'.descs = c.descs → ∃ g : Desc → Desc, c'.descs = c.descs.map g ∧
      ∀ e, (g e).key = e.key ∧ (g e).words = e.words := fun c' h => ⟨id, by rw [h, List.map_id], fun _ => ⟨rfl, rfl⟩⟩
  unfold Ctl.charge Ctl.addAccount
  dsimp only
  split
  · exact hsame _ rfl
  · split
    · exact hsame _ rfl
    next key _ _ _ =>
      refine ⟨_, rfl, fun e => ?_⟩
      split <;> exact ⟨rfl, rfl⟩

@[simp] theorem Ctl.charge_mem (c : Ctl) (who : Account) (k n : Nat) : (c.charge who k n).mem = c.mem := by
  unfold Ctl.charge Ctl.addAccount
  dsimp only
  split
  · rfl
  · split <;> rfl

/-- The destination's shape stands in the words of a descriptor (Table 4.4). -/
theorem Desc.dShape_congr {d e : Desc} (h : d.words = e.words) : d.dShape = e.dShape := by
  have hwords : d.dShape = ({ e with words := d.words } : Desc).dShape := rfl
  rw [hwords, h]

/-- The format in which a descriptor stands under a key, as its beats are received (R163). -/
def Ctl.formatOf (c : Ctl) (k : Key) : Nat := ((c.desc? k).map fun d => shFmt d.dShape).getD 0

theorem Ctl.formatOf_charge (c : Ctl) (who : Account) (m n : Nat) (k : Key) : (c.charge who m n).formatOf k = c.formatOf k := by
  obtain ⟨g, hg, hkeep⟩ := c.charge_descs who m n
  have hdesc : (c.charge who m n).desc? k = (c.desc? k).map g := by
    rw [Ctl.desc?, hg]
    exact find?_map_of_key (fun e => (hkeep e).1) k
  rw [Ctl.formatOf, hdesc, Ctl.formatOf, Option.map_map]
  congr 2
  funext e
  exact congrArg shFmt (Desc.dShape_congr (hkeep e).2)

@[simp] theorem Ctl.modDesc_port (c : Ctl) (k : Key) (f : Desc → Desc) (n : Nat) : (c.modDesc k f).port n = c.port n := rfl

/-! ### Operand beats (R157, R161, R165) -/

/-- What an accepted operand beat leaves before its port pumps again. -/
theorem Ctl.operandDone_spec {c : Ctl} {n : Nat} {a : Assign} {as : List Assign} (hqueue : (c.port n).queue = a :: as) :
    ∃ e : Ctl, c.operandDone n = e.pumpPort n ∧
      (e.port n).outst = (c.port n).outst ++ [{ seq := (c.port n).seq, what := a, fmt := c.formatOf a.key }] ∧
      (e.port n).seq = (if (c.port n).seqFresh then 0 else ((c.port n).seq + 1) % 64) ∧ (e.port n).queue = as ∧
      (∀ o, e.reg o = (c.count (rOP_BEATS n) 1).reg o) ∧ e.mem = c.mem ∧ ∃ g, e.descs = c.descs.map g := by
  have hport : ((c.count (rOP_BEATS n) 1).charge (.desc a.key) 4 1).port n = c.port n := Ctl.port_congr (Ctl.charge_slices _ _ _ _) n
  obtain ⟨g, hg, -⟩ := (c.count (rOP_BEATS n) 1).charge_descs (.desc a.key) 4 1
  have hformat := (c.count (rOP_BEATS n) 1).formatOf_charge (.desc a.key) 4 1 a.key
  unfold Ctl.operandDone
  rw [hqueue]
  dsimp only
  refine ⟨_, rfl, ?_, ?_, ?_, fun o => ?_, ?_, ?_⟩
  · rw [Ctl.modDesc_port, Ctl.modPort_self, hport]
    exact congrArg (fun f => (c.port n).outst ++ [({ seq := (c.port n).seq, what := a, fmt := f } : Outst)]) hformat
  · rw [Ctl.modDesc_port, Ctl.modPort_self, hport]
  · rw [Ctl.modDesc_port, Ctl.modPort_self]
  · exact Ctl.charge_reg _ _ _ _ o
  · exact Ctl.charge_mem _ _ _ _
  · refine ⟨fun e => if (g e).key = a.key then { g e with
      usedOn := if a.stale || (g e).usedOn.contains n then (g e).usedOn else (g e).usedOn ++ [n] } else g e, ?_⟩
    refine (congrArg (List.map _) hg).trans ?_
    rw [List.map_map]
    rfl

theorem portReg_opBeats (n : Nat) : portReg (rOP_BEATS n) = true := portReg_slice_of (by decide) (by decide)

theorem portReg_wBeats (n : Nat) : portReg (rW_BEATS n) = true := portReg_slice_of (by decide) (by decide)

/-- An accepted operand beat is outstanding, and the port pumps on with its next fragment. -/
theorem Ctl.operandDone_beats {c : Ctl} {n : Nat} {a : Assign} {as : List Assign} (hqueue : (c.port n).queue = a :: as)
    (hcalm : ∀ d ∈ c.descs, c.calm d.domain = true) :
    ((c.operandDone n).port n).outst = (c.port n).outst ++ [{ seq := (c.port n).seq, what := a, fmt := c.formatOf a.key }] ∧
      ((c.operandDone n).port n).seq = (if (c.port n).seqFresh then 0 else ((c.port n).seq + 1) % 64) ∧
      ((c.operandDone n).port n).queue = as ∧ c.counted (c.operandDone n) (rOP_BEATS n) 1 := by
  obtain ⟨e, hdone, houtst, hseq, has, hreg, hmem, g, hg⟩ := Ctl.operandDone_spec hqueue
  have hneeds : ∀ d ∈ e.descs, e.RowNeeds := fun d hd => by
    obtain ⟨x, hx, -⟩ := List.mem_map.mp (hg ▸ hd)
    rw [Ctl.RowNeeds, hmem]
    exact Ctl.rowNeeds_of_calm (hcalm x hx)
  have hattends := (e.pumps_pumpPort n).attends
  obtain ⟨hqueue', houtst'⟩ := Ctl.beats_pumpPort hneeds n
  rw [hdone]
  exact ⟨houtst'.trans houtst, ((hattends.port n).seq).trans hseq, hqueue'.trans has,
    Ctl.counted_of_reg ((hattends.regs _ (portReg_opBeats n)).trans (hreg _))⟩

/-! ### Result beats (R163, R165) -/

theorem Ctl.attends_countW (c : Ctl) (n : Nat) (wh : Decoded) (ds : List Decoded) (unc : Bool) : c.Attends (c.countW n wh ds unc) := by
  have hbump : ∀ (c : Ctl) (lo w k : Nat), c.Attends (c.bump (rPORT_ERR n) lo w k) := fun c _ _ _ =>
    c.attends_setReg _ (portReg_slice (by decide))
  unfold Ctl.countW
  exact ((hbump c _ _ _).trans (.ite (hbump _ _ _ _))).trans (.ite (hbump _ _ _ _))

theorem Ctl.attends_writeW (c : Ctl) (n : Nat) (d : Desc) (a : Assign) (ws : List Codeword) : c.Attends (c.writeW n d a ws) := by
  have hsend : ∀ (c : Ctl) (user src dst : Nat) (cy : Carry), c.Attends (c.sendFrag user src dst cy ws) := fun c _ _ _ _ =>
    (Ctl.Attends.ite (c.attends_setReg _ (by decide))).trans (.of_same rfl rfl rfl)
  unfold Ctl.writeW
  split
  · exact .refl c
  · dsimp only
    split
    · exact (c.attends_modDesc _ _).trans (Ctl.attends_addJobs _ _)
    · exact (c.attends_modDesc _ _).trans (hsend _ _ _ _ _)

theorem Ctl.attends_acceptW (c : Ctl) (n : Nat) (o : Outst) (wh : Decoded) (lanes : List Codeword) :
    c.Attends (c.acceptW n o wh lanes) := by
  unfold Ctl.acceptW
  dsimp only
  split
  · exact c.attends_countW n wh _ _
  · split
    · exact c.attends_countW n wh _ _
    · split
      · exact (c.attends_countW n wh _ _).trans (Ctl.attends_finish _ _ _ _)
      · exact (c.attends_countW n wh _ _).trans (Ctl.attends_writeW _ _ _ _ _)

/-- A captured W beat takes the oldest operand beat off, and is counted (R165). -/
theorem Ctl.captureW_spec (c : Ctl) (n : Nat) (o : Outst) (wh : Decoded) (lanes : List Codeword) :
    ((c.captureW n o wh lanes).port n).outst.map (·.seq) = ((c.port n).outst.drop 1).map (·.seq) ∧
      c.counted (c.captureW n o wh lanes) (rW_BEATS n) 1 := by
  have hpaced : ∀ b : Bool, (if b then c else c.beat (.result n) (.desc o.what.key)).slices = c.slices ∧
      (if b then c else c.beat (.result n) (.desc o.what.key)).reg (rW_BEATS n) = c.reg (rW_BEATS n) := by
    intro b
    split
    · exact ⟨rfl, rfl⟩
    · exact ⟨c.beat_slices _ _, (c.attends_beat _ _).regs _ (portReg_wBeats n)⟩
  have hafter : ∀ c : Ctl, c.Attends (((c.acceptW n o wh lanes).quiesceDone n).pumpPort n) := fun c =>
    ((c.attends_acceptW n o wh lanes).trans (Ctl.attends_quiesceDone _ n)).trans (Ctl.pumps_pumpPort _ n).attends
  obtain ⟨hslices, hreg⟩ := hpaced c.power.stopped
  unfold Ctl.captureW
  dsimp only
  generalize (if c.power.stopped then c else c.beat (.result n) (.desc o.what.key)) = c' at hslices hreg
  have hport : ((c'.count (rW_BEATS n) 1).charge (.desc o.what.key) 5 1).port n = c.port n :=
    Ctl.port_congr ((Ctl.charge_slices (c'.count (rW_BEATS n) 1) _ _ _).trans hslices) n
  constructor
  · refine (((hafter _).port n).seqs).trans ?_
    rw [Ctl.modPort_self, hport]
  · refine Ctl.counted_of_reg (((hafter _).regs _ (portReg_wBeats n)).trans ((Ctl.charge_reg _ _ _ _ _).trans ?_))
    rw [Ctl.count_eq, Ctl.reg_setReg_self, Ctl.count_eq, Ctl.reg_setReg_self, Ctl.rf, hreg, Ctl.rf]

/-- The voltage and the ramp change, and a stop stays. -/
theorem Ctl.startDawn_stopped (c : Ctl) : c.startDawn.power.stopped = c.power.stopped := by
  have hput : ∀ (c : Ctl) (v : Nat), (c.putVreq v).power.stopped = c.power.stopped := by
    intro c v
    unfold Ctl.putVreq
    dsimp only
    split_ifs <;> rfl
  have hraise : ∀ c : Ctl, c.raiseVreq.power.stopped = c.power.stopped := by
    intro c
    unfold Ctl.raiseVreq
    split
    · exact hput c _
    · rfl
  unfold Ctl.startDawn
  split
  · exact hraise _
  · rfl

/-- A result beat at a port with outstanding beats, once its header has been decoded (R163, R167, R27). -/
theorem Ctl.resultReq_eq {c : Ctl} {n : Nat} {wh : Codeword} {lanes : List Codeword} {o : Outst} {os : List Outst} {w : Word}
    (hstate : (c.port n).state ∈ [PortState.ready, .quiescing]) (houtst : (c.port n).outst = o :: os)
    (htoken : c.power.stopped = true ∨ c.startDawn.mayBeat (.result n) = true)
    (hheld : ∀ x, (c.port n).wReq = some x → x = (wh, lanes)) (hw : decodeCw wh = .ok w ∨ decodeCw wh = .corrected w) :
    c.resultReq n wh lanes = if fld w 0 6 = o.seq then c.startDawn.captureW n o (decodeCw wh) lanes else c.markGone n 4 := by
  have hsame : (c.port n).wReq.any (fun x => decide (x ≠ (wh, lanes))) = false := by
    cases hreq : (c.port n).wReq with
    | none => rfl
    | some x => simp [hheld x hreq]
  have hdata : (decodeCw wh).data = w ∧ decodeCw wh ≠ .uncorrectable := by
    rcases hw with hw | hw <;> rw [hw] <;> exact ⟨rfl, by simp⟩
  have hmay : (c.startDawn.power.stopped || c.startDawn.mayBeat (.result n)) = true := by
    rw [Bool.or_eq_true]
    exact htoken.imp_left c.startDawn_stopped.trans
  unfold Ctl.resultReq
  dsimp only
  rw [if_neg (not_not.mpr hstate), houtst]
  dsimp only
  rw [hsame, hdata.1]
  by_cases hseq : fld w 0 6 = o.seq
  · simp [hseq, hmay]
  · simp [hseq, hdata.2]

/-! ### The commands -/

theorem exec_operandBeat {s : State} {n : Nat} (ht : s.takes (.operandBeat n) = true) (hreq : (s.ctl.port n).opReq.isSome = true) :
    exec (.operandBeat n) s = .next { s with ctl := s.ctl.operandDone n } := by
  change execOperandBeat n s = _
  rw [execOperandBeat, ctlStep_takes _ ht, if_pos hreq]

theorem exec_resultBeat {s : State} {n : Nat} {wh : Codeword} {lanes : List Codeword}
    (ht : s.takes (.resultBeat n wh lanes) = true) :
    exec (.resultBeat n wh lanes) s = .next { s with ctl := s.ctl.resultReq n wh lanes } := by
  change execResultBeat n wh lanes s = _
  rw [execResultBeat, ctlStep_takes _ ht]

theorem exec_ackTimeout {s : State} {n dl : Nat} (ht : s.takes (.ackTimeout n) = true) (hreq : (s.ctl.port n).opReq = some dl)
    (hdue : s.ctl.sliceDue n dl = true) : exec (.ackTimeout n) s = .next { s with ctl := s.ctl.markGone n 1 } := by
  change execAckTimeout n s = _
  rw [execAckTimeout, ctlStep_takes _ ht, hreq]
  simp only [hdue, if_true]

theorem exec_wTimeout {s : State} {n dl : Nat} (ht : s.takes (.wTimeout n) = true) (hdl : (s.ctl.port n).wDeadline = some dl)
    (houtst : (s.ctl.port n).outst ≠ []) (hdue : s.ctl.sliceDue n dl = true) :
    exec (.wTimeout n) s = .next { s with ctl := s.ctl.markGone n 2 } := by
  change execWTimeout n s = _
  rw [execWTimeout, ctlStep_takes _ ht, hdl]
  simp [hdue, houtst]

/-- Settles O48: an operand beat goes from the queue to the outstanding beats, a result beat takes the oldest of them off, and what
violates the handshake marks the unit gone. -/
theorem portBeats : Obligations.PortBeats := by
  refine ⟨fun s n a as ht hreq hqueue hcalm => ⟨_, exec_operandBeat ht hreq, Ctl.operandDone_beats hqueue hcalm⟩,
    fun s n wh lanes o os w ht hstate houtst htoken hheld hw _ => ?_, fun s n dl ht hreq hdue => ?_,
    fun s n dl ht hdl houtst hdue => ?_⟩
  · have heq := Ctl.resultReq_eq hstate houtst htoken hheld hw
    refine ⟨_, exec_resultBeat ht, fun hseq => ?_, fun hseq => ?_⟩ <;> rw [heq]
    · rw [if_pos hseq]
      obtain ⟨hseqs, hcount⟩ := s.ctl.startDawn.captureW_spec n o (decodeCw wh) lanes
      rw [Ctl.port_congr s.ctl.paces_startDawn.slices, houtst] at hseqs
      refine ⟨hseqs, ?_⟩
      rw [Ctl.counted, ← s.ctl.paces_startDawn.attends.regs _ (portReg_wBeats n)]
      exact hcount
    · rw [if_neg hseq]
      have hleaves := s.ctl.markGone_leaves n 4
      exact ⟨hleaves.state, hleaves.cause⟩
  · have hleaves := s.ctl.markGone_leaves n 1
    exact ⟨_, exec_ackTimeout ht hreq hdue, hleaves.state, hleaves.cause, hleaves.request⟩
  · have hleaves := s.ctl.markGone_leaves n 2
    exact ⟨_, exec_wTimeout ht hdl houtst hdue, hleaves.state, hleaves.cause, hleaves.outst⟩

end Sys2Proof.Machine

/-!
SUPPORT. The index maps of a PERMUTE that are computed: bit-permute-complement and odd-multiplier maps (R194, R195), and the
settled statement that they are bijections of a segment.
-/
namespace Sys2Proof.Machine

/-! ### Bit-permute-complement maps (R194) -/

/-- The number whose bit e is `f e`, for e below n: the form in which a bit-permute-complement map is given. -/
def spell (f : Nat → Bool) (n : Nat) : Nat := ((List.range n).map fun e => if f e then 2 ^ e else 0).sum

theorem spell_succ (f : Nat → Bool) (n : Nat) : spell f (n + 1) = spell f n + if f n then 2 ^ n else 0 := by
  simp [spell, List.range_succ]

theorem spell_lt (f : Nat → Bool) : ∀ n, spell f n < 2 ^ n
  | 0 => Nat.one_pos
  | n + 1 => by
    have ih := spell_lt f n
    rw [spell_succ, Nat.pow_succ]
    split <;> omega

theorem testBit_spell (f : Nat → Bool) : ∀ {n j : Nat}, j < n → (spell f n).testBit j = f j
  | n + 1, j, hj => by
    have hlt := spell_lt f n
    rw [spell_succ]
    rcases Nat.lt_succ_iff_lt_or_eq.mp hj with hlow | rfl
    · cases hf : f n
      · simpa using testBit_spell f hlow
      · rw [if_pos rfl, Nat.add_comm, Nat.testBit_two_pow_add_gt hlow]
        exact testBit_spell f hlow
    · cases hf : f j
      · simpa using Nat.testBit_lt_two_pow hlt
      · rw [if_pos rfl, Nat.add_comm, Nat.testBit_two_pow_add_eq, Nat.testBit_lt_two_pow hlt]
        rfl

theorem bpcMap_eq_spell (bm : Nat → Nat) (n comp u : Nat) :
    bpcMap bm n comp u = spell (fun e => u.testBit (bm e) != comp.testBit e) n := by
  simp [bpcMap, spell]

/-- Two indices with one image agree in every bit that the map reads, and a permutation of the bits reads them all. -/
theorem bpcMap_injOn {bm : Nat → Nat} {n : Nat} (hperm : ((List.range n).map bm).Perm (List.range n)) (comp : Nat) {u v : Nat}
    (hu : u < 2 ^ n) (hv : v < 2 ^ n) (h : bpcMap bm n comp u = bpcMap bm n comp v) : u = v := by
  have hread : ∀ e < n, u.testBit (bm e) = v.testBit (bm e) := fun e he => by
    have hbit := congrArg (·.testBit e) h
    simpa [bpcMap_eq_spell, testBit_spell _ he] using hbit
  refine Nat.eq_of_testBit_eq fun j => ?_
  by_cases hj : j < n
  · obtain ⟨e, he, rfl⟩ := List.mem_map.mp (hperm.mem_iff.mpr (List.mem_range.mpr hj))
    exact hread e (List.mem_range.mp he)
  · have hpow : 2 ^ n ≤ 2 ^ j := Nat.pow_le_pow_right Nat.two_pos (not_lt.mp hj)
    rw [Nat.testBit_lt_two_pow (hu.trans_le hpow), Nat.testBit_lt_two_pow (hv.trans_le hpow)]

/-! ### Odd-multiplier maps (R195) -/

theorem oddT_mod (g b n u : Nat) : oddT g b n u % 2 ^ n = (g * u + b) % 2 ^ n :=
  Nat.mod_mod_of_dvd _ (Nat.pow_dvd_pow 2 n.le_succ)

/-- An odd multiplier has no factor in common with the segment, so it can be cancelled modulo the segment. -/
theorem oddT_injOn {g : Nat} (hodd : g % 2 = 1) (b : Nat) {n u v : Nat} (hu : u < 2 ^ n) (hv : v < 2 ^ n)
    (h : oddT g b n u % 2 ^ n = oddT g b n v % 2 ^ n) : u = v := by
  have hcop : Nat.gcd (2 ^ n) g = 1 := Nat.Coprime.pow_left n (Nat.coprime_two_left.mpr (Nat.odd_iff.mpr hodd))
  have hmod : g * u + b ≡ g * v + b [MOD 2 ^ n] := by
    rw [Nat.ModEq, ← oddT_mod, h, oddT_mod]
  exact (Nat.ModEq.cancel_left_of_coprime hcop (Nat.ModEq.add_right_cancel' b hmod)).eq_of_lt_of_lt hu hv

theorem odd_of_bit_zero {w : Word} (h : bit w 0 = true) : w.toNat % 2 = 1 := by
  have := h
  unfold bit BitVec.getLsbD at this
  simpa using this

/-! ### The maps of a PERMUTE (R190) -/

theorem Desc.mapOf_bpc {d : Desc} (h : d.routeKind = 0) (prog : List Word) (u : Nat) :
    (d.mapOf prog u).1 = bpcMap d.bitMap d.log2n (d.w 12).toNat u := by
  simp only [Desc.mapOf, h]

theorem Desc.mapOf_odd {d : Desc} (h : d.routeKind = 1) (prog : List Word) (u : Nat) :
    (d.mapOf prog u).1 = oddT (d.w 8).toNat (d.w 9).toNat d.log2n u % 2 ^ d.log2n := by
  simp only [Desc.mapOf, h]

/-- Settles O60: a bit-permute-complement map and an odd-multiplier map send a segment one to one into itself. -/
theorem indexMapsAreBijections : Obligations.IndexMapsAreBijections := by
  refine ⟨fun d prog u v hkind hperm hu hv h => ?_, fun d prog u v hkind hodd hu hv h => ?_, fun d prog u hkind => ?_⟩
  · rw [d.mapOf_bpc hkind, d.mapOf_bpc hkind] at h
    exact bpcMap_injOn hperm _ hu hv h
  · rw [d.mapOf_odd hkind, d.mapOf_odd hkind] at h
    exact oddT_injOn (odd_of_bit_zero hodd) _ hu hv h
  · rcases List.mem_pair.mp hkind with hbpc | hmul
    · rw [d.mapOf_bpc hbpc, bpcMap_eq_spell]
      exact spell_lt _ _
    · rw [d.mapOf_odd hmul]
      exact Nat.mod_lt _ (Nat.two_pow_pos _)

end Sys2Proof.Machine

/-!
SUPPORT. Transfers to aliases (R212, R213): what a data beat, READY, COMMIT, its acknowledgement and RESEND do, and the settled
statement about them.
-/
namespace Sys2Proof.Machine

/-! ### Entries of a table -/

@[simp] theorem Tab.find?_set_self {α : Type} (t : Tab α) (k : Nat) (v : α) : (t.set k v).find? (·.1 = k) = some (k, v) := by
  induction t with
  | nil => simp [Tab.set]
  | cons p t ih =>
    obtain ⟨a, w⟩ := p
    unfold Tab.set
    split
    · simp
    next hlt =>
      split
      · simp
      next hne => simpa [Ne.symm hne] using ih

@[simp] theorem Tab.find?_del_self {α : Type} (t : Tab α) (k : Nat) : (t.del k).find? (·.1 = k) = none := by
  simp [Tab.del]

/-! ### DATA -/

/-- The flits of a beat of an incoming transfer: the words that lie within its tile. -/
def Ctl.dataFlits (c : Ctl) (l : Nat) (x : Incoming) (y : FragTable) (ws : List Codeword) : List Flit :=
  (ws.zipIdx.filter fun p => x.units * c.beatWords + p.2 < 128 * y.count).map fun p =>
    { user := 3, src := (x.units * c.beatWords + p.2) % (128 * c.slicesN), dst := y.line (x.units * c.beatWords + p.2),
      word := p.1, what := .frag (.incoming l ((x.units * c.beatWords + p.2) / 128)) ((x.units * c.beatWords + p.2) % 128), injected := false }

/-- A beat of a transfer that has its slots is taken in its turn, and in no other. -/
theorem Ctl.dataIn_of_placed {c : Ctl} {l : Nat} {x : Incoming} {y : FragTable}
    (hfind : c.net.incoming.find? (·.1 = l) = some (l, x)) (htable : x.table = some y) (hplaced : y.frags ≠ []) (unit : Nat)
    (ws : List Codeword) :
    c.dataIn l unit ws = if unit % 4096 = x.units % 4096 then
      c.modNet fun n => { n with
        flits := n.flits ++ c.dataFlits l x y ws, incoming := n.incoming.set l { x with units := x.units + 1 } } else c := by
  have hplace : c.placeIncoming l x y = c := if_pos (by simpa using hplaced)
  have hsame : { x with table := some y, units := x.units + 1 } = { x with units := x.units + 1 } := by rw [← htable]
  unfold Ctl.dataIn
  simp only [hfind, htable, hplace, Option.bind_some, hsame]
  by_cases hturn : unit % 4096 = x.units % 4096
  · rw [if_neg (by simpa [hturn] using hplaced), if_pos hturn]
    rfl
  · rw [if_pos (by simp [hturn]), if_neg hturn]

/-! ### READY and the acknowledgement of COMMIT -/

theorem Ctl.desc?_modDesc_some {c : Ctl} {k : Key} {d : Desc} (h : c.desc? k = some d) {f : Desc → Desc}
    (hf : ∀ d, (f d).key = d.key) : (c.modDesc k f).desc? k = some (f d) := by
  rw [Ctl.desc?_modDesc_self c k f hf, h, Option.map_some]

/-- Words that are of no descriptor's own leave every descriptor as it is. -/
theorem Ctl.desc?_sendLink (c : Ctl) (l kind ctl : Nat) (ws : List Word) (k : Key) :
    (c.sendLink l kind ctl ws).desc? k = c.desc? k :=
  (c.sendLink_beside l kind ctl ws).desc? k

theorem exec_ready {s : State} {l : Nat} {d : Desc} (ht : s.takes (.ready l) = true) (hsent : s.ctl.aliasSent l = some d) :
    exec (.ready l) s =
      .next { s with ctl := (s.ctl.sendLink l 7 0 []).modDesc d.key fun d => { d with sigWait := true } } := by
  change execReady l s = _
  rw [execReady, ctlStep_takes _ ht, hsent]

theorem exec_quoinCommitAck {s : State} {l : Nat} {d : Desc} (ht : s.takes (.quoinCommitAck l) = true)
    (hsent : s.ctl.aliasSent l = some d) (hwait : d.sigWait = true) :
    exec (.quoinCommitAck l) s =
      .next { s with ctl := (s.ctl.modLink l fun k => { k with deadline := none }).finish d.key d.goodStatus 0 } := by
  change execQuoinCommitAck l s = _
  rw [execQuoinCommitAck, ctlStep_takes _ ht, hsent]
  simp only [hwait, if_true]

/-- Outside a pair a status is fixed whatever the stage. -/
theorem Ctl.fix_alone {c : Ctl} {k : Key} {e : Desc} (h : c.desc? k = some e) (hopen : e.completed = false)
    (halone : c.paired = false) (st de : Nat) : c.fix k st de = c.fixNow k st de := by
  rw [Ctl.fix, h]
  simp [hopen, halone]

/-- Outside a pair a descriptor that has not completed completes with the status, also where it waits for a peer. -/
theorem Ctl.finish_endsWith_of_alone {c : Ctl} {k : Key} {e : Desc} (h : c.desc? k = some e) (hopen : e.completed = false)
    (halone : c.paired = false) (st de : Nat) : (c.finish k st de).endsWith k st de := by
  obtain ⟨e', hleads, hfin⟩ := Ctl.fixNow_leads h hopen st de
  have hfix : (c.fix k st de).Settled k st de := by
    rw [Ctl.fix_alone h hopen halone]
    exact ⟨e', hleads.self, hfin.status, hfin.detail, .inl hfin.stage⟩
  have hset : (c.finish k st de).Settled k st de :=
    Ctl.finish_induction (P := (·.Settled k st de)) (fun _ _ hb hs => hs.beside hb) (fun _ j _ de' hst hs => hs.fix j de' hst)
      k de hfix
  exact hset.endsWith_of_alone ((c.finish_apart k st de).paired.trans halone)

/-- A PERMUTE to an aliased name that is found waits for its peer. -/
theorem Ctl.stage_of_aliasSent {c : Ctl} {l : Nat} {d : Desc} (h : c.aliasSent l = some d) : d.stage = .peer := by
  have hsat := List.find?_some h
  simp only [Bool.and_eq_true, decide_eq_true_eq] at hsat
  exact hsat.1.2

/-! ### Counters -/

/-- What stood in a counter before is counted on, and nothing has touched it since. -/
theorem Ctl.counted_of_before {c c' c'' : Ctl} {off n : Nat} (hbefore : c'.reg off = c.reg off)
    (hsince : c''.reg off = (c'.count off n).reg off) : c.counted c'' off n := by
  rw [Ctl.counted, ← hbefore]
  exact Ctl.counted_of_reg hsince

/-! ### Slots that change hands -/

/-- The slots, and the work that follows from them, may have changed, and nothing else. -/
def Ctl.MovesSlots (c c' : Ctl) : Prop :=
  c' = { c with slices := c'.slices, slots := c'.slots, jobs := c'.jobs, migs := c'.migs, wanted := c'.wanted }

theorem Ctl.MovesSlots.refl (c : Ctl) : c.MovesSlots c := rfl

theorem Ctl.MovesSlots.trans {c c' c'' : Ctl} (h : c.MovesSlots c') (h' : c'.MovesSlots c'') : c.MovesSlots c'' := by
  unfold Ctl.MovesSlots at *
  rw [h', h]

theorem Ctl.MovesSlots.each {α : Type} (c : Ctl) (l : List α) {f : Ctl → α → Ctl}
    (hf : ∀ (c : Ctl) (a : α), c.MovesSlots (f c a)) : c.MovesSlots (c.each l f) :=
  Ctl.each_induction (P := fun c' => c.MovesSlots c') (fun c' a h => h.trans (hf c' a)) l (.refl c)

theorem Ctl.MovesSlots.regs {c c' : Ctl} (h : c.MovesSlots c') : c'.regs = c.regs := by rw [h]

theorem Ctl.MovesSlots.reg {c c' : Ctl} (h : c.MovesSlots c') (o : Nat) : c'.reg o = c.reg o := by rw [h]; rfl

theorem Ctl.MovesSlots.names {c c' : Ctl} (h : c.MovesSlots c') : c'.names = c.names := by rw [h]

theorem Ctl.MovesSlots.net {c c' : Ctl} (h : c.MovesSlots c') : c'.net = c.net := by rw [h]

theorem Ctl.movesSlots_setSlots (c : Ctl) (ks : List Nat) (st : SlotState) (o : Owner) : c.MovesSlots (c.setSlots ks st o) :=
  .each c ks fun _ _ => rfl

theorem Ctl.movesSlots_clearSlots (c : Ctl) (ks : List Nat) : c.MovesSlots (c.clearSlots ks) := by
  have hdrop : ∀ (c : Ctl) (k : Nat), c.MovesSlots (c.dropLatches k) := fun c k => .each c _ fun c n => by
    split
    · exact .refl c
    · exact rfl
  exact .each c ks fun c k => ((hdrop c k).trans (Ctl.movesSlots_setSlots _ _ _ _)).trans rfl

theorem Ctl.movesSlots_requireMig (c : Ctl) (n : Nat) : c.MovesSlots (c.requireMig n) := by
  have hwant : c.MovesSlots (c.wantMig n) := by
    unfold Ctl.wantMig
    split <;> rfl
  have hstart : ∀ t, c.MovesSlots (c.startMig n t true) := fun t => (c.movesSlots_setSlots t.slots .fresh (.mig n)).trans rfl
  unfold Ctl.requireMig
  dsimp only
  split
  · exact .refl c
  · split
    · exact hwant
    · split
      · exact hstart _
      · exact hwant

/-- Publishing a table changes no register and nothing of the network. -/
theorem Ctl.publish_reg (c : Ctl) (n : Nat) (t : FragTable) (flags : List (BitVec 4)) :
    (∀ o, (c.publish n t flags).reg o = c.reg o) ∧ (c.publish n t flags).net = c.net := by
  have hslots : ∀ old, c.MovesSlots ((c.setSlots old .retired .none).setSlots t.slots .mapped (.name n)) := fun old =>
    (c.movesSlots_setSlots old _ _).trans (Ctl.movesSlots_setSlots _ _ _ _)
  have hmap : (∀ o, (c.mapTo n t flags).reg o = c.reg o) ∧ (c.mapTo n t flags).net = c.net :=
    ⟨fun o => (hslots _).reg o, (hslots _).net⟩
  rw [Ctl.publish_eq]
  split
  · have hmig := (c.mapTo n t flags).movesSlots_requireMig n
    exact ⟨fun o => (hmig.reg o).trans (hmap.1 o), hmig.net.trans hmap.2⟩
  · exact hmap

/-- Dropping what an incoming transfer holds leaves the names, the registers, and which transfers come in. -/
theorem Ctl.dropIncoming_frame (c : Ctl) (l : Nat) : (c.dropIncoming l).regs = c.regs ∧ (c.dropIncoming l).names = c.names ∧
    (c.dropIncoming l).net.incoming = c.net.incoming := by
  obtain ⟨c', hclear, hregs, hnames, hnet⟩ : ∃ c' : Ctl, c'.MovesSlots (c.dropIncoming l) ∧ c'.regs = c.regs ∧
      c'.names = c.names ∧ c'.net.incoming = c.net.incoming := ⟨_, Ctl.movesSlots_clearSlots _ _, rfl, rfl, rfl⟩
  exact ⟨hclear.regs.trans hregs, hclear.names.trans hnames, (congrArg Net.incoming hclear.net).trans hnet⟩

/-! ### COMMIT -/

/-- The transfer of a link no longer comes in. -/
def Ctl.incomingGone (c : Ctl) (l : Nat) : Ctl := c.modNet fun y => { y with incoming := y.incoming.del l }

/-- The name takes the table that has come in. -/
def Ctl.publishIncoming (c : Ctl) (l : Nat) (x : Incoming) (y : FragTable) : Ctl :=
  ((c.incomingGone l).publish x.name y (List.replicate y.rows 0)).reapRetired

/-- A transfer of a name from a link is counted, and is the last that came in. -/
def Ctl.countIncoming (c : Ctl) (l n : Nat) : Ctl :=
  (c.count rQUOIN_IN_COMMITS 1).setReg rQUOIN_LAST_IN (word (c.linkPeer l * 2 ^ 24 + n))

theorem exec_commitWord {s : State} {l : Nat} {x : Incoming} {y : FragTable} (ht : s.takes (.commitWord l) = true)
    (hfind : s.ctl.net.incoming.find? (·.1 = l) = some (l, x)) (htable : x.table = some y) (hplaced : y.frags ≠ [])
    (hdone : y.count ≤ x.doneFrags.length) :
    exec (.commitWord l) s = .next { s with ctl :=
      if (s.ctl.name x.name).live && (s.ctl.name x.name).inc = x.inc then
        (s.ctl.publishIncoming l x y).countIncoming l x.name
      else (s.ctl.incomingGone l).dropIncoming l } := by
  change execCommitWord l s = _
  rw [execCommitWord, ctlStep_takes _ ht, hfind]
  dsimp only
  rw [htable]
  dsimp only
  rw [if_neg (by simpa [Nat.not_lt.mpr hdone] using hplaced)]
  rfl

theorem Ctl.publishIncoming_spec (c : Ctl) (l : Nat) (x : Incoming) (y : FragTable) :
    ((c.publishIncoming l x y).name x.name).table = y ∧ (∀ o, (c.publishIncoming l x y).reg o = c.reg o) ∧
      (c.publishIncoming l x y).net.incoming = c.net.incoming.del l := by
  obtain ⟨-, hname⟩ := (c.incomingGone l).publish_spec x.name y (List.replicate y.rows 0)
  obtain ⟨hreg, hnet⟩ := (c.incomingGone l).publish_reg x.name y (List.replicate y.rows 0)
  have hreap := ((c.incomingGone l).publish x.name y (List.replicate y.rows 0)).movesSlots_clearSlots
    ((((c.incomingGone l).publish x.name y (List.replicate y.rows 0)).slots.filter fun p => p.2.state = .retired &&
      !((c.incomingGone l).publish x.name y (List.replicate y.rows 0)).stillRead p.1).map (·.1))
  refine ⟨?_, fun o => (hreap.reg o).trans (hreg o), congrArg Net.incoming (hreap.net.trans hnet)⟩
  have hkept : (c.publishIncoming l x y).name x.name =
      ((c.incomingGone l).publish x.name y (List.replicate y.rows 0)).name x.name := congrArg (Tab.get _ · _) hreap.names
  rw [hkept, hname]

theorem commitWord_publishes {s : State} {l : Nat} {x : Incoming} {y : FragTable} (ht : s.takes (.commitWord l) = true)
    (hfind : s.ctl.net.incoming.find? (·.1 = l) = some (l, x)) (htable : x.table = some y) (hplaced : y.frags ≠ [])
    (hdone : y.count ≤ x.doneFrags.length) (hlive : (s.ctl.name x.name).live = true) (hinc : (s.ctl.name x.name).inc = x.inc) :
    ∃ t, exec (.commitWord l) s = .next t ∧ t.ctl.net.incoming.find? (·.1 = l) = none ∧ (t.ctl.name x.name).table = y ∧
      s.ctl.counted t.ctl rQUOIN_IN_COMMITS 1 ∧ t.ctl.reg rQUOIN_LAST_IN = word (s.ctl.linkPeer l * 2 ^ 24 + x.name) := by
  obtain ⟨htab, hreg, hnet⟩ := s.ctl.publishIncoming_spec l x y
  rw [exec_commitWord ht hfind htable hplaced hdone, if_pos (by simp [hlive, hinc])]
  have hpeer : (s.ctl.publishIncoming l x y).linkPeer l = s.ctl.linkPeer l := by rw [Ctl.linkPeer, Ctl.rf, hreg]; rfl
  refine ⟨_, rfl, (congrArg (List.find? _) hnet).trans (Tab.find?_del_self _ _), htab, ?_, ?_⟩
  · exact Ctl.counted_of_before (hreg _) (Ctl.reg_setReg_ne _ _ (by decide))
  · exact (Ctl.reg_setReg_self _ _ _).trans (congrArg (fun p => word (p * 2 ^ 24 + x.name)) hpeer)

theorem commitWord_drops {s : State} {l : Nat} {x : Incoming} {y : FragTable} (ht : s.takes (.commitWord l) = true)
    (hfind : s.ctl.net.incoming.find? (·.1 = l) = some (l, x)) (htable : x.table = some y) (hplaced : y.frags ≠ [])
    (hdone : y.count ≤ x.doneFrags.length) (hstale : (s.ctl.name x.name).live = false ∨ (s.ctl.name x.name).inc ≠ x.inc) :
    ∃ t, exec (.commitWord l) s = .next t ∧ t.ctl.net.incoming.find? (·.1 = l) = none ∧ t.ctl.names = s.ctl.names ∧
      t.ctl.regs = s.ctl.regs := by
  obtain ⟨hregs, hnames, hnet⟩ := (s.ctl.incomingGone l).dropIncoming_frame l
  rw [exec_commitWord ht hfind htable hplaced hdone, if_neg (by rcases hstale with h | h <;> simp [h])]
  exact ⟨_, rfl, (congrArg (List.find? _) hnet).trans (Tab.find?_del_self _ _), hnames, hregs⟩

/-! ### Words on links that are open -/

/-- Words went out, and else nothing changed but their handshakes and charges. -/
structure Ctl.Sends (c c' : Ctl) (os : List Out) : Prop where
  outbox : c'.outbox = c.outbox ++ os
  reg : ∀ o, c'.reg o = c.reg o
  owed : ∀ j, (c'.link j).owed = (c.link j).owed
  descs : ∃ g : Desc → Desc, c'.descs = c.descs.map g ∧ ∀ e, (g e).key = e.key

theorem Ctl.Sends.refl (c : Ctl) : c.Sends c [] :=
  ⟨(List.append_nil _).symm, fun _ => rfl, fun _ => rfl, id, (List.map_id _).symm, fun _ => rfl⟩

theorem Ctl.Sends.trans {c c' c'' : Ctl} {os os' : List Out} (h : c.Sends c' os) (h' : c'.Sends c'' os') :
    c.Sends c'' (os ++ os') := by
  obtain ⟨g, hg, hkey⟩ := h.descs
  obtain ⟨g', hg', hkey'⟩ := h'.descs
  refine ⟨?_, fun o => (h'.reg o).trans (h.reg o), fun j => (h'.owed j).trans (h.owed j), g' ∘ g, ?_, fun e =>
    (hkey' (g e)).trans (hkey e)⟩
  · rw [h'.outbox, h.outbox, List.append_assoc]
  · rw [hg', hg, List.map_map]

theorem Ctl.Sends.linksGated {c c' : Ctl} {os : List Out} (h : c.Sends c' os) : c'.linksGated = c.linksGated := by
  have hpstate : c'.pstate = c.pstate := by simp only [Ctl.pstate, Ctl.rf, h.reg]
  rw [Ctl.linksGated, hpstate, Ctl.linksGated]

/-- A descriptor stands under its key as before. -/
theorem Ctl.Sends.desc? {c c' : Ctl} {os : List Out} (h : c.Sends c' os) {k : Key} {d : Desc} (hdesc : c.desc? k = some d) :
    ∃ e, c'.desc? k = some e := by
  obtain ⟨g, hg, hkey⟩ := h.descs
  rw [Ctl.desc?] at hdesc
  exact ⟨g d, by rw [Ctl.desc?, hg, find?_map_of_key hkey, hdesc]; rfl⟩

theorem Ctl.sends_charge (c : Ctl) (who : Account) (k n : Nat) : c.Sends (c.charge who k n) [] := by
  obtain ⟨g, hg, hkey⟩ := c.charge_descs who k n
  have hframe : (c.charge who k n).outbox = c.outbox ∧ (c.charge who k n).net = c.net := by
    unfold Ctl.charge Ctl.addAccount
    dsimp only
    split
    · exact ⟨rfl, rfl⟩
    · split <;> exact ⟨rfl, rfl⟩
  refine ⟨?_, fun o => c.charge_reg who k n o, fun j => ?_, g, hg, fun e => (hkey e).1⟩
  · rw [hframe.1, List.append_nil]
  · rw [Ctl.link, hframe.2, Ctl.link]

/-- Words that an empty, ungated link takes go out at once (R424). -/
theorem Ctl.sends_sendLinkFor {c : Ctl} {l : Nat} (hgated : c.linksGated = false) (howed : (c.link l).owed = []) (who : Account)
    (kind ctl : Nat) (ws : List Word) : c.Sends (c.sendLinkFor who l kind ctl ws) [.link l kind ctl ws] := by
  have hsend : ∀ c : Ctl, c.Sends ((c.emit (.link l kind ctl ws)).modLink l fun k => { k with deadline := some (c.after 16) })
      [.link l kind ctl ws] := fun c => by
    refine ⟨rfl, fun _ => rfl, fun j => ?_, id, (List.map_id _).symm, fun _ => rfl⟩
    rw [Ctl.modLink_link]
    split
    next h => subst h; rfl
    · rfl
  rw [Ctl.sendLinkFor, if_neg (by simp [hgated, howed])]
  dsimp only
  split
  · exact hsend c
  · exact (c.sends_charge who 6 ws.length).trans (hsend _)

/-- The words of each beat go out in their order. -/
theorem Ctl.sends_each {α : Type} (who : Account) (kind : Nat) (link ctl : α → Nat) (ws : α → List Word) (l : List α) {c : Ctl}
    (hgated : c.linksGated = false) (howed : ∀ a ∈ l, (c.link (link a)).owed = []) :
    c.Sends (c.each l fun c a => c.sendLinkFor who (link a) kind (ctl a) (ws a))
      (l.map fun a => .link (link a) kind (ctl a) (ws a)) := by
  induction l generalizing c with
  | nil => exact .refl c
  | cons a l ih =>
    have hfirst := Ctl.sends_sendLinkFor hgated (howed a List.mem_cons_self) who kind (ctl a) (ws a)
    exact hfirst.trans (ih (hfirst.linksGated.trans hgated) fun b hb =>
      (hfirst.owed _).trans (howed b (List.mem_cons_of_mem a hb)))

/-! ### RESEND -/

/-- The beats of a destination. -/
def Ctl.aliasBeats (c : Ctl) (d : Desc) : List (List Word × Nat) :=
  (chunksOf c.beatWords (shLen d.dShape) d.aliasWords).zipIdx

/-- The words of a destination on their way to the peer. -/
def Ctl.sendBeats (c : Ctl) (d : Desc) (l : Nat) : Ctl :=
  c.each (c.aliasBeats d) fun c b => c.sendLinkFor (.desc d.key) l 5 (b.2 % 4096) b.1

theorem Ctl.sendAlias_eq (c : Ctl) (d : Desc) (l : Nat) : c.sendAlias d l =
    ((c.sendBeats d l).count rQUOIN_OUT_VECTORS ((shLen d.dShape + 8191) / 8192)).modDesc d.key fun d =>
      { d with stage := .peer, phase := 2 } := rfl

theorem Ctl.sends_sendBeats {c : Ctl} {l : Nat} (hgated : c.linksGated = false) (howed : (c.link l).owed = []) (d : Desc) :
    c.Sends (c.sendBeats d l) ((c.aliasBeats d).map fun b => .link l 5 (b.2 % 4096) b.1) :=
  Ctl.sends_each (.desc d.key) 5 (fun _ => l) (fun b : List Word × Nat => b.2 % 4096) Prod.fst (c.aliasBeats d) hgated
    fun _ _ => howed

theorem exec_resend {s : State} {l : Nat} {d : Desc} (ht : s.takes (.resend l) = true) (hsent : s.ctl.aliasSent l = some d)
    (hwait : d.sigWait = false) : exec (.resend l) s =
      .next { s with ctl := ((s.ctl.sendAlias d l).modDesc d.key fun d => { d with restarted := true }).count rRESTARTS 1 } := by
  change execResend l s = _
  rw [execResend, ctlStep_takes _ ht, hsent]
  simp only [hwait, Bool.false_eq_true, if_false]

theorem resend_spec {s : State} {l : Nat} {d : Desc} (ht : s.takes (.resend l) = true) (hsent : s.ctl.aliasSent l = some d)
    (hdesc : s.ctl.desc? d.key = some d) (hwait : d.sigWait = false) (hgated : s.ctl.linksGated = false)
    (howed : (s.ctl.link l).owed = []) :
    ∃ t e, exec (.resend l) s = .next t ∧ t.ctl.desc? d.key = some e ∧ e.restarted = true ∧ e.stage = .peer ∧
      s.ctl.counted t.ctl rRESTARTS 1 ∧
      t.ctl.outbox = s.ctl.outbox ++ ((s.ctl.aliasBeats d).map fun b => .link l 5 (b.2 % 4096) b.1) := by
  have hsends := Ctl.sends_sendBeats hgated howed d
  obtain ⟨e, he⟩ := hsends.desc? hdesc
  have hmarked : ((s.ctl.sendAlias d l).modDesc d.key fun d => { d with restarted := true }).desc? d.key =
      some { e with stage := .peer, phase := 2, restarted := true } := by
    have hsent : (s.ctl.sendAlias d l).desc? d.key = some { e with stage := .peer, phase := 2 } := by
      rw [Ctl.sendAlias_eq]
      exact Ctl.desc?_modDesc_some (c := (s.ctl.sendBeats d l).count _ _) he fun _ => rfl
    exact Ctl.desc?_modDesc_some hsent fun _ => rfl
  have hrestarts : ((s.ctl.sendAlias d l).modDesc d.key fun d => { d with restarted := true }).reg rRESTARTS =
      s.ctl.reg rRESTARTS := (Ctl.reg_setReg_ne _ _ (by decide)).trans (hsends.reg _)
  exact ⟨_, _, exec_resend ht hsent hwait, hmarked, rfl, rfl, Ctl.counted_of_before hrestarts rfl, hsends.outbox⟩

/-! ### The settled statement -/

/-- Settles O55: a beat is taken in its turn alone, COMMIT publishes under the incarnation that the query saw, its acknowledgement
completes the sender's descriptor outside a pair, and RESEND sends each beat of the destination again. -/
theorem aliasTransfers : Obligations.AliasTransfers := by
  unfold Obligations.AliasTransfers
  refine ⟨fun s l unit ws x y ht hfind htable hplaced => ?_, fun s l d ht hsent hdesc hgated howed => ?_,
    fun s l x y ht hfind htable hplaced hdone => ?_, fun s l d ht hsent hdesc hwait halone => ?_,
    fun s l d ht hsent hdesc hwait hgated howed => resend_spec ht hsent hdesc hwait hgated howed⟩
  · have hexec : exec (.quoinData l unit ws) s = .next { s with ctl := s.ctl.dataIn l unit ws } :=
      ctlStep_takes (fun c => c.dataIn l unit ws) ht
    rw [Ctl.dataIn_of_placed hfind htable hplaced] at hexec
    refine ⟨_, hexec, fun hturn => ?_, fun hother => ?_⟩
    · rw [if_pos hturn]
      exact ⟨Tab.find?_set_self _ _ _, by simp [Ctl.dataFlits]⟩
    · rw [if_neg hother]
  · refine ⟨_, exec_ready ht hsent, Ctl.sendLink_outbox hgated howed _ _ _, ?_⟩
    exact Ctl.desc?_modDesc_some ((s.ctl.desc?_sendLink l 7 0 [] d.key).trans hdesc) fun _ => rfl
  · by_cases hcommits : (s.ctl.name x.name).live = true ∧ (s.ctl.name x.name).inc = x.inc
    · obtain ⟨hlive, hinc⟩ := hcommits
      obtain ⟨t, hexec, hgone, hdid⟩ := commitWord_publishes ht hfind htable hplaced hdone hlive hinc
      exact ⟨t, hexec, hgone, fun _ _ => hdid, fun hstale => by simp [hlive, hinc] at hstale⟩
    · have hstale : (s.ctl.name x.name).live = false ∨ (s.ctl.name x.name).inc ≠ x.inc := by
        simpa only [Decidable.not_and_iff_or_not, Bool.not_eq_true] using hcommits
      obtain ⟨t, hexec, hgone, hkept⟩ := commitWord_drops ht hfind htable hplaced hdone hstale
      exact ⟨t, hexec, hgone, fun hlive hinc => absurd ⟨hlive, hinc⟩ hcommits, fun _ => hkept⟩
  · have hopen : d.completed = false := by simp [Desc.completed, Ctl.stage_of_aliasSent hsent]
    exact ⟨_, exec_quoinCommitAck ht hsent hwait, Ctl.finish_endsWith_of_alone (c := s.ctl.modLink l _) hdesc hopen halone _ _⟩

end Sys2Proof.Machine

/-!
SUPPORT. Joining (R209), entries and queries of aliases and their answers (R210, R211), a link that is down (R424), and the settled
statement about them.
-/
namespace Sys2Proof.Machine

/-! ### JOIN words that are checked (Table 6.7) -/

theorem Ctl.SetsOnly.raise (c : Ctl) {off : Nat} {offs : List Nat} (i : Nat) (h : off ∈ offs) : c.SetsOnly (c.raise off i) offs :=
  .setReg c _ h

theorem Ctl.SetsOnly.setRf (c : Ctl) {off : Nat} {offs : List Nat} (lo n v : Nat) (h : off ∈ offs) :
    c.SetsOnly (c.setRf off lo n v) offs := .setReg c _ h

theorem Ctl.SetsOnly.each {α : Type} (c : Ctl) (l : List α) {f : Ctl → α → Ctl} {offs : List Nat}
    (hf : ∀ (c : Ctl) (a : α), c.SetsOnly (f c a) offs) : c.SetsOnly (c.each l f) offs :=
  Ctl.each_induction (P := fun c' => c.SetsOnly c' offs) (fun c' a h => h.trans (hf c' a)) l (.refl c offs)

/-- A bit that stands in a register still stands after another is raised there. -/
theorem Ctl.bit_raise_of_bit {c : Ctl} {off i : Nat} (h : bit (c.reg off) i = true) (j : Nat) :
    bit ((c.raise off j).reg off) i = true := by
  rw [Ctl.reg_raise, if_pos rfl, bit_or, h, Bool.true_or]

/-- A bit outside a field keeps its value when the field is written. -/
theorem Ctl.bit_setRf_apart (c : Ctl) (off : Nat) {lo n i : Nat} (v : Nat) (h : i < lo ∨ lo + n ≤ i) :
    bit ((c.setRf off lo n v).reg off) i = bit (c.reg off) i := by
  rw [Ctl.reg_setRf, if_pos rfl, bit_setFld, if_neg (by omega)]

theorem Ctl.mem_joinWords {c : Ctl} {j : Nat} {w : Word} :
    (j, w) ∈ c.joinWords ↔ j < 3 ∧ ∃ v, (c.link j).peer = some v ∧ word v = w := by
  simp [Ctl.joinWords]

theorem Ctl.checkJoin_of_clash {c : Ctl} {p : Nat × Word} (hp : p ∈ c.joinWords) (hclash : c.wordClashes p.2 = true) :
    c.checkJoin = (c.setRf rQUOIN_STATUS 8 3 2).raise rQUOIN_STATUS 1 := if_pos (List.any_eq_true.mpr ⟨p, hp, hclash⟩)

theorem Ctl.checkJoin_setsOnly (c : Ctl) : c.SetsOnly c.checkJoin [rQUOIN_STATUS] := by
  have hraise : ∀ (c : Ctl) (i : Nat), c.SetsOnly (c.raise rQUOIN_STATUS i) [rQUOIN_STATUS] := fun c i =>
    .raise c i List.mem_cons_self
  unfold Ctl.checkJoin
  split
  · exact (Ctl.SetsOnly.setRf c 8 3 2 List.mem_cons_self).trans (hraise _ _)
  · split
    · exact .refl c _
    · exact (Ctl.SetsOnly.each c _ fun c p => hraise c _).trans (hraise _ _)

/-- The link of a JOIN word is up. -/
def Ctl.raiseLinkUp (c : Ctl) (p : Nat × Word) : Ctl := c.raise rQUOIN_STATUS (16 + fld p.2 0 2)

theorem Ctl.linkUp_raised {c : Ctl} {p : Nat × Word} {l : List (Nat × Word)} (hp : p ∈ l) :
    (c.each l Ctl.raiseLinkUp).linkUp (fld p.2 0 2) = true := by
  have hbits : fld p.2 0 2 < 4 := Nat.mod_lt _ (by decide)
  refine Ctl.each_reaches (P := fun _ => True) (Q := fun c => c.linkUp (fld p.2 0 2) = true) (fun c _ => ?_)
    (fun _ _ _ => .inl trivial) (fun c _ h => ?_) hp trivial
  · exact c.bit_raise_self rQUOIN_STATUS (by omega)
  · exact Ctl.bit_raise_of_bit (off := rQUOIN_STATUS) h _

/-- Where no word clashes the block is joined, and the link of each word is up. -/
theorem Ctl.checkJoin_joins {c : Ctl} {p : Nat × Word} (hp : p ∈ c.joinWords)
    (hall : ∀ q ∈ c.joinWords, c.wordClashes q.2 = false) :
    c.checkJoin.joined = true ∧ c.checkJoin.linkUp (fld p.2 0 2) = true := by
  have hjoin : c.checkJoin = (c.each c.joinWords Ctl.raiseLinkUp).raise rQUOIN_STATUS 0 := by
    rw [Ctl.checkJoin, if_neg (by simpa using hall), if_neg (by simpa using List.ne_nil_of_mem hp)]
    rfl
  rw [hjoin]
  exact ⟨Ctl.bit_raise_self _ rQUOIN_STATUS (by decide), Ctl.bit_raise_of_bit (off := rQUOIN_STATUS) (Ctl.linkUp_raised hp) 0⟩

/-! ### JOIN -/

/-- The fields of QUOIN_CTL that a JOIN uses pass through its write mask. -/
theorem quoinCtl_fields (d : Word) : fld (d &&& 0xFF0F0301) 8 2 = fld d 8 2 ∧ fld (d &&& 0xFF0F0301) 16 4 = fld d 16 4 ∧
    ∀ k < 4, bit (d &&& 0xFF0F0301) (16 + k) = bit d (16 + k) := by
  have h8 : ∀ j < 2, bit 0xFF0F0301#32 (8 + j) = true := by decide
  have h16 : ∀ j < 4, bit 0xFF0F0301#32 (16 + j) = true := by decide
  have hbit : ∀ i, bit 0xFF0F0301#32 i = true → bit (d &&& 0xFF0F0301) i = bit d i := fun i h => by simp [h]
  exact ⟨fld_congr fun j hj => hbit _ (h8 j hj), fld_congr fun j hj => hbit _ (h16 j hj), fun k hk => hbit _ (h16 k hk)⟩

/-- The own JOIN word (Table 6.7). -/
def Ctl.ownJoinWord (c : Ctl) : Word := word (c.rf rQUOIN_CTL 8 2 + c.rf rQUOIN_CTL 16 4 * 2 ^ 4)

/-- The links to the peers that a JOIN names. -/
def Ctl.joinLinks (c : Ctl) : List Nat := (List.range 3).filter fun l => bit (c.reg rQUOIN_CTL) (16 + c.linkPeer l)

theorem Ctl.lt_of_mem_joinLinks {c : Ctl} {l : Nat} (h : l ∈ c.joinLinks) : l < 3 := by
  rw [Ctl.joinLinks, List.mem_filter, List.mem_range] at h
  exact h.1

/-- The own word goes to every named peer. -/
def Ctl.sendJoin (c : Ctl) : Ctl := c.each c.joinLinks fun c' l => c'.sendLink l 1 0 [c.ownJoinWord]

/-- JOINED with no peer named, else the words received are checked, where links are not gated. -/
def Ctl.joinSent (c : Ctl) : Ctl :=
  if c.rf rQUOIN_CTL 16 4 = 0 then c.raise rQUOIN_STATUS 0 else if c.linksGated then c else c.checkJoin

theorem Ctl.joinSent_setsOnly (c : Ctl) : c.SetsOnly c.joinSent [rQUOIN_STATUS] := by
  unfold Ctl.joinSent
  split
  · exact .raise c 0 List.mem_cons_self
  · split
    · exact .refl c _
    · exact c.checkJoin_setsOnly

theorem Ctl.startJoin_paired {c : Ctl} (h : bit (c.reg rPAIR_STATUS) 31 = true) :
    c.startJoin = (c.setRf rQUOIN_STATUS 8 3 1).raise rQUOIN_STATUS 1 := if_pos h

theorem Ctl.startJoin_alone {c : Ctl} (h : bit (c.reg rPAIR_STATUS) 31 = false) : c.startJoin = c.sendJoin.joinSent := by
  rw [Ctl.startJoin, if_neg (by simp [h])]
  rfl

/-- An error that QUOIN_STATUS reports: ERR and its code, with JOINED as it was. -/
theorem Ctl.quoinError_spec (c : Ctl) {code : Nat} (hcode : code < 8) :
    ((c.setRf rQUOIN_STATUS 8 3 code).raise rQUOIN_STATUS 1).joined = c.joined ∧
      bit (((c.setRf rQUOIN_STATUS 8 3 code).raise rQUOIN_STATUS 1).reg rQUOIN_STATUS) 1 = true ∧
      fld (((c.setRf rQUOIN_STATUS 8 3 code).raise rQUOIN_STATUS 1).reg rQUOIN_STATUS) 8 3 = code := by
  have hraised : ((c.setRf rQUOIN_STATUS 8 3 code).raise rQUOIN_STATUS 1).reg rQUOIN_STATUS =
      setFld (c.reg rQUOIN_STATUS) 8 3 code ||| 1#32 <<< 1 := by
    rw [Ctl.reg_raise, if_pos rfl, Ctl.reg_setRf, if_pos rfl]
  rw [Ctl.joined, Ctl.joined, hraised]
  refine ⟨?_, ?_, ?_⟩
  · rw [bit_raised _ (by decide), bit_setFld]
    simp
  · rw [bit_raised _ (by decide)]
    simp
  · rw [fld_congr (b := setFld (c.reg rQUOIN_STATUS) 8 3 code) (lo' := 8), fld_setFld_same _ _ (by decide),
      Nat.mod_eq_of_lt (show code < 2 ^ 3 from hcode)]
    intro j _
    rw [bit_raised _ (by decide)]
    simp
    omega

/-- Whatever the state, a JOIN keeps the fields it was written with. -/
theorem Ctl.startJoin_quoinCtl (c : Ctl) : c.startJoin.reg rQUOIN_CTL = c.reg rQUOIN_CTL := by
  have hne : rQUOIN_CTL ∉ [rQUOIN_STATUS] := by decide
  cases h : bit (c.reg rPAIR_STATUS) 31
  · have hsend : c.Beside c.sendJoin := .each c _ fun c l => c.sendLink_beside l 1 0 _
    rw [Ctl.startJoin_alone h, c.sendJoin.joinSent_setsOnly.2 _ hne, hsend.regs _ (by decide)]
  · rw [Ctl.startJoin_paired h]
    exact ((Ctl.SetsOnly.setRf c 8 3 1 List.mem_cons_self).trans (.raise _ 1 List.mem_cons_self)).2 _ hne

/-- On open links each word goes out at once. -/
theorem Ctl.startJoin_outbox {c : Ctl} (halone : bit (c.reg rPAIR_STATUS) 31 = false) (hgated : c.linksGated = false)
    (howed : ∀ l < 3, (c.link l).owed = []) :
    c.startJoin.outbox = c.outbox ++ c.joinLinks.map fun l => .link l 1 0 [c.ownJoinWord] := by
  have hsend : c.Sends c.sendJoin (c.joinLinks.map fun l => .link l 1 0 [c.ownJoinWord]) :=

    Ctl.sends_each .background 1 id (fun _ => 0) (fun _ => [c.ownJoinWord]) c.joinLinks hgated fun l hl =>
      howed l (Ctl.lt_of_mem_joinLinks hl)
  rw [Ctl.startJoin_alone halone, c.sendJoin.joinSent_setsOnly.1, ← hsend.outbox]

/-- QUOIN_CTL as a JOIN has written it. -/
def Ctl.asksJoin (c : Ctl) (d : Word) : Ctl := c.setReg rQUOIN_CTL (d &&& 0xFF0F0301)

theorem Ctl.asksJoin_own (c : Ctl) (d : Word) : (c.asksJoin d).ownJoinWord = word (fld d 8 2 + fld d 16 4 * 2 ^ 4) ∧
    (c.asksJoin d).joinLinks = (List.range 3).filter fun l => bit d (16 + (fld d 8 2 + 1 + l) % 4) := by
  obtain ⟨hself, hpeers, hbits⟩ := quoinCtl_fields d
  have hreg : (c.asksJoin d).reg rQUOIN_CTL = d &&& 0xFF0F0301 := Ctl.reg_setReg_self c _ _
  refine ⟨?_, List.filter_congr fun l _ => ?_⟩
  · rw [Ctl.ownJoinWord, Ctl.rf, Ctl.rf, hreg, hself, hpeers]
  · rw [Ctl.linkPeer, Ctl.rf, hreg, hself, hbits _ (Nat.mod_lt _ (by decide))]

theorem exec_join {s : State} {id : Byte} {d : Word} (h : s.reaches (.join id d) id rQUOIN_CTL = true)
    (hpriv : s.ctl.mbPriv id = true) (hjoin : bit d 0 = true) (hopen : s.ctl.joined = false) :
    exec (.join id d) s = .next { s with ctl := { (s.ctl.asksJoin d).startJoin with regRdata := 0 } } := by
  have hwrite : s.ctl.writeQuoinCtl d = (s.ctl.asksJoin d).startJoin := by
    rw [Ctl.writeQuoinCtl, hopen, hjoin]
    rfl
  change execJoin id d s = _
  simp only [execJoin, hjoin, if_true]
  rw [ctlStep_access_of_reaches (allowed := (·.mbPriv id)) h hpriv, hwrite]

/-! ### JOIN_WORD -/

/-- A JOIN word is kept. -/
def Ctl.withJoinWord (c : Ctl) (l : Nat) (w : Word) : Ctl := c.modLink l fun k => { k with peer := some w.toNat, alive := true }

theorem exec_joinWord {s : State} {l : Nat} {w : Word} (ht : s.takes (.joinWord l w) = true) (hgated : s.ctl.linksGated = false) :
    exec (.joinWord l w) s = .next { s with ctl :=
      if (s.ctl.withJoinWord l w).joining then (s.ctl.withJoinWord l w).checkJoin else s.ctl.withJoinWord l w } := by
  change execJoinWord l w s = _
  rw [execJoinWord, ctlStep_takes _ ht, hgated]
  rfl

/-- The words received are those before but for the new one. -/
theorem Ctl.mem_joinWords_withJoinWord {c : Ctl} {l : Nat} {w : Word} {p : Nat × Word} (hl : l < 3) :
    p ∈ (c.withJoinWord l w).joinWords ↔ p = (l, w) ∨ (p.1 ≠ l ∧ p ∈ c.joinWords) := by
  obtain ⟨j, v⟩ := p
  rw [Ctl.mem_joinWords, Ctl.mem_joinWords, Ctl.withJoinWord, Ctl.modLink_link]
  by_cases hj : l = j
  · subst hj
    simp [hl, word, eq_comm]
  · simp [hj, Ne.symm hj]

theorem lt_of_takes_joinWord {s : State} {l : Nat} {w : Word} (ht : s.takes (.joinWord l w) = true) : l < 3 := by
  simp only [State.takes, Instr.wf, linkOk, Bool.and_eq_true, decide_eq_true_eq] at ht
  exact ht.2

/-- What comes of a JOIN word once a join is asked for here: a clash of its own, or a join where no word clashes. -/
theorem Ctl.withJoinWord_checked {c : Ctl} {l : Nat} (w : Word) (hl : l < 3) :
    (c.wordClashes w = false → (∀ p ∈ c.joinWords, p.1 ≠ l → c.wordClashes p.2 = false) →
      (c.withJoinWord l w).checkJoin.joined = true ∧ (c.withJoinWord l w).checkJoin.linkUp (fld w 0 2) = true) ∧
    (c.wordClashes w = true → (c.withJoinWord l w).checkJoin.joined = c.joined ∧
      bit ((c.withJoinWord l w).checkJoin.reg rQUOIN_STATUS) 1 = true ∧
      fld ((c.withJoinWord l w).checkJoin.reg rQUOIN_STATUS) 8 3 = 2) := by
  have hmem : (l, w) ∈ (c.withJoinWord l w).joinWords := (Ctl.mem_joinWords_withJoinWord hl).mpr (.inl rfl)
  refine ⟨fun hgood hothers => Ctl.checkJoin_joins hmem fun q hq => ?_, fun hclash => ?_⟩
  · rcases (Ctl.mem_joinWords_withJoinWord hl).mp hq with rfl | ⟨hne, hold⟩
    · exact hgood
    · exact hothers q hold hne
  · rw [Ctl.checkJoin_of_clash hmem hclash]
    exact Ctl.quoinError_spec _ (by decide)

theorem Ctl.wordClashes_eq_false {c : Ctl} {w : Word} : c.wordClashes w = false ↔
    fld w 0 2 ≠ fld (c.reg rQUOIN_CTL) 8 2 ∧ bit (c.reg rQUOIN_CTL) (16 + fld w 0 2) = true := by
  rw [Ctl.wordClashes, Bool.or_eq_false_iff, decide_eq_false_iff_not, Bool.not_eq_false', Ctl.rf]

/-- A JOIN word is kept whatever is checked. -/
theorem joinWord_kept {s : State} {l : Nat} {w : Word} (ht : s.takes (.joinWord l w) = true) (hgated : s.ctl.linksGated = false) :
    ∃ t, exec (.joinWord l w) s = .next t ∧ (t.ctl.link l).peer = some w.toNat ∧ (t.ctl.link l).alive = true ∧
      (s.ctl.joining = true → t.ctl = (s.ctl.withJoinWord l w).checkJoin) := by
  have hlink : ∀ c : Ctl, c.net = (s.ctl.withJoinWord l w).net → (c.link l).peer = some w.toNat ∧ (c.link l).alive = true :=
    fun c hnet => by
      rw [Ctl.link, hnet]
      change ((s.ctl.withJoinWord l w).link l).peer = _ ∧ ((s.ctl.withJoinWord l w).link l).alive = _
      rw [Ctl.withJoinWord, Ctl.modLink_link, if_pos rfl]
      exact ⟨rfl, rfl⟩
  have hcheck : (s.ctl.withJoinWord l w).checkJoin.net = (s.ctl.withJoinWord l w).net := by
    rw [(Ctl.checkJoin_setsOnly _).1]
  have hjoining : (s.ctl.withJoinWord l w).joining = s.ctl.joining := rfl
  rw [exec_joinWord ht hgated, hjoining]
  cases s.ctl.joining
  · exact ⟨_, rfl, (hlink _ rfl).1, (hlink _ rfl).2, fun h => absurd h (by decide)⟩
  · exact ⟨_, rfl, (hlink _ hcheck).1, (hlink _ hcheck).2, fun _ => rfl⟩

/-! ### Alias entries (R210) -/

/-- The register that a write of an entry for aliases names. -/
def aliasReg (a : Nat) (second : Bool) : Nat := if second then rQUOIN_ALIAS_B a else rQUOIN_ALIAS_A a

/-- What a write leaves in such an entry: one that would make it VALID over a LIVE name is ignored. -/
def Ctl.aliasWritten (c : Ctl) (a : Nat) (second : Bool) (d : Word) : Word :=
  if second then d &&& 0x003F3FFF
  else if bit d 31 && (c.name (fld d 0 14)).live then c.reg (aliasReg a second) else d &&& 0xBF033FFF

theorem Ctl.writeAlias_spec (c : Ctl) (a : Nat) (second : Bool) (d : Word) :
    c.SetsOnly (c.writeAlias a second d) [aliasReg a second] ∧
      (c.writeAlias a second d).reg (aliasReg a second) = c.aliasWritten a second d := by
  cases second
  · rw [Ctl.writeAlias, Ctl.aliasWritten, if_neg Bool.false_ne_true, if_neg Bool.false_ne_true]
    split
    · exact ⟨.refl c _, rfl⟩
    · exact ⟨.setReg c _ List.mem_cons_self, Ctl.reg_setReg_self c _ _⟩
  · exact ⟨.setReg c _ List.mem_cons_self, Ctl.reg_setReg_self c _ _⟩

theorem exec_quoinAliasWrite {s : State} {a : Nat} {second : Bool} {id : Byte} {d : Word}
    (h : s.reaches (.quoinAliasWrite a second id d) id (aliasReg a second) = true) (hmay : s.ctl.aliasAllowed id = true) :
    exec (.quoinAliasWrite a second id d) s = .next { s with ctl := { s.ctl.writeAlias a second d with regRdata := 0 } } :=
  ctlStep_access_of_reaches (allowed := (·.aliasAllowed id)) h hmay fun c => { c.writeAlias a second d with regRdata := 0 }

/-! ### Alias queries and answers (R211) -/

/-- The record of a name, as the answer to a query gives it. -/
def Ctl.aliasRecord (c : Ctl) (n : Nat) : List Word :=
  [word ((if (c.name n).live then 2 ^ 31 + (c.name n).domain * 2 ^ 24 else 0) + (c.name n).inc.toNat), (c.name n).shape,
    (c.name n).modulus]

theorem Ctl.linksGated_congr {c c' : Ctl} (h : c'.reg rPSTATE_STATUS = c.reg rPSTATE_STATUS) : c'.linksGated = c.linksGated := by
  have hpstate : c'.pstate = c.pstate := by rw [Ctl.pstate, Ctl.rf, h, Ctl.pstate, Ctl.rf]
  rw [Ctl.linksGated, hpstate, Ctl.linksGated]

/-- Dropping what an incoming transfer holds touches no link. -/
theorem Ctl.dropIncoming_links (c : Ctl) (l : Nat) : (∀ j, (c.dropIncoming l).link j = c.link j) ∧
    (c.dropIncoming l).linksGated = c.linksGated ∧ (c.dropIncoming l).outbox = c.outbox := by
  obtain ⟨c', hclear, hlinks, hreg, hout⟩ : ∃ c' : Ctl, c'.MovesSlots (c.dropIncoming l) ∧ c'.net.links = c.net.links ∧
      (∀ o, c'.reg o = c.reg o) ∧ c'.outbox = c.outbox := ⟨_, Ctl.movesSlots_clearSlots _ _, rfl, fun _ => rfl, rfl⟩
  refine ⟨fun j => ?_, Ctl.linksGated_congr ((hclear.reg _).trans (hreg _)), ?_⟩
  · rw [Ctl.link, hclear.net, hlinks, Ctl.link]
  · rw [hclear, hout]

/-- The transfer of a name that a peer asks for, its slots not yet placed. -/
def Ctl.incomingOf (c : Ctl) (n : Nat) : Incoming :=
  { name := n, inc := (c.name n).inc, units := 0, doneFrags := [],
    table := some { FragTable.empty with rows := shRows (c.name n).shape, span := shSpan (c.name n).shape } }

/-- A query is answered, and the transfer of the name may come in. -/
def Ctl.answerQuery (c : Ctl) (l n : Nat) : Ctl :=
  ((c.dropIncoming l).modNet fun y => { y with
    incoming := if (c.name n).live then y.incoming.set l (c.incomingOf n) else y.incoming.del l }).sendLink l 4 0
    (c.aliasRecord n)

theorem aliasQuery_answers {s : State} {l : Nat} {w : Word} (ht : s.takes (.aliasQuery l w) = true)
    (hjoined : s.ctl.joined = true) (hgated : s.ctl.linksGated = false) (howed : (s.ctl.link l).owed = []) :
    ∃ t, exec (.aliasQuery l w) s = .next t ∧ t.ctl.outbox = s.ctl.outbox ++ [.link l 4 0 (s.ctl.aliasRecord (fld w 0 14))] := by
  obtain ⟨hlink, hopen, hout⟩ := s.ctl.dropIncoming_links l
  have hexec : exec (.aliasQuery l w) s = .next { s with ctl := s.ctl.answerQuery l (fld w 0 14) } := by
    change execAliasQuery l w s = _
    rw [execAliasQuery, ctlStep_takes _ ht, hjoined]
    rfl
  refine ⟨_, hexec, (Ctl.sendLink_outbox ?_ ?_ _ _ _).trans ?_⟩
  · exact hopen.trans hgated
  · exact (congrArg Link.owed (hlink l)).trans howed
  · exact congrArg (· ++ _) hout

/-- The descriptor that an answer is for, once it is no longer asked for. -/
theorem exec_aliasAnswer {s : State} {l : Nat} {w0 w1 w2 : Word} {d : Desc} (ht : s.takes (.aliasAnswer l w0 w1 w2) = true)
    (hasked : (s.ctl.link l).asked = true)
    (hfind : s.ctl.descs.find? (fun d => d.stage = .check && d.viaLink = some l) = some d) :
    exec (.aliasAnswer l w0 w1 w2) s =
      .next { s with ctl := (s.ctl.modLink l fun k => { k with asked := false }).aliasAnswered d w0 w1 w2 } := by
  change execAliasAnswer l w0 w1 w2 s = _
  rw [execAliasAnswer, ctlStep_takes _ ht]
  simp only [hasked, Bool.not_true, Bool.false_eq_true, if_false, Ctl.modLink_descs, hfind]

/-- The checks of an answer (R211), in their order. -/
def Ctl.answerChecks (c : Ctl) (d : Desc) (w0 w1 w2 : Word) (dom : Nat) : Chk :=
  firstFail [(bit w0 31, 0x13, 0), (fld w0 24 6 = dom, 0x14, 1)] <|>
    c.check3 d (fun t => (if t.role = 9 then some (w1, w2) else c.recorded t).map (·.1)) <|>
    c.check4 d (fun t => if t.role = 9 then some (w1, w2) else c.recorded t) <|> c.routeChecks d <|> c.poisonCheck d

theorem Ctl.answerChecks_dead (c : Ctl) (d : Desc) {w0 : Word} (w1 w2 : Word) (dom : Nat) (h : bit w0 31 = false) :
    c.answerChecks d w0 w1 w2 dom = some (0x13, 0) := by
  simp [Ctl.answerChecks, firstFail, h]

theorem Ctl.answerChecks_domain (c : Ctl) (d : Desc) {w0 : Word} (w1 w2 : Word) {dom : Nat} (h : bit w0 31 = true)
    (hdom : fld w0 24 6 ≠ dom) : c.answerChecks d w0 w1 w2 dom = some (0x14, 1) := by
  simp [Ctl.answerChecks, firstFail, h, hdom]

theorem Ctl.answerChecks_live (c : Ctl) (d : Desc) {w0 : Word} (w1 w2 : Word) {dom : Nat} (h : bit w0 31 = true)
    (hdom : fld w0 24 6 = dom) : c.answerChecks d w0 w1 w2 dom =
      (c.check3 d (fun t => (if t.role = 9 then some (w1, w2) else c.recorded t).map (·.1)) <|>
        c.check4 d (fun t => if t.role = 9 then some (w1, w2) else c.recorded t) <|> c.routeChecks d <|> c.poisonCheck d) := by
  rw [Ctl.answerChecks]
  simp only [firstFail, h, hdom, decide_true, if_true]
  rfl

theorem Ctl.aliasAnswered_fails {c : Ctl} {d e : Desc} {r : TileRef} {a : Nat} {w0 w1 w2 : Word} (hdesc : c.desc? d.key = some e)
    (hstage : e.stage = .check) (hdst : d.dRef = some r) (hentry : c.quoinEntry r.name = some a) {st de : Nat}
    (hfail : c.answerChecks d w0 w1 w2 (c.rf (rQUOIN_ALIAS_B a) 16 6) = some (st, de)) :
    (c.aliasAnswered d w0 w1 w2).concludes d.key st de := by
  have hanswer : c.aliasAnswered d w0 w1 w2 = c.finish d.key st de := by
    rw [Ctl.aliasAnswered, hdst, Option.bind_some, hentry]
    rw [Ctl.answerChecks] at hfail
    simp only [hfail]
  rw [hanswer]
  exact (Ctl.finish_settled hdesc (by simp [Desc.completed, hstage]) (by simp [hstage]) st de).concludes

theorem Ctl.aliasAnswered_passes {c : Ctl} {d e : Desc} {r : TileRef} {a : Nat} {w0 w1 w2 : Word} (hdesc : c.desc? d.key = some e)
    (hdst : d.dRef = some r) (hentry : c.quoinEntry r.name = some a)
    (hpass : c.answerChecks d w0 w1 w2 (c.rf (rQUOIN_ALIAS_B a) 16 6) = none) :
    ∃ e, (c.aliasAnswered d w0 w1 w2).desc? d.key = some e ∧ e.stage = .wait := by
  have hanswer : c.aliasAnswered d w0 w1 w2 = c.reach5 d.key := by
    rw [Ctl.aliasAnswered, hdst, Option.bind_some, hentry]
    rw [Ctl.answerChecks] at hpass
    simp only [hpass]
  rw [hanswer]
  exact ⟨_, Ctl.desc?_modDesc_some hdesc fun _ => rfl, rfl⟩

/-! ### A link that is down (R424) -/

/-- The bit of the link's peer falls, and of the link only whether it shows alive remains. -/
def Ctl.linkCut (c : Ctl) (l : Nat) : Ctl :=
  (c.lower rQUOIN_STATUS (16 + c.linkPeer l)).modLink l fun k => { Link.reset with alive := k.alive }

/-- The PERMUTEs to aliases over a link that have not completed. -/
def Ctl.linkPermutes (c : Ctl) (l : Nat) : List Desc := c.descs.filter fun d => d.kind = 8 && d.viaLink = some l && !d.completed

/-- They complete (R424). -/
def Ctl.endPermutes (c : Ctl) (l : Nat) : Ctl := c.each (c.linkPermutes l) fun c d => c.finish d.key 0x22 2

/-- The work of a link has ended. -/
def Ctl.linkEnded (c : Ctl) (l : Nat) : Ctl := (((c.linkCut l).endPermutes l).dropIncoming l).incomingGone l

theorem Ctl.linkFalls_eq (c : Ctl) (l : Nat) : c.linkFalls l =
    if (c.linkEnded l).paired && l = (c.linkEnded l).pairLink then (c.linkEnded l).haltPair 3 else c.linkEnded l := rfl

theorem Ctl.dropIncoming_beside (c : Ctl) (l : Nat) : c.Beside (c.dropIncoming l) :=
  ((c.setJobs_beside _).trans (Ctl.modNet_beside _ _)).trans (Ctl.clearSlots_beside _ _)

theorem Ctl.incomingGone_beside (c : Ctl) (l : Nat) : c.Beside (c.incomingGone l) := c.modNet_beside _

/-- What ends the work of a link leaves the registers that its fall has set. -/
theorem Ctl.linkEnded_apart (c : Ctl) (l : Nat) : (c.linkCut l).Apart (c.linkEnded l) := by
  have hends : (c.linkCut l).Apart ((c.linkCut l).endPermutes l) :=
    Ctl.each_induction (P := fun c' => (c.linkCut l).Apart c') (fun c' d h => h.trans (c'.finish_apart d.key 0x22 2)) _ (.refl _)
  exact (hends.trans (Ctl.dropIncoming_beside _ l).toApart).trans (Ctl.incomingGone_beside _ l).toApart

theorem Ctl.linkFalls_beside (c : Ctl) (l : Nat) : (c.linkEnded l).Beside (c.linkFalls l) := by
  rw [Ctl.linkFalls_eq]
  exact .ite (Ctl.haltPair_beside _ 3)

theorem Ctl.linkFalls_linkUp (c : Ctl) (l : Nat) : (c.linkFalls l).linkUp (c.linkPeer l) = false := by
  have hpeer : c.linkPeer l < 4 := Nat.mod_lt _ (by decide)
  have hreg : (c.linkFalls l).reg rQUOIN_STATUS = (c.linkCut l).reg rQUOIN_STATUS :=
    ((c.linkFalls_beside l).regs _ (by decide)).trans ((c.linkEnded_apart l).regs _ (by decide))
  rw [Ctl.linkUp, hreg]
  exact c.bit_lower_self rQUOIN_STATUS (by omega)

theorem Ctl.haltPair_halted (c : Ctl) (cause : Nat) : (c.haltPair cause).halted = true := by
  unfold Ctl.haltPair
  split
  next h => exact h
  next =>
    rw [Ctl.halted, Ctl.reg_raise, if_neg (by decide), Ctl.bit_setRf_apart _ _ _ (.inr (by decide))]
    exact c.bit_raise_self rPAIR_STATUS (by decide)

theorem Ctl.pairLink_congr {c c' : Ctl} (h : c'.reg rPAIR_CTL = c.reg rPAIR_CTL) : c'.pairLink = c.pairLink := by
  rw [Ctl.pairLink, Ctl.rf, Ctl.rf, h]
  rfl

theorem Ctl.linkFalls_halts {c : Ctl} {l : Nat} (hpaired : c.paired = true) (hl : l = c.pairLink) :
    (c.linkFalls l).halted = true := by
  have hcut : ∀ o, o ≠ rQUOIN_STATUS → (c.linkCut l).reg o = c.reg o := fun o ho => Ctl.reg_setReg_ne c _ ho.symm
  have hkept : (c.linkEnded l).paired = true := by
    rw [(c.linkEnded_apart l).paired, ← hpaired, Ctl.paired, hcut _ (by decide), Ctl.paired]
  have hlink : (c.linkEnded l).pairLink = l :=
    (Ctl.pairLink_congr (((c.linkEnded_apart l).regs _ (by decide)).trans (hcut _ (by decide)))).trans hl.symm
  rw [Ctl.linkFalls_eq, if_pos (by simp [hkept, hlink])]
  exact Ctl.haltPair_halted _ 3

/-- A completed descriptor stays so as others complete. -/
theorem Ctl.IsDone.finish {c : Ctl} {x : Key} (h : c.IsDone x) (k : Key) (st de : Nat) : (c.finish k st de).IsDone x :=
  Ctl.finish_induction (P := (·.IsDone x)) (fun _ _ hb h => h.beside hb) (fun _ j st' de' _ h => h.fix j st' de') k de
    (h.fix k st de)

/-- A descriptor is finished at once with a status that is not compared. -/
theorem Ctl.isDone_finish {c : Ctl} {x : Key} {e : Desc} (h : c.desc? x = some e) {st : Nat} (hrec : reconciled st = true)
    (de : Nat) : (c.finish x st de).IsDone x :=
  Ctl.finish_induction (P := (·.IsDone x)) (fun _ _ hb h => h.beside hb) (fun _ j st' de' _ h => h.fix j st' de') x de
    (Ctl.isDone_fix h hrec de)

/-- A descriptor still stands under its key as others complete. -/
theorem Ctl.desc?_finish {c : Ctl} {x : Key} (h : ∃ e, c.desc? x = some e) (k : Key) (st de : Nat) :
    ∃ e, (c.finish k st de).desc? x = some e := by
  have hfix : ∀ (c : Ctl) (j : Key) (st' de' : Nat), (∃ e, c.desc? x = some e) → ∃ e, (c.fix j st' de').desc? x = some e :=
    fun c j st' de' ⟨_, he⟩ => (Ctl.desc?_fix he j st' de').imp fun _ h => h.1
  exact Ctl.finish_induction (P := fun c => ∃ e, c.desc? x = some e) (fun _ _ hb ⟨e, he⟩ => ⟨e, (hb.desc? x).trans he⟩)
    (fun c j st' de' _ h => hfix c j st' de' h) k de (hfix c k st de h)

/-- Every PERMUTE to aliases over the link has completed. -/
theorem Ctl.linkFalls_isDone {c : Ctl} {l : Nat} {x : Key} {d : Desc} (hdesc : c.desc? x = some d) (hkind : d.kind = 8)
    (hvia : d.viaLink = some l) : (c.linkFalls l).IsDone x := by
  have hcut : (c.linkCut l).desc? x = some d := hdesc
  have hended : ((c.linkCut l).endPermutes l).IsDone x := by
    cases hopen : d.completed
    · have hkey : d.key = x := Ctl.desc?_key hdesc
      have hmem : d ∈ (c.linkCut l).linkPermutes l :=
        List.mem_filter.mpr ⟨List.mem_of_find?_eq_some hcut, by simp [hkind, hvia, hopen]⟩
      refine Ctl.each_reaches (P := fun c => ∃ e, c.desc? x = some e) (Q := (·.IsDone x)) (fun c ⟨e, he⟩ => ?_)
        (fun c b h => .inl (Ctl.desc?_finish h b.key 0x22 2)) (fun c b h => h.finish b.key 0x22 2) hmem ⟨d, hcut⟩
      rw [hkey]
      exact Ctl.isDone_finish he (by decide) 2
    · exact Ctl.each_induction (P := (·.IsDone x)) (fun c b h => h.finish b.key 0x22 2) _ ⟨d, hcut, hopen⟩
  exact ((hended.beside (Ctl.dropIncoming_beside _ l)).beside (Ctl.incomingGone_beside _ l)).beside (c.linkFalls_beside l)

theorem exec_linkDown {s : State} {l : Nat} (ht : s.takes (.linkDown l) = true) :
    exec (.linkDown l) s = .next { s with ctl := (s.ctl.linkFalls l).modLink l fun k => { k with alive := false } } :=
  ctlStep_takes (fun c => (c.linkFalls l).modLink l fun k => { k with alive := false }) ht

theorem exec_linkHandshakeTimeout {s : State} {l d : Nat} (ht : s.takes (.linkHandshakeTimeout l) = true)
    (hdeadline : (s.ctl.link l).deadline = some d) (hdue : d ≤ s.ctl.refTicks) :
    exec (.linkHandshakeTimeout l) s = .next { s with ctl := s.ctl.linkFalls l } := by
  change execLinkHandshakeTimeout l s = _
  rw [execLinkHandshakeTimeout, ctlStep_takes _ ht, hdeadline]
  simp only [Ctl.due, hdue, decide_true, if_true]

/-! ### The settled statement -/

/-- Settles O54: a JOIN sends the own word and a peer's word is kept and checked, an entry over a LIVE name cannot become valid, a
query is answered by the record of its name, an answer by the checks that it lets run, and a link that is down ends its work. -/
theorem joiningAndAliases : Obligations.JoiningAndAliases := by
  unfold Obligations.JoiningAndAliases
  refine ⟨fun s id d h hpriv hjoin hopen => ?_, fun s l w ht hgated => ?_, fun s a second id d off hoff h hmay => ?_,
    fun s l w ht hjoined hgated howed => ?_, fun s l a w0 w1 w2 d r f ht hasked hfind hdesc hdst hentry hf => ?_,
    fun s l i ht hi => ?_⟩
  · obtain ⟨hword, hlinks⟩ := s.ctl.asksJoin_own d
    have hpair : (s.ctl.asksJoin d).reg rPAIR_STATUS = s.ctl.reg rPAIR_STATUS := Ctl.reg_setReg_ne _ _ (by decide)
    refine ⟨_, exec_join h hpriv hjoin hopen, (Ctl.startJoin_quoinCtl _).trans (Ctl.reg_setReg_self _ _ _), fun hpaired => ?_,
      fun halone hgated hready => ?_⟩
    · obtain ⟨-, herr, hcode⟩ := (s.ctl.asksJoin d).quoinError_spec (code := 1) (by decide)
      rw [Ctl.startJoin_paired (hpair ▸ hpaired)]
      exact ⟨rfl, herr, hcode⟩
    · have hsame : (s.ctl.asksJoin d).linksGated = s.ctl.linksGated := Ctl.linksGated_congr (Ctl.reg_setReg_ne _ _ (by decide))
      rw [← hword, ← hlinks]
      exact Ctl.startJoin_outbox (hpair ▸ halone) (hsame.trans hgated) fun l hl => (hready l hl).2
  · obtain ⟨t, hexec, hpeer, halive, hjoins⟩ := joinWord_kept ht hgated
    obtain ⟨hgood, hclash⟩ := s.ctl.withJoinWord_checked w (lt_of_takes_joinWord ht)
    refine ⟨t, hexec, hpeer, halive, fun hjoin halone => ?_⟩
    rw [hjoins (by simp [Ctl.joining, hjoin, halone])]
    refine ⟨fun hown hnamed => hgood (Ctl.wordClashes_eq_false.mpr ⟨hown, hnamed⟩), fun hbad => hclash ?_⟩
    refine Bool.not_eq_false _ ▸ fun hno => ?_
    obtain ⟨hown, hnamed⟩ := Ctl.wordClashes_eq_false.mp hno
    rcases hbad with hbad | hbad
    · exact hown hbad
    · simp [hnamed] at hbad
  · subst hoff
    obtain ⟨hsets, hreg⟩ := s.ctl.writeAlias_spec a second d
    exact ⟨_, exec_quoinAliasWrite h hmay, hsets.setsRegs 0, hreg⟩
  · obtain ⟨t, hexec, hout⟩ := aliasQuery_answers ht hjoined hgated howed
    exact ⟨t, _, hexec, rfl, hout⟩
  · subst hf
    have hstage : d.stage = .check := by
      have hsat := List.find?_some hfind
      simp only [Bool.and_eq_true, decide_eq_true_eq] at hsat
      exact hsat.1
    refine ⟨_, exec_aliasAnswer ht hasked hfind, fun h31 => ?_, fun h31 hdom => ?_, fun h31 hdom hpass => ?_⟩
    · exact Ctl.aliasAnswered_fails (c := s.ctl.modLink l _) hdesc hstage hdst hentry (Ctl.answerChecks_dead _ d w1 w2 _ h31)
    · exact Ctl.aliasAnswered_fails (c := s.ctl.modLink l _) hdesc hstage hdst hentry
        (Ctl.answerChecks_domain _ d w1 w2 h31 hdom)
    · exact Ctl.aliasAnswered_passes (c := s.ctl.modLink l _) hdesc hdst hentry
        ((Ctl.answerChecks_live _ d w1 w2 h31 hdom).trans hpass)
  · rcases hi with rfl | ⟨rfl, dl, hdl, hdue⟩
    · refine ⟨_, exec_linkDown ht, s.ctl.linkFalls_linkUp l, fun _ => ?_, fun x d hdesc hkind hvia => ?_, fun hpaired hl => ?_⟩
      · rw [Ctl.modLink_link, if_pos rfl]
      · exact Ctl.linkFalls_isDone hdesc hkind hvia
      · exact Ctl.linkFalls_halts hpaired hl
    · exact ⟨_, exec_linkHandshakeTimeout ht hdl hdue, s.ctl.linkFalls_linkUp l, fun h => absurd h (by simp),
        fun x d hdesc hkind hvia => Ctl.linkFalls_isDone hdesc hkind hvia, fun hpaired hl => Ctl.linkFalls_halts hpaired hl⟩

end Sys2Proof.Machine

/-!
SUPPORT. What only grants, passes of the network and key lanes count (R188, R263, R288), and that every other operation of the
machine leaves it as it is.
-/
namespace Sys2Proof.Machine

/-! ### The counts -/

/-- The grants that each requester of an arbiter has had (R288). -/
def Arb.grants (a : Arb) : List Nat := a.reqs.map (·.grants)

/-- The grants of every stored arbiter, by its key. -/
def Ctl.granted (c : Ctl) : Tab (List Nat) := c.arbs.map fun p => (p.1, p.2.grants)

/-- What grants, passes and key lanes alone count. -/
def Ctl.tally (c : Ctl) : Tab (List Nat) × Nat × Word × Word :=
  (c.granted, c.net.passesLeft, c.reg rPERM_VECTORS, c.reg rKEY_WORDS)

theorem Ctl.tally_of_same {c c' : Ctl} (ha : c'.arbs = c.arbs) (hn : c'.net.passesLeft = c.net.passesLeft) (hp : c'.part = c.part)
    (hr : c'.regs = c.regs) : c'.tally = c.tally := by
  simp [Ctl.tally, Ctl.granted, ha, hn, Ctl.reg_congr hp hr]

@[simp] theorem Ctl.tally_ite {p : Prop} [Decidable p] (c c' : Ctl) :
    (if p then c else c').tally = if p then c.tally else c'.tally := by split <;> rfl

@[simp] theorem Ctl.tally_each {α : Type} {f : Ctl → α → Ctl} (hf : ∀ c a, (f c a).tally = c.tally) (c : Ctl)
    (l : List α) :
    (c.each l f).tally = c.tally :=
  Ctl.each_induction (P := fun c' => c'.tally = c.tally) (fun c' a h => (hf c' a).trans h) l rfl

@[simp] theorem Ctl.tally_setReg (c : Ctl) {off : Nat} (v : Word) (hp : off ≠ rPERM_VECTORS) (hk : off ≠ rKEY_WORDS) :
    (c.setReg off v).tally = c.tally := by
  simp only [Ctl.tally, Ctl.granted, Ctl.reg_setReg_ne c v hp, Ctl.reg_setReg_ne c v hk]
  rfl
@[simp] theorem Ctl.tally_setRf (c : Ctl) {off : Nat} (lo n v : Nat) (hp : off ≠ rPERM_VECTORS) (hk : off ≠ rKEY_WORDS) :
    (c.setRf off lo n v).tally = c.tally := c.tally_setReg _ hp hk
@[simp] theorem Ctl.tally_raise (c : Ctl) {off : Nat} (i : Nat) (hp : off ≠ rPERM_VECTORS) (hk : off ≠ rKEY_WORDS) :
    (c.raise off i).tally = c.tally := c.tally_setReg _ hp hk
@[simp] theorem Ctl.tally_lower (c : Ctl) {off : Nat} (i : Nat) (hp : off ≠ rPERM_VECTORS) (hk : off ≠ rKEY_WORDS) :
    (c.lower off i).tally = c.tally := c.tally_setReg _ hp hk
@[simp] theorem Ctl.tally_bump (c : Ctl) {off : Nat} (lo n k : Nat) (hp : off ≠ rPERM_VECTORS) (hk : off ≠ rKEY_WORDS) :
    (c.bump off lo n k).tally = c.tally := c.tally_setReg _ hp hk
@[simp] theorem Ctl.tally_count (c : Ctl) {off : Nat} (k : Nat) (hp : off ≠ rPERM_VECTORS) (hk : off ≠ rKEY_WORDS) :
    (c.count off k).tally = c.tally := c.tally_setReg _ hp hk
@[simp] theorem Ctl.tally_setReg64 (c : Ctl) {lo hi : Nat} (v : Nat) (hlo : lo ≠ rPERM_VECTORS ∧ lo ≠ rKEY_WORDS)
    (hhi : hi ≠ rPERM_VECTORS ∧ hi ≠ rKEY_WORDS) : (c.setReg64 lo hi v).tally = c.tally := by
  simp [Ctl.setReg64, hlo, hhi]
@[simp] theorem Ctl.tally_putBit (c : Ctl) {off : Nat} (i : Nat) (b : Bool) (hp : off ≠ rPERM_VECTORS)
    (hk : off ≠ rKEY_WORDS) : (c.putBit off i b).tally = c.tally := by
  simp [Ctl.putBit, hp, hk]
@[simp] theorem Ctl.tally_putMask (c : Ctl) {lo hi : Nat} (n : Nat) (b : Bool) (hlo : lo ≠ rPERM_VECTORS ∧ lo ≠ rKEY_WORDS)
    (hhi : hi ≠ rPERM_VECTORS ∧ hi ≠ rKEY_WORDS) : (c.putMask lo hi n b).tally = c.tally := by
  simp [Ctl.putMask, hlo, hhi]

/-! ### Registers of rings, slices and ports are apart from the counters -/

@[simp] theorem ringRegs_apart (n : Nat) :
    (rRING_STATUS n ≠ rPERM_VECTORS ∧ rRING_STATUS n ≠ rKEY_WORDS) ∧ (rRING_CTL n ≠ rPERM_VECTORS ∧ rRING_CTL n ≠ rKEY_WORDS) ∧
    (rRING_HEAD_LO n ≠ rPERM_VECTORS ∧ rRING_HEAD_LO n ≠ rKEY_WORDS) ∧
    (rRING_HEAD_HI n ≠ rPERM_VECTORS ∧ rRING_HEAD_HI n ≠ rKEY_WORDS) := by
  simp only [rRING_STATUS, rRING_CTL, rRING_HEAD_LO, rRING_HEAD_HI, rPERM_VECTORS, rKEY_WORDS]
  omega

@[simp] theorem healthRegs_apart (n : Nat) :
    (rCE_COUNT n ≠ rPERM_VECTORS ∧ rCE_COUNT n ≠ rKEY_WORDS) ∧ (rUE_COUNT n ≠ rPERM_VECTORS ∧ rUE_COUNT n ≠ rKEY_WORDS) ∧
    (rSLICE_HEALTH n ≠ rPERM_VECTORS ∧ rSLICE_HEALTH n ≠ rKEY_WORDS) ∧
    (rSCRUB_PASSES n ≠ rPERM_VECTORS ∧ rSCRUB_PASSES n ≠ rKEY_WORDS) ∧
    (rSCRUB_LAG n ≠ rPERM_VECTORS ∧ rSCRUB_LAG n ≠ rKEY_WORDS) := by
  simp only [rCE_COUNT, rUE_COUNT, rSLICE_HEALTH, rSCRUB_PASSES, rSCRUB_LAG, rPERM_VECTORS, rKEY_WORDS]
  omega

@[simp] theorem sliceCounters_apart (n : Nat) :
    (rCOLLIDE n ≠ rPERM_VECTORS ∧ rCOLLIDE n ≠ rKEY_WORDS) ∧ (rLATCH_HITS n ≠ rPERM_VECTORS ∧ rLATCH_HITS n ≠ rKEY_WORDS) ∧
    (rLATCH_MISSES n ≠ rPERM_VECTORS ∧ rLATCH_MISSES n ≠ rKEY_WORDS) ∧
    (rGATHER_REQS n ≠ rPERM_VECTORS ∧ rGATHER_REQS n ≠ rKEY_WORDS) ∧
    (rACC_APPLIED n ≠ rPERM_VECTORS ∧ rACC_APPLIED n ≠ rKEY_WORDS) ∧
    (rACC_MERGED n ≠ rPERM_VECTORS ∧ rACC_MERGED n ≠ rKEY_WORDS) ∧
    (rWAVE_WAIT n ≠ rPERM_VECTORS ∧ rWAVE_WAIT n ≠ rKEY_WORDS) ∧
    (rREDUCE_ROWS n ≠ rPERM_VECTORS ∧ rREDUCE_ROWS n ≠ rKEY_WORDS) := by
  simp only [rCOLLIDE, rLATCH_HITS, rLATCH_MISSES, rGATHER_REQS, rACC_APPLIED, rACC_MERGED, rWAVE_WAIT, rREDUCE_ROWS,
    rPERM_VECTORS, rKEY_WORDS]
  omega

@[simp] theorem portGone_apart (n : Nat) : rPORT_GONE n ≠ rPERM_VECTORS ∧ rPORT_GONE n ≠ rKEY_WORDS := by
  simp only [rPORT_GONE, rPERM_VECTORS, rKEY_WORDS]
  omega

/-! ### Updates of the state -/

@[simp] theorem Ctl.tally_modPower (c : Ctl) (f : Power → Power) : (c.modPower f).tally = c.tally := rfl
@[simp] theorem Ctl.tally_modMem (c : Ctl) (f : Mem → Mem) : (c.modMem f).tally = c.tally := rfl
@[simp] theorem Ctl.tally_modInteg (c : Ctl) (f : Integ → Integ) : (c.modInteg f).tally = c.tally := rfl
@[simp] theorem Ctl.tally_modMsq (c : Ctl) (f : Msq → Msq) : (c.modMsq f).tally = c.tally := rfl
@[simp] theorem Ctl.tally_modDesc (c : Ctl) (k : Key) (f : Desc → Desc) : (c.modDesc k f).tally = c.tally := rfl
@[simp] theorem Ctl.tally_modSlice (c : Ctl) (n : Nat) (f : Slice → Slice) : (c.modSlice n f).tally = c.tally := rfl
@[simp] theorem Ctl.tally_modPort (c : Ctl) (n : Nat) (f : Port → Port) : (c.modPort n f).tally = c.tally := rfl
@[simp] theorem Ctl.tally_modRing (c : Ctl) (n : Nat) (f : Ring → Ring) : (c.modRing n f).tally = c.tally := rfl
@[simp] theorem Ctl.tally_modName (c : Ctl) (n : Nat) (f : NameRec → NameRec) : (c.modName n f).tally = c.tally := rfl
@[simp] theorem Ctl.tally_modSlot (c : Ctl) (n : Nat) (f : Slot → Slot) : (c.modSlot n f).tally = c.tally := rfl
@[simp] theorem Ctl.tally_modLink (c : Ctl) (n : Nat) (f : Link → Link) : (c.modLink n f).tally = c.tally := rfl
@[simp] theorem Ctl.tally_emit (c : Ctl) (o : Out) : (c.emit o).tally = c.tally := rfl
@[simp] theorem Ctl.tally_addJobs (c : Ctl) (js : List Job) : (c.addJobs js).tally = c.tally := rfl
@[simp] theorem Ctl.tally_modNet (c : Ctl) (f : Net → Net) (h : (f c.net).passesLeft = c.net.passesLeft) :
    (c.modNet f).tally = c.tally := c.tally_of_same rfl h rfl rfl

@[simp] theorem Ctl.tally_setDescs (c : Ctl) (x : List Desc) : Ctl.tally { c with descs := x } = c.tally := rfl
@[simp] theorem Ctl.tally_setJobs (c : Ctl) (x : List Job) : Ctl.tally { c with jobs := x } = c.tally := rfl
@[simp] theorem Ctl.tally_setSigs (c : Ctl) (x : List Sig) : Ctl.tally { c with sigs := x } = c.tally := rfl
@[simp] theorem Ctl.tally_setMigs (c : Ctl) (x : List Mig) : Ctl.tally { c with migs := x } = c.tally := rfl
@[simp] theorem Ctl.tally_setBuckets (c : Ctl) (x : Tab Nat) : Ctl.tally { c with buckets := x } = c.tally := rfl
@[simp] theorem Ctl.tally_setFunc (c : Ctl) (x : Nat) : Ctl.tally { c with func := x } = c.tally := rfl
@[simp] theorem Ctl.tally_setInService (c : Ctl) (x : List Nat) : Ctl.tally { c with inService := x } = c.tally := rfl
@[simp] theorem Ctl.tally_setFillW (c : Ctl) (x y z : List Nat) :
    Ctl.tally { c with filling := x, fillWait := y, wanted := z } = c.tally := rfl

/-- What is withdrawn loses its age and nothing else (R279). -/
@[simp] theorem Ctl.tally_dropAges (c : Ctl) : c.dropAges.tally = c.tally := by
  have hreqs : ∀ (rs : List ReqState) (w : ReqState × Nat → Bool),
      (rs.zipIdx.map fun q => if w q then { q.1 with age := 0 } else q.1).map (·.grants) = rs.map (·.grants) := fun rs w => by
    rw [List.map_map, ← List.zipIdx_map_fst 0 rs, List.map_map, List.zipIdx_map_fst]
    refine List.map_congr_left fun q _ => ?_
    simp only [Function.comp]
    split <;> rfl
  have hgranted : c.dropAges.granted = c.granted := by
    simp only [Ctl.granted, Arb.grants, Ctl.dropAges, List.map_map]
    refine List.map_congr_left fun p _ => ?_
    simp only [Function.comp]
    split
    · rw [hreqs]
    · rfl
  exact congrArg (·, c.net.passesLeft, c.reg rPERM_VECTORS, c.reg rKEY_WORDS) hgranted

/-! ### Completion and pacing leave the counts as they are -/

@[simp] theorem Ctl.tally_logEvent (c : Ctl) (e : LogEntry) : (c.logEvent e).tally = c.tally := by
  simp [Ctl.logEvent]

@[simp] theorem Ctl.tally_poisonName (c : Ctl) (n slice bank row : Nat) : (c.poisonName n slice bank row).tally = c.tally := by
  simp [Ctl.poisonName]

@[simp] theorem Ctl.tally_addAccount (c : Ctl) (a n : Nat) : (c.addAccount a n).tally = c.tally := rfl

@[simp] theorem Ctl.tally_charge (c : Ctl) (who : Account) (k n : Nat) : (c.charge who k n).tally = c.tally := by
  unfold Ctl.charge
  dsimp only
  repeat' split
  all_goals simp

@[simp] theorem Ctl.tally_putVreq (c : Ctl) (v : Nat) : (c.putVreq v).tally = c.tally := by
  simp [Ctl.putVreq]

@[simp] theorem Ctl.tally_raiseVreq (c : Ctl) : c.raiseVreq.tally = c.tally := by
  simp [Ctl.raiseVreq]

@[simp] theorem Ctl.tally_phaseRaise (c : Ctl) (phase : Nat) : (c.phaseRaise phase).tally = c.tally := by
  simp [Ctl.phaseRaise]

@[simp] theorem Ctl.tally_startMargin (c : Ctl) : c.startMargin.tally = c.tally := by
  simp [Ctl.startMargin]

@[simp] theorem Ctl.tally_startDawn (c : Ctl) : c.startDawn.tally = c.tally := by
  simp [Ctl.startDawn]

@[simp] theorem Ctl.tally_raiseJobs (c : Ctl) : c.raiseJobs.tally = c.tally := rfl

@[simp] theorem Ctl.tally_beat (c : Ctl) (st : Stream) (who : Account) : (c.beat st who).tally = c.tally := by
  simp [Ctl.beat]

@[simp] theorem Ctl.tally_setSlots (c : Ctl) (ks : List Nat) (st : SlotState) (o : Owner) :
    (c.setSlots ks st o).tally = c.tally := Ctl.tally_each (fun c k => c.tally_modSlot k _) c ks

@[simp] theorem Ctl.tally_dropLatches (c : Ctl) (k : Nat) : (c.dropLatches k).tally = c.tally := by
  simp [Ctl.dropLatches]

@[simp] theorem Ctl.tally_clearSlots (c : Ctl) (ks : List Nat) : (c.clearSlots ks).tally = c.tally := by
  simp [Ctl.clearSlots]

@[simp] theorem Ctl.tally_reapRetired (c : Ctl) : c.reapRetired.tally = c.tally := by
  simp [Ctl.reapRetired]

@[simp] theorem Ctl.tally_invalDone (c : Ctl) : c.invalDone.tally = c.tally := by
  simp [Ctl.invalDone]

@[simp] theorem Ctl.tally_dropBursts (c : Ctl) (f : Burst → Bool) : (c.dropBursts f).tally = c.tally := by
  simp [Ctl.dropBursts]

@[simp] theorem Ctl.tally_portEvt (c : Ctl) (n : Nat) : (c.portEvt n).tally = c.tally := by
  simp [Ctl.portEvt]

@[simp] theorem Ctl.tally_portEnter (c : Ctl) (n : Nat) (st : PortState) (cause : Option Nat) :
    (c.portEnter n st cause).tally = c.tally := by
  simp [Ctl.portEnter]

@[simp] theorem Ctl.tally_quiesceDone (c : Ctl) (n : Nat) : (c.quiesceDone n).tally = c.tally := by
  simp [Ctl.quiesceDone]

@[simp] theorem Ctl.tally_withdraw (c : Ctl) (k : Key) : (c.withdraw k).tally = c.tally := by
  simp [Ctl.withdraw]

@[simp] theorem Ctl.tally_abandonFresh (c : Ctl) (k : Key) : (c.abandonFresh k).tally = c.tally := by
  have hfree : ∀ ks : List Nat, (c.each ks fun c n => c.modSlot n fun s => { s with owner := .none }).tally = c.tally :=
    Ctl.tally_each (fun c n => c.tally_modSlot n _) c
  unfold Ctl.abandonFresh
  dsimp only
  rw [Ctl.tally_modDesc, Ctl.tally_clearSlots]
  split
  · exact hfree _
  · exact hfree _

@[simp] theorem Ctl.tally_releaseMap (c : Ctl) (k : Key) : (c.releaseMap k).tally = c.tally := by
  unfold Ctl.releaseMap
  repeat' split
  all_goals simp

@[simp] theorem Ctl.tally_sendLinkFor (c : Ctl) (who : Account) (l kind ctl : Nat) (ws : List Word) :
    (c.sendLinkFor who l kind ctl ws).tally = c.tally := by
  simp [Ctl.sendLinkFor]

@[simp] theorem Ctl.tally_sendLink (c : Ctl) (l kind ctl : Nat) (ws : List Word) :
    (c.sendLink l kind ctl ws).tally = c.tally := by
  simp [Ctl.sendLink]

@[simp] theorem Ctl.tally_sendOutcome (c : Ctl) (k : Key) (status detail cursor : Nat) :
    (c.sendOutcome k status detail cursor).tally = c.tally := by
  simp [Ctl.sendOutcome]

@[simp] theorem Ctl.tally_haltPair (c : Ctl) (cause : Nat) : (c.haltPair cause).tally = c.tally := by
  simp [Ctl.haltPair]

@[simp] theorem Ctl.tally_mismatch (c : Ctl) (g : Sig) (a b : BitVec 64) : (c.mismatch g a b).tally = c.tally := by
  simp [Ctl.mismatch]

@[simp] theorem Ctl.tally_putSig (c : Ctl) (g : Sig) : (c.putSig g).tally = c.tally := rfl

@[simp] theorem Ctl.tally_sendSig (c : Ctl) (k : Key) (row : Option Nat) (s : BitVec 64) :
    (c.sendSig k row s).tally = c.tally := by
  simp [Ctl.sendSig]

@[simp] theorem Ctl.tally_close (c : Ctl) (k : Key) : (c.close k).tally = c.tally := by
  unfold Ctl.close
  split
  · rfl
  · split
    · rfl
    · rfl

@[simp] theorem Ctl.tally_barrier (c : Ctl) (d : Desc) : (c.barrier d).tally = c.tally := by
  simp [Ctl.barrier]

@[simp] theorem Ctl.tally_fixNow (c : Ctl) (k : Key) (status detail : Nat) : (c.fixNow k status detail).tally = c.tally := by
  unfold Ctl.fixNow
  split <;> simp

@[simp] theorem Ctl.tally_propose (c : Ctl) (d : Desc) (status detail : Nat) : (c.propose d status detail).tally = c.tally := by
  simp [Ctl.propose]

@[simp] theorem Ctl.tally_agree (c : Ctl) (d : Desc) (status detail : Nat) : (c.agree d status detail).tally = c.tally := by
  unfold Ctl.agree
  dsimp only
  split <;> simp

@[simp] theorem Ctl.tally_fix (c : Ctl) (k : Key) (status detail : Nat) : (c.fix k status detail).tally = c.tally := by
  unfold Ctl.fix
  split <;> simp

@[simp] theorem Ctl.tally_complete (c : Ctl) (k : Key) (status detail : Nat) :
    (c.complete k status detail).tally = c.tally := by
  unfold Ctl.complete
  split <;> simp

@[simp] theorem Ctl.tally_becomeQuiet (c : Ctl) : c.becomeQuiet.tally = c.tally := rfl

@[simp] theorem Ctl.tally_wakeOnWork (c : Ctl) : c.wakeOnWork.tally = c.tally := by
  simp [Ctl.wakeOnWork]

@[simp] theorem Ctl.tally_fences (c : Ctl) : c.fences.tally = c.tally := by
  simp [Ctl.fences]

@[simp] theorem Ctl.tally_finish (c : Ctl) (k : Key) (status detail : Nat) : (c.finish k status detail).tally = c.tally := by
  simp [Ctl.finish]

@[simp] theorem Ctl.tally_readyUp (c : Ctl) : c.readyUp.tally = c.tally := by
  simp [Ctl.readyUp]

/-! ### Places and slots -/

@[simp] theorem Ctl.tally_startMig (c : Ctl) (n : Nat) (dest : FragTable) (required : Bool) :
    (c.startMig n dest required).tally = c.tally := by
  simp [Ctl.startMig]

@[simp] theorem Ctl.tally_wantMig (c : Ctl) (n : Nat) : (c.wantMig n).tally = c.tally := by
  simp [Ctl.wantMig]

@[simp] theorem Ctl.tally_requireMig (c : Ctl) (n : Nat) : (c.requireMig n).tally = c.tally := by
  unfold Ctl.requireMig
  dsimp only
  repeat' split
  all_goals simp

@[simp] theorem Ctl.tally_withdrawMig (c : Ctl) (n : Nat) : (c.withdrawMig n).tally = c.tally := rfl

@[simp] theorem Ctl.tally_abandonMig (c : Ctl) (n : Nat) : (c.abandonMig n).tally = c.tally := by
  simp [Ctl.abandonMig]

/-! ### Rings and records -/

@[simp] theorem Ctl.tally_putRingState (c : Ctl) (k s : Nat) : (c.putRingState k s).tally = c.tally := by
  simp [Ctl.putRingState]

@[simp] theorem Ctl.tally_funcSettle (c : Ctl) : c.funcSettle.tally = c.tally := by
  simp [Ctl.funcSettle]

@[simp] theorem Ctl.tally_disarm (c : Ctl) (k : Nat) : (c.disarm k).tally = c.tally := by
  unfold Ctl.disarm
  split <;> simp

@[simp] theorem Ctl.tally_settleRing (c : Ctl) (k : Nat) : (c.settleRing k).tally = c.tally := by
  simp [Ctl.settleRing]

@[simp] theorem Ctl.tally_stopStart (c : Ctl) (k : Nat) : (c.stopStart k).tally = c.tally := by
  simp [Ctl.stopStart]

@[simp] theorem Ctl.tally_orphanStreams (c : Ctl) (k : Nat) : (c.orphanStreams k).tally = c.tally := by
  simp [Ctl.orphanStreams]

@[simp] theorem Ctl.tally_drain (c : Ctl) (k : Nat) (cause : Option Nat) : (c.drain k cause).tally = c.tally := by
  unfold Ctl.drain
  dsimp only
  split
  · rfl
  · simp only [Ctl.tally_settleRing, Ctl.tally_orphanStreams, Ctl.tally_each, Ctl.tally_fix, Ctl.tally_modRing, implies_true]
    refine (Ctl.tally_setDescs _ _).trans ?_
    simp only [Ctl.tally_dropBursts, Ctl.tally_disarm]
    split <;> simp

/-! ### Memory and translation -/

@[simp] theorem Ctl.tally_cacheMicro (c : Ctl) (ch : Nat) (x : Xlate) : (c.cacheMicro ch x).tally = c.tally := by
  unfold Ctl.cacheMicro
  dsimp only
  split <;> rfl

@[simp] theorem Ctl.tally_addBursts (c : Ctl) (bs : List Burst) : (c.addBursts bs).tally = c.tally := rfl

@[simp] theorem Ctl.tally_modBurst (c : Ctl) (p : BPurpose) (f : Burst → Burst) : (c.modBurst p f).tally = c.tally := rfl

@[simp] theorem Ctl.tally_dropRows (c : Ctl) (k : Key) (f : Nat → Bool) : (c.dropRows k f).tally = c.tally := by
  simp [Ctl.dropRows]

@[simp] theorem Ctl.tally_rowFail (c : Ctl) (k : Key) (f : RowFail) : (c.rowFail k f).tally = c.tally := by
  unfold Ctl.rowFail
  split <;> simp

@[simp] theorem Ctl.tally_dropOperand (c : Ctl) (q : Key) (n : Nat) : (c.dropOperand q n).tally = c.tally := by
  unfold Ctl.dropOperand
  dsimp only
  split <;> rfl

@[simp] theorem Ctl.tally_dropPrefetch (c : Ctl) (k : Key) : (c.dropPrefetch k).tally = c.tally := by
  unfold Ctl.dropPrefetch
  repeat' split
  all_goals simp

@[simp] theorem Ctl.tally_recordFault (c : Ctl) (k : Key) (final : Bool) : (c.recordFault k final).tally = c.tally := by
  simp [Ctl.recordFault]

@[simp] theorem Ctl.tally_ringFault (c : Ctl) (p : BPurpose) : (c.ringFault p).tally = c.tally := by
  unfold Ctl.ringFault
  split <;> simp

@[simp] theorem Ctl.tally_burstFails (c : Ctl) (b : Burst) (status detail : Nat) (parks : Bool) :
    (c.burstFails b status detail parks).tally = c.tally := by
  unfold Ctl.burstFails
  dsimp only
  split <;> simp

@[simp] theorem Ctl.tally_resolve (c : Ctl) (b : Burst) (x : Xlate) : (c.resolve b x).tally = c.tally := by
  unfold Ctl.resolve
  repeat' split
  all_goals simp

@[simp] theorem Ctl.tally_startWalk (c : Ctl) (b : Burst) : (c.startWalk b).tally = c.tally := by
  simp [Ctl.startWalk]

@[simp] theorem Ctl.tally_translate (c : Ctl) (p : BPurpose) : (c.translate p).tally = c.tally := by
  unfold Ctl.translate
  repeat' split
  all_goals simp

@[simp] theorem Ctl.tally_pump (c : Ctl) : c.pump.tally = c.tally := by
  simp [Ctl.pump]

@[simp] theorem Ctl.tally_request (c : Ctl) (bs : List Burst) : (c.request bs).tally = c.tally := by
  simp [Ctl.request]

@[simp] theorem Ctl.tally_issue (c : Ctl) (b : Burst) : (c.issue b).tally = c.tally := by
  unfold Ctl.issue
  repeat' split
  all_goals simp

/-! ### Tensors -/

@[simp] theorem Ctl.tally_compareRow (c : Ctl) (g : Sig) : (c.compareRow g).tally = c.tally := by
  unfold Ctl.compareRow
  dsimp only
  repeat' split
  all_goals simp

@[simp] theorem Ctl.tally_signRow (c : Ctl) (d : Desc) : (c.signRow d).tally = c.tally := by
  unfold Ctl.signRow
  repeat' split
  all_goals simp

@[simp] theorem Ctl.tally_signRows (c : Ctl) (k : Key) (rows : Nat) : (c.signRows k rows).tally = c.tally := by
  refine Ctl.tally_each (fun c _ => ?_) c _
  split <;> simp

@[simp] theorem Ctl.tally_feedRow (c : Ctl) (k : Key) (row : Nat) : (c.feedRow k row).tally = c.tally := by
  unfold Ctl.feedRow
  split
  · rfl
  next d _ =>
    have hsigned : ∀ c' : Ctl, c'.tally = c.tally →
        (if c'.paired && d.memDst then c'.signRows k d.rowsN else c').tally = c.tally := fun c' h => by
      split
      · exact (c'.tally_signRows k d.rowsN).trans h
      · exact h
    dsimp only
    split
    · split
      · refine hsigned _ (Ctl.tally_each (fun c r => Ctl.tally_each (fun c p => ?_) c _) c _)
        split <;> rfl
      · refine (Ctl.tally_each (fun c b => ?_) _ _).trans
          (hsigned _ (Ctl.tally_each (fun c r => Ctl.tally_each (fun c p => ?_) c _) c _))
        · split
          · rfl
          · split <;> rfl
        · split <;> rfl
    · refine hsigned _ (Ctl.tally_each (fun c r => Ctl.tally_each (fun c p => ?_) c _) c _)
      split <;> rfl

@[simp] theorem Ctl.tally_tensorProgress (c : Ctl) (k : Key) : (c.tensorProgress k).tally = c.tally := by
  unfold Ctl.tensorProgress
  repeat' split
  all_goals simp

@[simp] theorem Ctl.tally_memFrag (c : Ctl) (k : Key) (frag : Nat) (ws : List Word) :
    (c.memFrag k frag ws).tally = c.tally := by
  unfold Ctl.memFrag
  split <;> simp

@[simp] theorem Ctl.tally_memLost (c : Ctl) (k : Key) (frag : Nat) : (c.memLost k frag).tally = c.tally := by
  unfold Ctl.memLost
  split <;> simp

/-! ### Ports -/

@[simp] theorem Ctl.tally_putOperand (c : Ctl) (n s : Nat) (ws : List Codeword) : (c.putOperand n s ws).tally = c.tally := rfl

@[simp] theorem Ctl.tally_latchHit (c : Ctl) (n s : Nat) (k : Key) (l : Latch) : (c.latchHit n s k l).tally = c.tally := by
  simp [Ctl.latchHit]

@[simp] theorem Ctl.tally_fetchStream (c : Ctl) (n s : Nat) : (c.fetchStream n s).tally = c.tally := by
  unfold Ctl.fetchStream
  repeat' split
  all_goals simp

@[simp] theorem Ctl.tally_sendFrag (c : Ctl) (user src dst : Nat) (cy : Carry) (ws : List Codeword) :
    (c.sendFrag user src dst cy ws).tally = c.tally := by
  simp [Ctl.sendFrag]

@[simp] theorem Ctl.tally_needKey (c : Ctl) (n : Nat) (a : Assign) : (c.needKey n a).tally = c.tally := by
  unfold Ctl.needKey
  split <;> simp

@[simp] theorem Ctl.tally_feedKeys (c : Ctl) (n : Nat) : (c.feedKeys n).tally = c.tally := by
  simp [Ctl.feedKeys]

@[simp] theorem Ctl.tally_raiseReq (c : Ctl) (n : Nat) : (c.raiseReq n).tally = c.tally := by
  unfold Ctl.raiseReq
  repeat' split
  all_goals simp

@[simp] theorem Ctl.tally_pumpPort (c : Ctl) (n : Nat) : (c.pumpPort n).tally = c.tally := by
  simp [Ctl.pumpPort]

@[simp] theorem Ctl.tally_operandArrived (c : Ctl) (n s : Nat) (ws : List Codeword) :
    (c.operandArrived n s ws).tally = c.tally := by
  unfold Ctl.operandArrived
  repeat' split
  all_goals simp

@[simp] theorem Ctl.tally_assign (c : Ctl) (k : Key) (as : List (Nat × Nat × Nat)) (load : Tab Word) :
    (c.assign k as load).tally = c.tally := by
  have hqueue : ∀ (ns : List Nat) (f : Ctl → Nat → Port → Port), (c.each ns fun c n => c.modPort n (f c n)).tally = c.tally :=
    fun ns f => Ctl.tally_each (fun c n => c.tally_modPort n _) c ns
  unfold Ctl.assign
  dsimp only
  rw [Ctl.tally_each (fun c n => c.tally_pumpPort n), Ctl.tally_modDesc]
  exact hqueue _ _

@[simp] theorem Ctl.tally_startTileOp (c : Ctl) (k : Key) : (c.startTileOp k).tally = c.tally := by
  unfold Ctl.startTileOp
  dsimp only
  repeat' split
  all_goals simp

@[simp] theorem Ctl.tally_startHeld (c : Ctl) : c.startHeld.tally = c.tally := by
  simp [Ctl.startHeld]

@[simp] theorem Ctl.tally_idlePort (c : Ctl) (n : Nat) : (c.idlePort n).tally = c.tally := rfl

@[simp] theorem Ctl.tally_reassign (c : Ctl) (n : Nat) : (c.reassign n).tally = c.tally := by
  unfold Ctl.reassign
  dsimp only
  rw [Ctl.tally_startHeld]
  refine (Ctl.tally_each (fun c k => ?_) _ _).trans (c.tally_modPort n _)
  split
  · rfl
  · split
    · rfl
    · split
      · exact Ctl.tally_each (fun c m => c.tally_modPort m _) c _
      · simp

@[simp] theorem Ctl.tally_tileProgress (c : Ctl) (k : Key) : (c.tileProgress k).tally = c.tally := by
  unfold Ctl.tileProgress
  repeat' split
  all_goals simp

/-! ### Key streams -/

@[simp] theorem Ctl.tally_deliver (c : Ctl) (n : Nat) (d : Desc) (a : Assign) (ws : List Word) :
    (c.deliver n d a ws).tally = c.tally := by
  unfold Ctl.deliver
  split <;> simp

/-! ### Banks -/

@[simp] theorem Ctl.tally_logRow (c : Ctl) (event n pb pr : Nat) (name : Option Nat) :
    (c.logRow event n pb pr name).tally = c.tally := by
  simp [Ctl.logRow]

@[simp] theorem Ctl.tally_countLost (c : Ctl) (n pb pr : Nat) (lost : List Nat) :
    (c.countLost n pb pr lost).tally = c.tally := by
  simp [Ctl.countLost]

@[simp] theorem Ctl.tally_readPhys (c : Ctl) (cells : Cells) (n pb pr : Nat) (gone : Bool) (skip : List Nat) (noise reread :
    List Codeword) : (c.readPhys cells n pb pr gone skip noise reread).1.tally = c.tally := by
  unfold Ctl.readPhys
  dsimp only
  repeat' split
  all_goals simp

@[simp] theorem Ctl.tally_readBank (c : Ctl) (cells : Cells) (n b r : Nat) (skip : List Nat) (noise reread : List Codeword) :
    (c.readBank cells n b r skip noise reread).1.tally = c.tally := by
  simp [Ctl.readBank]

@[simp] theorem Ctl.tally_rowWritten (c : Ctl) (n b r : Nat) : (c.rowWritten n b r).tally = c.tally := rfl

@[simp] theorem Ctl.tally_cancelBack (c : Ctl) (n pb pr : Nat) : (c.cancelBack n pb pr).tally = c.tally := by
  simp [Ctl.cancelBack]

@[simp] theorem Ctl.tally_copyCatchUp (c : Ctl) (k : BankCopy) (r : Nat) (ws : List Codeword) :
    (c.copyCatchUp k r ws).tally = c.tally := rfl

@[simp] theorem Ctl.tally_writeBank (c : Ctl) (cells : Cells) (n b r : Nat) (ws : List Codeword) :
    (c.writeBank cells n b r ws).1.tally = c.tally := by
  unfold Ctl.writeBank
  dsimp only
  split <;> simp

@[simp] theorem Ctl.tally_restartStream (c : Ctl) (s : Desc) : (c.restartStream s).tally = c.tally := by
  simp [Ctl.restartStream]

@[simp] theorem Ctl.tally_forgetSig (c : Ctl) (k : Key) : (c.forgetSig k).tally = c.tally := by
  simp [Ctl.forgetSig]

@[simp] theorem Ctl.tally_abandonFenced (c : Ctl) (k : Key) : (c.abandonFenced k).tally = c.tally := by
  unfold Ctl.abandonFenced
  split <;> simp

@[simp] theorem Ctl.tally_refold (c : Ctl) : c.refold.tally = c.tally := by
  simp [Ctl.refold]

@[simp] theorem Ctl.tally_breakPins (c : Ctl) : c.breakPins.tally = c.tally := by
  refine Ctl.tally_each (fun c p => ?_) c _
  split
  · split <;> simp
  · rfl

@[simp] theorem Ctl.tally_leaveService (c : Ctl) (n cause : Nat) : (c.leaveService n cause).tally = c.tally := by
  have hport : ∀ c' : Ctl, c'.tally = c.tally → (if (c'.port n).state = .fenced then c'
      else ((c'.bump (rPORT_GONE n) 0 16 1).portEnter n .gone (some 7)).idlePort n).tally = c.tally := fun c' h => by
    split <;> simp [h]
  refine hport _ ((Ctl.tally_setJobs _ _).trans ?_)
  simp [↓Ctl.tally_setInService]

@[simp] theorem Ctl.tally_dropIncoming (c : Ctl) (l : Nat) : (c.dropIncoming l).tally = c.tally := by
  simp [Ctl.dropIncoming]

@[simp] theorem Ctl.tally_resendIncoming (c : Ctl) (l : Nat) : (c.resendIncoming l).tally = c.tally := by
  unfold Ctl.resendIncoming
  split <;> simp

@[simp] theorem Ctl.tally_fenceSlices (c : Ctl) (ns : List Nat) (cause : Nat) : (c.fenceSlices ns cause).tally = c.tally := by
  simp [Ctl.fenceSlices]

@[simp] theorem Ctl.tally_fillDone (c : Ctl) : c.fillDone.tally = c.tally := by
  simp [Ctl.fillDone]

@[simp] theorem Ctl.tally_nextGroup (c : Ctl) : c.nextGroup.tally = c.tally := by
  simp [Ctl.nextGroup]

@[simp] theorem Ctl.tally_fenceOut (c : Ctl) (n : Nat) : (c.fenceOut n).tally = c.tally := by
  simp [Ctl.fenceOut]

@[simp] theorem Ctl.tally_autoFence (c : Ctl) (n cause : Nat) : (c.autoFence n cause).tally = c.tally := by
  simp [Ctl.autoFence]

@[simp] theorem Ctl.tally_copyRead (c : Ctl) (k : BankCopy) : (c.copyRead k).tally = c.tally := rfl

@[simp] theorem Ctl.tally_spareBank (c : Ctl) (n b : Nat) : (c.spareBank n b).tally = c.tally := by
  unfold Ctl.spareBank
  repeat' split
  all_goals simp

@[simp] theorem Ctl.tally_enterSpare (c : Ctl) (n b r : Nat) : (c.enterSpare n b r).tally = c.tally := by
  unfold Ctl.enterSpare
  dsimp only
  repeat' split
  all_goals simp

@[simp] theorem Ctl.tally_hardRow (c : Ctl) (n b r : Nat) : (c.hardRow n b r).tally = c.tally := by
  have hclear : ∀ (c' : Ctl) (p : Prop) [Decidable p] (js : List Job) (k : Nat), c'.tally = c.tally →
      (if p then { c' with jobs := js } else c'.clearSlots [k]).tally = c.tally := fun c' p _ js k h => by
    split
    · exact h
    · exact (c'.tally_clearSlots [k]).trans h
  unfold Ctl.hardRow
  dsimp only
  split
  · simp
  · split
    · simp
    · simp
    · exact hclear _ _ _ _ (by simp)
    · simp

@[simp] theorem Ctl.tally_lostEffect (c : Ctl) (n b r : Nat) : (c.lostEffect n b r).tally = c.tally := by
  unfold Ctl.lostEffect
  dsimp only
  repeat' split
  all_goals simp

@[simp] theorem Ctl.tally_lostRow (c : Ctl) (n b r : Nat) : (c.lostRow n b r).tally = c.tally := by
  simp [Ctl.lostRow]

/-! ### The network -/

@[simp] theorem Ctl.tally_fillSetting (c : Ctl) (k : Key) (n : Nat) : (c.fillSetting k n).tally = c.tally := by
  simp [Ctl.fillSetting]

@[simp] theorem Ctl.tally_passFrag (c : Ctl) (k : Key) (i : Nat) (ws : List Word) : (c.passFrag k i ws).tally = c.tally := by
  unfold Ctl.passFrag
  split <;> simp

@[simp] theorem Ctl.tally_netFault (c : Ctl) (n : Nat) : (c.netFault n).tally = c.tally := by
  simp [Ctl.netFault]

@[simp] theorem Ctl.tally_lastPass (c : Ctl) (d : Desc) (t : FragTable) (v : Nat) : (c.lastPass d t v).tally = c.tally := rfl

@[simp] theorem Ctl.tally_stagePass (c : Ctl) (d : Desc) (t : FragTable) (p v : Nat) :
    (c.stagePass d t p v).tally = c.tally := rfl

@[simp] theorem Ctl.tally_stageProgress (c : Ctl) (k : Key) : (c.stageProgress k).tally = c.tally := by
  unfold Ctl.stageProgress
  repeat' split
  all_goals simp

@[simp] theorem Ctl.tally_stageFrag (c : Ctl) (k : Key) (i : Nat) (skip : List Nat) (ws : List Word) :
    (c.stageFrag k i skip ws).tally = c.tally := rfl

/-! ### Indexed kinds -/

@[simp] theorem Ctl.tally_indexProgress (c : Ctl) (k : Key) : (c.indexProgress k).tally = c.tally := by
  unfold Ctl.indexProgress
  repeat' split
  all_goals simp

@[simp] theorem Ctl.tally_gatherFull (c : Ctl) (k : Key) (i : Nat) : (c.gatherFull k i).tally = c.tally := by
  unfold Ctl.gatherFull
  repeat' split
  all_goals simp

@[simp] theorem Ctl.tally_gatherWord (c : Ctl) (k : Key) (x : Nat) (w : Word) : (c.gatherWord k x w).tally = c.tally := by
  simp [Ctl.gatherWord]

@[simp] theorem Ctl.tally_gatherIndex (c : Ctl) (k : Key) (i : Nat) (ws : List Word) :
    (c.gatherIndex k i ws).tally = c.tally := by
  unfold Ctl.gatherIndex
  split
  · rfl
  · split
    · dsimp only
      rw [Ctl.tally_gatherFull]
      refine Ctl.tally_each (fun c p => ?_) c _
      split <;> simp
    · rfl

@[simp] theorem Ctl.tally_gatherRequest (c : Ctl) (k : Key) (x t : Nat) : (c.gatherRequest k x t).tally = c.tally := by
  unfold Ctl.gatherRequest
  repeat' split
  all_goals simp

@[simp] theorem Ctl.tally_gatherServed (c : Ctl) (k : Key) (x t : Nat) (w : Codeword) :
    (c.gatherServed k x t w).tally = c.tally := by
  unfold Ctl.gatherServed
  repeat' split
  all_goals simp

@[simp] theorem Ctl.tally_mergeWindow (c : Ctl) (n : Nat) (d : Desc) (i : Nat) : (c.mergeWindow n d i).tally = c.tally := by
  unfold Ctl.mergeWindow
  split
  · rfl
  · dsimp only
    rw [Ctl.tally_indexProgress, Ctl.tally_modNet _ _ (by rfl)]
    simp

@[simp] theorem Ctl.tally_addend (c : Ctl) (k : Key) (target window : Nat) (v : Word) :
    (c.addend k target window v).tally = c.tally := by
  unfold Ctl.addend
  repeat' split
  all_goals simp

@[simp] theorem Ctl.tally_copyFrag (c : Ctl) (k : Key) (i : Nat) (ws : List Codeword) :
    (c.copyFrag k i ws).tally = c.tally := by
  unfold Ctl.copyFrag
  repeat' split
  all_goals simp

@[simp] theorem Ctl.tally_scatterIndex (c : Ctl) (k : Key) (i : Nat) (ws : List Word) :
    (c.scatterIndex k i ws).tally = c.tally := by
  unfold Ctl.scatterIndex
  split <;> simp

@[simp] theorem Ctl.tally_scatterSource (c : Ctl) (k : Key) (i : Nat) (ws : List Word) :
    (c.scatterSource k i ws).tally = c.tally := rfl

@[simp] theorem Ctl.tally_sideHere (c : Ctl) (k : Key) (i : Nat) (ws : List Word) : (c.sideHere k i ws).tally = c.tally := by
  simp [Ctl.sideHere]

@[simp] theorem Ctl.tally_sideRead (c : Ctl) (k : Key) (i from_ : Nat) (ws : List Codeword) :
    (c.sideRead k i from_ ws).tally = c.tally := by
  unfold Ctl.sideRead
  split <;> simp

@[simp] theorem Ctl.tally_rowReady (c : Ctl) (k : Key) (r : Nat) : (c.rowReady k r).tally = c.tally := by
  unfold Ctl.rowReady
  repeat' split
  all_goals simp

@[simp] theorem Ctl.tally_rowRead (c : Ctl) (k : Key) (r : Nat) : (c.rowRead k r).tally = c.tally := by
  unfold Ctl.rowRead
  split
  · rfl
  · split
    · rfl
    · dsimp only
      split
      · rfl
      · split
        · simp
        · rfl

@[simp] theorem Ctl.tally_rowWord (c : Ctl) (k : Key) (r src : Nat) (w : Word) : (c.rowWord k r src w).tally = c.tally := by
  unfold Ctl.rowWord
  split
  · rfl
  · split
    · rfl
    · dsimp only
      split
      · rfl
      · split
        · simp
        · rfl

@[simp] theorem Ctl.tally_reduceRead (c : Ctl) (k : Key) (i : Nat) : (c.reduceRead k i).tally = c.tally := by
  unfold Ctl.reduceRead
  repeat' split
  all_goals simp

@[simp] theorem Ctl.tally_readSelected (c : Ctl) (k : Key) (i : Nat) : (c.readSelected k i).tally = c.tally := by
  unfold Ctl.readSelected
  repeat' split
  all_goals simp

@[simp] theorem Ctl.tally_maskRead (c : Ctl) (k : Key) (m : Nat) (ws : List Word) : (c.maskRead k m ws).tally = c.tally := by
  unfold Ctl.maskRead
  repeat' split
  all_goals simp

@[simp] theorem Ctl.tally_reduceFrag (c : Ctl) (k : Key) (i : Nat) (ws : List Word) :
    (c.reduceFrag k i ws).tally = c.tally := by
  simp [Ctl.reduceFrag]

@[simp] theorem Ctl.tally_shiftFrag (c : Ctl) (k : Key) (i : Nat) (ws : List Word) : (c.shiftFrag k i ws).tally = c.tally := by
  unfold Ctl.shiftFrag
  repeat' split
  all_goals simp

/-! ### Links -/

@[simp] theorem Ctl.tally_sendAlias (c : Ctl) (d : Desc) (l : Nat) : (c.sendAlias d l).tally = c.tally := by
  simp [Ctl.sendAlias]

@[simp] theorem Ctl.tally_aliasProgress (c : Ctl) (k : Key) : (c.aliasProgress k).tally = c.tally := by
  unfold Ctl.aliasProgress
  repeat' split
  all_goals simp

@[simp] theorem Ctl.tally_incomingDone (c : Ctl) (l i : Nat) : (c.incomingDone l i).tally = c.tally := by
  unfold Ctl.incomingDone
  dsimp only
  repeat' split
  all_goals simp

/-! ### Rows -/

@[simp] theorem Ctl.tally_swapJob (c : Ctl) (j : Job) (j' : Option Job) : (c.swapJob j j').tally = c.tally := rfl

@[simp] theorem Ctl.tally_scrubDone (c : Ctl) (n : Nat) (v : Nat × Nat) : (c.scrubDone n v).tally = c.tally := by
  simp [Ctl.scrubDone]

@[simp] theorem Ctl.tally_copyRowRead (c : Ctl) (cells : Cells) (j : Job) (bank spare : Nat) (noise reread : List Codeword) :
    (c.copyRowRead cells j bank spare noise reread).tally = c.tally := by
  unfold Ctl.copyRowRead
  dsimp only
  split <;> simp

@[simp] theorem Ctl.tally_copyRowWrite (c : Ctl) (cells : Cells) (j : Job) (bank spare : Nat) :
    (c.copyRowWrite cells j bank spare).1.tally = c.tally := by
  unfold Ctl.copyRowWrite
  dsimp only
  split <;> simp

@[simp] theorem Ctl.tally_zeroRow (c : Ctl) (cells : Cells) (j : Job) (pb : Nat) :
    (c.zeroRow cells j pb).1.tally = c.tally := by
  simp [Ctl.zeroRow]

@[simp] theorem Ctl.tally_verifyFails (c : Ctl) (n pb pr : Nat) : (c.verifyFails n pb pr).tally = c.tally := by
  unfold Ctl.verifyFails
  dsimp only
  split <;> simp

@[simp] theorem Ctl.tally_scrubFinds (c : Ctl) (cells : Cells) (n pb pr : Nat) (noise reread : List Codeword) :
    (c.scrubFinds cells n pb pr noise reread).1.tally = c.tally := by
  unfold Ctl.scrubFinds
  dsimp only
  split
  · split <;> simp
  · simp

@[simp] theorem Ctl.tally_scrubPuts (c : Ctl) (cells : Cells) (n pb pr : Nat) (ws : List Codeword) :
    (c.scrubPuts cells n pb pr ws).1.tally = c.tally := by
  unfold Ctl.scrubPuts
  dsimp only
  split <;> simp

@[simp] theorem Ctl.tally_scrubChecks (c : Ctl) (cells : Cells) (n pb pr : Nat) (noise : List Codeword) :
    (c.scrubChecks cells n pb pr noise).tally = c.tally := by
  simp [Ctl.scrubChecks]

@[simp] theorem Ctl.tally_scrubRead (c : Ctl) (cells : Cells) (j : Job) (pb : Nat) (noise reread : List Codeword) :
    (c.scrubRead cells j pb noise reread).tally = c.tally := by
  unfold Ctl.scrubRead
  dsimp only
  split <;> simp

@[simp] theorem Ctl.tally_scrubBack (c : Ctl) (cells : Cells) (j : Job) (pb : Nat) :
    (c.scrubBack cells j pb).1.tally = c.tally := by
  simp [Ctl.scrubBack]

@[simp] theorem Ctl.tally_scrubVerify (c : Ctl) (cells : Cells) (j : Job) (pb : Nat) (noise : List Codeword) :
    (c.scrubVerify cells j pb noise).tally = c.tally := by
  simp [Ctl.scrubVerify]

/-! ### What a grant allows -/

@[simp] theorem Ctl.tally_score (c : Ctl) (n : Option Nat) : (c.score n).tally = c.tally := by
  unfold Ctl.score
  split <;> simp

@[simp] theorem Ctl.tally_collide (c : Ctl) (n pb w : Nat) (takers : List Nat) : (c.collide n pb w takers).tally = c.tally := by
  simp [Ctl.collide]

@[simp] theorem Ctl.tally_migFrag (c : Ctl) (n i src : Nat) (ws : List Codeword) : (c.migFrag n i src ws).tally = c.tally := by
  unfold Ctl.migFrag
  split <;> simp

@[simp] theorem Ctl.tally_readDone (c : Ctl) (j : Job) : (c.readDone j).tally = c.tally := by
  unfold Ctl.readDone
  split <;> simp

@[simp] theorem Ctl.tally_readerLost (c : Ctl) (j : Job) : (c.readerLost j).tally = c.tally := by
  unfold Ctl.readerLost
  repeat' split
  all_goals simp

@[simp] theorem Ctl.tally_evacLost (c : Ctl) (n i pb pr : Nat) (slice : Nat) :
    (c.evacLost n i pb pr slice).tally = c.tally := by
  simp [Ctl.evacLost]

@[simp] theorem Ctl.tally_readLost (c : Ctl) (j j' : Job) (b : Nat) : (c.readLost j j' b).tally = c.tally := by
  unfold Ctl.readLost
  split <;> simp

@[simp] theorem Ctl.tally_readChunk (c : Ctl) (cells : Cells) (j : Job) (q : Nat) (noise reread : List Codeword) :
    (c.readChunk cells j q noise reread).tally = c.tally := by
  simp [Ctl.readChunk]

@[simp] theorem Ctl.tally_putDone (c : Ctl) (cy : Carry) : (c.putDone cy).tally = c.tally := by
  unfold Ctl.putDone
  dsimp only
  repeat' split
  all_goals simp

@[simp] theorem Ctl.tally_writeChunk (c : Ctl) (cells : Cells) (j : Job) (q : Nat) :
    (c.writeChunk cells j q).1.tally = c.tally := by
  unfold Ctl.writeChunk
  repeat' split
  all_goals simp

@[simp] theorem Ctl.tally_updateWord (c : Ctl) (cells : Cells) (j : Job) (k : Key) (t : Nat) (v : Word) (q : Nat) (noise reread
    : List Codeword) : (c.updateWord cells j k t v q noise reread).1.tally = c.tally := by
  unfold Ctl.updateWord
  dsimp only
  repeat' split
  all_goals simp

@[simp] theorem Ctl.tally_serveGathers (c : Ctl) (cells : Cells) (j : Job) (js : List Job) (q : Nat) (noise reread : List
    Codeword) : (c.serveGathers cells j js q noise reread).tally = c.tally := by
  unfold Ctl.serveGathers
  dsimp only
  refine (Ctl.tally_each (fun c x => ?_) _ _).trans ?_
  · split
    · split
      · rfl
      · split <;> simp
    · rfl
  · split
    · refine (Ctl.tally_setJobs _ _).trans ?_
      simp
    · refine (Ctl.tally_lostRow _ _ _ _).trans ((Ctl.tally_setJobs _ _).trans ?_)
      simp

@[simp] theorem Ctl.tally_bankAccess (c : Ctl) (cells : Cells) (pb : Nat) (j : Job) (noise reread : List Codeword) :
    (c.bankAccess cells pb j noise reread).1.tally = c.tally := by
  unfold Ctl.bankAccess
  repeat' split
  all_goals simp

@[simp] theorem Ctl.tally_inject (c : Ctl) (line user : Nat) : (c.inject line user).tally = c.tally := by
  unfold Ctl.inject
  split <;> simp

@[simp] theorem Ctl.tally_send (c : Ctl) (b : Burst) : (c.send b).tally = c.tally := by
  unfold Ctl.send
  split <;> simp

@[simp] theorem Ctl.tally_fragArrived (c : Ctl) (cy : Carry) (ws : List Codeword) : (c.fragArrived cy ws).tally = c.tally := by
  unfold Ctl.fragArrived
  repeat' split
  all_goals simp

@[simp] theorem Ctl.tally_fragWord (c : Ctl) (cy : Carry) (lane : Nat) (w : Codeword) :
    (c.fragWord cy lane w).tally = c.tally := by
  simp [Ctl.fragWord]

@[simp] theorem Ctl.tally_arrive (c : Ctl) (f : Flit) (w : Codeword) : (c.arrive f w).tally = c.tally := by
  unfold Ctl.arrive
  split <;> simp

@[simp] theorem Ctl.tally_migLost (c : Ctl) (n i lane : Nat) : (c.migLost n i lane).tally = c.tally := by
  simp [Ctl.migLost]

@[simp] theorem Ctl.tally_flitLost (c : Ctl) (f : Flit) : (c.flitLost f).tally = c.tally := by
  unfold Ctl.flitLost
  dsimp only
  repeat' split
  all_goals simp

@[simp] theorem Ctl.tally_countWaves (c : Ctl) : c.countWaves.tally = c.tally := by
  simp [Ctl.countWaves]

@[simp] theorem Ctl.tally_eject (c : Ctl) (f : Flit) (d : Decoded) : (c.eject f d).tally = c.tally := by
  unfold Ctl.eject
  split <;> simp

end Sys2Proof.Machine

/-!
SUPPORT. A round of an arbiter (R276 to R280, R288), a pass of the network (R188, R202), the end of a wave (R223), and the settled
statement about them.
-/
namespace Sys2Proof.Machine

/-! ### The winner of a round (R280, R287) -/

/-- A cyclic walk from the pointer comes upon every candidate. -/
theorem firstFrom_mem {n ptr : Nat} {cands : List Nat} (hne : cands ≠ []) (hlt : ∀ k ∈ cands, k < n) :
    firstFrom n ptr cands ∈ cands := by
  obtain ⟨k, hk⟩ := List.exists_mem_of_ne_nil cands hne
  have hn : 0 < n := Nat.zero_lt_of_lt (hlt k hk)
  have hwalk : k ∈ (List.range n).map fun i => (ptr + i) % n := by
    refine List.mem_map.mpr ⟨(k + (n - ptr % n)) % n, List.mem_range.mpr (Nat.mod_lt _ hn), ?_⟩
    have hturns : ptr + (k + (n - ptr % n)) = k + n * (ptr / n + 1) := by
      have hptr : ptr % n < n := Nat.mod_lt _ hn
      have hdiv := Nat.div_add_mod ptr n
      rw [Nat.mul_add, Nat.mul_one]
      omega
    rw [Nat.add_mod_mod, hturns, Nat.add_mul_mod_self_left, Nat.mod_eq_of_lt (hlt k hk)]
  have hfound : (((List.range n).map fun i => (ptr + i) % n).find? cands.contains).isSome :=
    List.find?_isSome.mpr ⟨k, hwalk, by simpa using hk⟩
  obtain ⟨w, hw⟩ := Option.isSome_iff_exists.mp hfound
  rw [firstFrom, hw]
  simpa using List.find?_some hw

/-- The highest score is that of some candidate, unless it is the bound that the fold began with. -/
theorem foldl_max_eq (score : Nat → Nat) (cands : List Nat) (m : Nat) :
    cands.foldl (fun m k => max m (score k)) m = m ∨
      ∃ k ∈ cands, score k = cands.foldl (fun m k => max m (score k)) m := by
  induction cands generalizing m with
  | nil => exact .inl rfl
  | cons k ks ih =>
    rw [List.foldl_cons]
    rcases ih (max m (score k)) with hstart | ⟨j, hj, hscore⟩
    · rcases max_choice m (score k) with hm | hk
      · exact .inl (hstart.trans hm)
      · exact .inr ⟨k, List.mem_cons_self, (hstart.trans hk).symm⟩
    · exact .inr ⟨j, List.mem_cons_of_mem _ hj, hscore⟩

/-- Some candidate has the highest score of its tier. -/
theorem exists_foldl_max_eq (score : Nat → Nat) {cands : List Nat} (hne : cands ≠ []) :
    ∃ k ∈ cands, score k = cands.foldl (fun m k => max m (score k)) 0 := by
  rcases foldl_max_eq score cands 0 with hzero | hsome
  · obtain ⟨k, ks, rfl⟩ := List.exists_cons_of_ne_nil hne
    have hmono : ∀ (l : List Nat) (m : Nat), m ≤ l.foldl (fun m k => max m (score k)) m := fun l => by
      induction l with
      | nil => exact fun m => le_rfl
      | cons j js ih => exact fun m => (le_max_left m (score j)).trans (ih _)
    have hle := hmono ks (max 0 (score k))
    rw [List.foldl_cons] at hzero
    exact ⟨k, List.mem_cons_self, by rw [List.foldl_cons]; omega⟩
  · exact hsome

/-- The winner is one of the candidates, by rotation alone or by score first. -/
theorem Arb.pick_mem (a : Arb) {cands : List Nat} (hne : cands ≠ []) (hlt : ∀ k ∈ cands, k < a.reqs.length) :
    (a.pick cands).1 ∈ cands := by
  unfold Arb.pick
  dsimp only
  split
  · exact firstFrom_mem hne hlt
  · refine List.mem_of_mem_filter (firstFrom_mem ?_ fun k hk => hlt k (List.mem_of_mem_filter hk))
    obtain ⟨k, hk, hbest⟩ := exists_foldl_max_eq _ hne
    exact List.ne_nil_of_mem (List.mem_filter.mpr ⟨hk, decide_eq_true hbest⟩)

/-- The requesters of the tier that a decision is made in: tier F where one of it takes part (R275). -/
def tierTakers (bank : Bool) (takers : List Nat) : List Nat := takers.filter fun k => tierF bank k = takers.any (tierF bank)

theorem tierTakers_ne_nil {takers : List Nat} (bank : Bool) (hne : takers ≠ []) : tierTakers bank takers ≠ [] := by
  cases hany : takers.any (tierF bank)
  · obtain ⟨k, hk⟩ := List.exists_mem_of_ne_nil takers hne
    exact List.ne_nil_of_mem (List.mem_filter.mpr ⟨hk, by simpa [hany] using List.any_eq_false.mp hany k hk⟩)
  · obtain ⟨k, hk, htier⟩ := List.any_eq_true.mp hany
    exact List.ne_nil_of_mem (List.mem_filter.mpr ⟨hk, by simp [hany, htier]⟩)

/-- Where a requester 0 to 8 of a bank takes part, one of them wins. -/
theorem le_of_mem_tierTakers {takers : List Nat} {w : Nat} (hw : w ∈ tierTakers true takers) (hfast : ∃ k ∈ takers, k ≤ 8) :
    w ≤ 8 := by
  obtain ⟨k, hk, hle⟩ := hfast
  have hany : takers.any (tierF true) = true := List.any_eq_true.mpr ⟨k, hk, by simp [tierF, hle]⟩
  simpa [tierTakers, hany, tierF] using (List.mem_filter.mp hw).2

/-! ### Grants of one arbiter (R288) -/

@[simp] theorem Arb.newWindow_grants (a : Arb) (bank : Bool) (lo : Nat) (f : Bool) (st : ArbSetting) (gen : Nat) :
    (a.newWindow bank lo f st gen).grants = a.grants := by
  have hreqs : (a.newWindow bank lo f st gen).reqs = (a.reqs.zipIdx).map fun (p : ReqState × Nat) =>
      if tierF bank p.2 = f then { p.1 with credit := st.weights.getD (lo + p.2) 0 } else p.1 := by
    unfold Arb.newWindow
    dsimp only
    split <;> rfl
  refine List.ext_getElem? fun i => ?_
  simp only [Arb.grants, hreqs, List.getElem?_map, List.getElem?_zipIdx, Option.map_map]
  refine Option.map_congr fun r _ => ?_
  simp only [Function.comp]
  split <;> rfl

/-- The arbiter that a decision is made in: DETERMINISTIC mode resets the pointer as it begins, and starts new windows as it ends
(R287). -/
def Arb.inMode (a : Arb) (bank : Bool) (lo : Nat) (st : ArbSetting) (gen : Nat) (det : Bool) : Arb :=
  if a.det = det then a
  else if det then { a with det := true, ptr := 0 }
  else ({ a with det := false }.newWindow bank lo true st gen).newWindow bank lo false st gen

@[simp] theorem Arb.inMode_grants (a : Arb) (bank : Bool) (lo : Nat) (st : ArbSetting) (gen : Nat) (det : Bool) :
    (a.inMode bank lo st gen det).grants = a.grants := by
  unfold Arb.inMode
  split
  · rfl
  · split
    · rfl
    · rw [Arb.newWindow_grants, Arb.newWindow_grants]
      rfl

theorem Arb.decide_fst (a : Arb) (bank : Bool) (lo : Nat) (takers : List Nat) (st : ArbSetting) (gen : Nat) (det : Bool) :
    (a.decide bank lo takers st gen det).1 = ((a.inMode bank lo st gen det).pick (tierTakers bank takers)).1 := rfl

theorem Arb.length_grants (a : Arb) : a.grants.length = a.reqs.length := List.length_map _

theorem Arb.decide_mem {a : Arb} {takers : List Nat} (bank : Bool) (lo : Nat) (st : ArbSetting) (gen : Nat) (det : Bool)
    (hne : takers ≠ []) (hlt : ∀ k ∈ takers, k < a.reqs.length) :
    (a.decide bank lo takers st gen det).1 ∈ tierTakers bank takers := by
  have hlen : (a.inMode bank lo st gen det).reqs.length = a.reqs.length := by
    rw [← Arb.length_grants, Arb.inMode_grants, Arb.length_grants]
  exact Arb.pick_mem _ (tierTakers_ne_nil bank hne) fun k hk => hlen ▸ hlt k (List.mem_of_mem_filter hk)

theorem ReqState.after_grants (r : ReqState) (won took : Bool) :
    (r.after won took).grants = if won then min (r.grants + 1) (2 ^ 48 - 1) else r.grants := by
  unfold ReqState.after
  split
  · rfl
  · split <;> rfl

/-- The arbiter after a decision in its mode, before a window that the decision may have used up is started anew (R278). -/
def Arb.decided (a : Arb) (bank : Bool) (takers : List Nat) : Arb :=
  let f := takers.any (tierF bank)
  let p := a.pick (tierTakers bank takers)
  let a := { a with
    ptr := p.2, reqs := (a.reqs.zipIdx).map fun (q : ReqState × Nat) => q.1.after (q.2 = p.1) (takers.contains q.2),
    busy := a.busy || f, busyG := a.busyG || !f }
  if f then { a with left := a.left - 1 } else { a with leftG := a.leftG - 1 }

theorem Arb.decided_grants (a : Arb) (bank : Bool) (takers : List Nat) :
    (a.decided bank takers).grants[(a.pick (tierTakers bank takers)).1]? =
      a.grants[(a.pick (tierTakers bank takers)).1]?.map fun g => min (g + 1) (2 ^ 48 - 1) := by
  have hreqs : (a.decided bank takers).reqs = (a.reqs.zipIdx).map fun (q : ReqState × Nat) =>
      q.1.after (q.2 = (a.pick (tierTakers bank takers)).1) (takers.contains q.2) := by
    unfold Arb.decided
    dsimp only
    split <;> rfl
  rw [Arb.grants, hreqs]
  simp [Arb.grants, List.getElem?_zipIdx, ReqState.after_grants, Function.comp_def]

theorem Arb.decide_snd (a : Arb) (bank : Bool) (lo : Nat) (takers : List Nat) (st : ArbSetting) (gen : Nat) (det : Bool) :
    (a.decide bank lo takers st gen det).2 =
      if (if takers.any (tierF bank) then ((a.inMode bank lo st gen det).decided bank takers).left
          else ((a.inMode bank lo st gen det).decided bank takers).leftG) = 0 then
        ((a.inMode bank lo st gen det).decided bank takers).newWindow bank lo (takers.any (tierF bank)) st gen
      else (a.inMode bank lo st gen det).decided bank takers := rfl

/-- A decision counts the grant of its winner. -/
theorem Arb.decide_grants (a : Arb) (bank : Bool) (lo : Nat) (takers : List Nat) (st : ArbSetting) (gen : Nat) (det : Bool) :
    (a.decide bank lo takers st gen det).2.grants[(a.decide bank lo takers st gen det).1]? =
      a.grants[(a.decide bank lo takers st gen det).1]?.map fun g => min (g + 1) (2 ^ 48 - 1) := by
  have hwindow : (a.decide bank lo takers st gen det).2.grants = ((a.inMode bank lo st gen det).decided bank takers).grants := by
    rw [Arb.decide_snd, apply_ite Arb.grants, Arb.newWindow_grants, ite_self]
  rw [hwindow, Arb.decide_fst, Arb.decided_grants, Arb.inMode_grants]

/-! ### Grants of the stored arbiters -/

theorem Tab.get_map {α β : Type} (f : α → β) (d : α) (t : Tab α) (k : Nat) :
    Tab.get (f d) (t.map fun p => (p.1, f p.2)) k = f (Tab.get d t k) := by
  induction t with
  | nil => rfl
  | cons p t ih =>
    simp only [List.map_cons, Tab.get, ih]
    split <;> rfl

theorem freshArb_grants (lo n : Nat) (st : ArbSetting) (gen : Nat) (det : Bool) :
    (freshArb lo n st gen det).grants = List.replicate n 0 := by
  simp [freshArb, Arb.grants, Function.comp_def]

/-- The grants of an arbiter are those stored under its key, and none where it has granted nothing. -/
theorem Ctl.arb_grants (c : Ctl) (a : ArbId) :
    (c.arb a).grants = Tab.get (List.replicate (arbSpan a).2 0) c.granted (arbKey a) := by
  rw [Ctl.arb, Ctl.granted, ← Tab.get_map Arb.grants, freshArb_grants]

theorem Ctl.arb_setArb (c : Ctl) (a : ArbId) (x : Arb) : (c.setArb (arbKey a) x).arb a = x := Tab.get_set_self _ _ _ _

theorem Ctl.granted_of_tally {c c' : Ctl} (h : c'.tally = c.tally) : c'.granted = c.granted := congrArg Prod.fst h

theorem Ctl.tally_converge (c : Ctl) : c.converge.tally = c.tally := by
  have hslices : ∀ (c : Ctl) (l : List Nat), (c.each l fun c n =>
      if c.sliceCurrent n then c.putMask rGEN_CONV_LO rGEN_CONV_HI n true else c).tally = c.tally := fun c l =>
    Ctl.tally_each (fun c n => by
      split
      · exact c.tally_putMask n true (by decide) (by decide)
      · rfl) c l
  have hraise : ∀ (c : Ctl) (p : Prop) [Decidable p] (o i : Nat), o ≠ rPERM_VECTORS → o ≠ rKEY_WORDS →
      (if p then c.raise o i else c).tally = c.tally := fun c p _ o i hp hk => by
    split
    · exact c.tally_raise i hp hk
    · rfl
  have hset := hraise c (c.arbs.all (fun p => c.arbSet p.1 p.2) = true) rARB_STATUS 16 (by decide) (by decide)
  rw [Ctl.converge, Ctl.tally_ite, hraise _ _ rGEN_STATUS 8 (by decide) (by decide), hslices, hset, ite_self]

/-- The mode arbiter's grant begins its hold: passes, and no grants of others. -/
theorem Ctl.grantMode_granted (c : Ctl) (m : Nat) : (c.grantMode m).granted = c.granted := by
  have hmode : ∀ c' : Ctl, c'.granted = c.granted →
      ((c'.modNet fun x => { x with mode := m, passesLeft := c'.passGroup }).startDawn).granted = c.granted := fun c' h =>
    (Ctl.granted_of_tally (Ctl.tally_startDawn _)).trans h
  have hcounted : (if c.net.mode ≠ 0 && c.net.mode ≠ m then c.count rMODE_SWITCHES 1 else c).granted = c.granted := by
    split <;> rfl
  unfold Ctl.grantMode
  dsimp only
  split
  · split
    · exact (Ctl.granted_of_tally (Ctl.tally_fillSetting _ _ _)).trans (hmode _ hcounted)
    · exact hmode _ hcounted
  · exact hmode _ hcounted

/-- What a grant allows counts no grants. -/
theorem Ctl.grant_granted (c : Ctl) (cells : Cells) (a : ArbId) (w : Nat) (takers : List Nat) (noise reread : List Codeword) :
    (c.grant cells a w takers noise reread).1.granted = c.granted := by
  cases a with
  | bank n pb =>
    unfold Ctl.grant
    dsimp only
    split
    · exact Ctl.granted_of_tally ((Ctl.tally_bankAccess _ _ _ _ _ _).trans (Ctl.tally_collide _ _ _ _ _))
    · rfl
  | merge n =>
    unfold Ctl.grant
    dsimp only
    split
    · exact Ctl.granted_of_tally (Ctl.tally_mergeWindow _ _ _ _)
    · rfl
  | channel m =>
    unfold Ctl.grant
    dsimp only
    split
    · exact Ctl.granted_of_tally (Ctl.tally_send _ _)
    · rfl
  | inject l => exact Ctl.granted_of_tally (Ctl.tally_inject _ _ _)
  | mode => exact Ctl.grantMode_granted _ _

/-- Is an arbiter one of a bank, which has two tiers? -/
def isBankId : ArbId → Bool
  | .bank _ _ => true
  | _ => false

/-- A round leaves each requester's grants as its decision does. -/
theorem Ctl.runRound_grants (c : Ctl) (cells : Cells) (a : ArbId) (takers : List Nat) (noise reread : List Codeword) :
    ((c.runRound cells a takers noise reread).1.arb a).grants =
      ((c.arb a).decide (isBankId a) (arbSpan a).1 takers c.arbActive c.arbGen c.det).2.grants := by
  have hbank : c.runRound cells a takers noise reread =
      (c.setArb (arbKey a) ((c.arb a).decide (isBankId a) (arbSpan a).1 takers c.arbActive c.arbGen
        c.det).2).converge.raiseJobs.grant cells a
        ((c.arb a).decide (isBankId a) (arbSpan a).1 takers c.arbActive c.arbGen c.det).1 takers noise reread := by
    unfold Ctl.runRound isBankId
    cases a <;> rfl
  rw [hbank]
  generalize (c.arb a).decide (isBankId a) (arbSpan a).1 takers c.arbActive c.arbGen c.det = d
  have hkept : ∀ (c : Ctl) (w : Nat),
      ((c.converge.raiseJobs.grant cells a w takers noise reread).1.arb a).grants = (c.arb a).grants := fun c w => by
      rw [Ctl.arb_grants, Ctl.grant_granted, Ctl.granted_of_tally (Ctl.tally_raiseJobs _),
        Ctl.granted_of_tally (Ctl.tally_converge _), ← Ctl.arb_grants]
  rw [hkept, Ctl.arb_setArb]

theorem Ctl.arb_useGrant (c : Ctl) (a : ArbId) : c.useGrant.arb a = c.arb a := by
  unfold Ctl.useGrant
  split <;> rfl

theorem exec_round {s : State} {a : ArbId} {ks : List Nat} {noise reread : List Codeword}
    (ht : s.takes (.round a ks noise reread) = true) (hne : ks ≠ []) (hreq : ∀ k ∈ ks, s.ctl.requests a k = true)
    (hmay : s.ctl.mayGrant = true) :
    exec (.round a ks noise reread) s = .next { s with
      ctl := (s.ctl.useGrant.runRound s.cells a ks noise reread).1,
      cells := (s.ctl.useGrant.runRound s.cells a ks noise reread).2 } := by
  have hgo : (ks.isEmpty || !ks.all (s.ctl.requests a) || !s.ctl.mayGrant) = false := by
    simpa [hne, hmay] using hreq
  change execRound a ks noise reread s = _
  rw [execRound, fullStep_takes _ ht]
  simp only [hgo, Bool.false_eq_true, if_false]

theorem round_spec {s : State} {a : ArbId} {ks : List Nat} {noise reread : List Codeword}
    (ht : s.takes (.round a ks noise reread) = true) (hne : ks ≠ []) (hreq : ∀ k ∈ ks, s.ctl.requests a k = true)
    (hmay : s.ctl.mayGrant = true) (hlt : ∀ k ∈ ks, k < (s.ctl.arb a).reqs.length) :
    ∃ t w r r', exec (.round a ks noise reread) s = .next t ∧ w ∈ ks ∧
      (∀ n b, a = .bank n b → (∃ k ∈ ks, k ≤ 8) → w ≤ 8) ∧
      (s.ctl.arb a).reqs[w]? = some r ∧ (t.ctl.arb a).reqs[w]? = some r' ∧ r'.grants = min (r.grants + 1) (2 ^ 48 - 1) := by
  have harb := s.ctl.arb_useGrant a
  have hgrants := Ctl.runRound_grants s.ctl.useGrant s.cells a ks noise reread
  rw [harb] at hgrants
  have hmem := Arb.decide_mem (isBankId a) (arbSpan a).1 s.ctl.useGrant.arbActive s.ctl.useGrant.arbGen s.ctl.useGrant.det hne hlt
  have hcount := Arb.decide_grants (s.ctl.arb a) (isBankId a) (arbSpan a).1 ks s.ctl.useGrant.arbActive s.ctl.useGrant.arbGen
    s.ctl.useGrant.det
  rw [← hgrants] at hcount
  generalize ((s.ctl.arb a).decide _ _ _ _ _ _).1 = w at hmem hcount
  have hw : w ∈ ks := List.mem_of_mem_filter hmem
  have hr : (s.ctl.arb a).reqs[w]? = some ((s.ctl.arb a).reqs[w]'(hlt w hw)) := List.getElem?_eq_getElem (hlt w hw)
  rw [Arb.grants, Arb.grants, List.getElem?_map, List.getElem?_map, hr] at hcount
  obtain ⟨r', hr', hg⟩ := Option.map_eq_some_iff.mp hcount
  refine ⟨_, w, _, r', exec_round ht hne hreq hmay, hw, fun n b ha => ?_, hr, hr', hg⟩
  subst ha
  exact le_of_mem_tierTakers hmem

/-! ### A pass (R188, R202) -/

/-- A permutation pass begins: it is paced, counted and used up, and the settings of it and of the next are computed. -/
def Ctl.permBegin (c : Ctl) (d : Desc) (t : FragTable) : Ctl :=
  let c := ((c.beat .network (.desc d.key)).count rPERM_VECTORS 1).charge (.desc d.key) 6 (rowWords t.span / t.fold)
  let c := (c.modNet fun x => { x with passesLeft := x.passesLeft - 1 }).fillSetting d.key d.prog
  if d.prog + 1 < d.passes t * d.vectors t then c.fillSetting d.key (d.prog + 1) else c

/-- A vector of a permutation pass is written, and the PERMUTE moves to its next pass, or gives up its hold after the last. -/
def Ctl.permMove (c : Ctl) (d : Desc) (t : FragTable) : Ctl :=
  let k := d.passes t
  let tv := d.vectors t
  let p := d.prog / tv
  let c := if p + 1 < k then c.stagePass d t p (d.prog % tv) else c.lastPass d t (d.prog % tv)
  let c := c.modDesc d.key fun d => { d with prog := d.prog + 1, phase := if d.prog + 1 = k * tv then 2 else d.phase }
  if d.prog + 1 = k * tv then c.modNet fun x => { x with passesLeft := 0 } else c

/-- A permutation pass ends: its vector is written, it is run again, or its PERMUTE ends. -/
def Ctl.permEnd (c : Ctl) (d : Desc) (t : FragTable) (noise : List Codeword) : Ctl :=
  let w := rowWords t.span / t.fold
  let ds := ejected (List.replicate w (encodeCw 0)) (noise.take w)
  let bad := ((ds.zipIdx).filter fun p => p.1 = .uncorrectable).map (·.2)
  let c := c.bump rXN_ERR 0 16 (correctedIn ds)
  let again : Bool := c.net.repeating = some (d.key, d.prog)
  if !bad.isEmpty && !again then c.modNet fun x => { x with repeating := some (d.key, d.prog) }
  else
    let used (s : Setting) : Bool := s.key = d.key && s.pass = d.prog
    let c := c.modNet fun x => { x with repeating := none, settings := x.settings.filter fun s => !used s }
    if !bad.isEmpty then
      let bs := vectorBlocks t (d.prog % d.vectors t % t.fold)
      let c := c.finish d.key 0x31 0
      c.each bad fun c j => c.netFault (t.sliceOf (bs.getD (j / 128) 0))
    else c.permMove d t

theorem Ctl.permPass_eq (c : Ctl) (d : Desc) (t : FragTable) (noise : List Codeword) :
    c.permPass d t noise = (c.permBegin d t).permEnd d t noise := rfl

/-- A pass has been used up. -/
def Ctl.UsesPass (c c' : Ctl) : Prop :=
  c'.net.passesLeft ≤ c.net.passesLeft - 1 ∧ c'.reg rPERM_VECTORS = (c.count rPERM_VECTORS 1).reg rPERM_VECTORS

theorem Ctl.passesLeft_of_tally {c c' : Ctl} (h : c'.tally = c.tally) : c'.net.passesLeft = c.net.passesLeft :=
  congrArg (fun x => x.2.1) h

theorem Ctl.permVectors_of_tally {c c' : Ctl} (h : c'.tally = c.tally) : c'.reg rPERM_VECTORS = c.reg rPERM_VECTORS :=
  congrArg (fun x => x.2.2.1) h

theorem Ctl.UsesPass.tally {c c' c'' : Ctl} (h : c.UsesPass c') (ht : c''.tally = c'.tally) : c.UsesPass c'' :=
  ⟨(Ctl.passesLeft_of_tally ht).trans_le h.1, (Ctl.permVectors_of_tally ht).trans h.2⟩

theorem Ctl.UsesPass.passesLeft_lt {c c' : Ctl} (h : c.UsesPass c') (hleft : c.net.passesLeft ≠ 0) :
    c'.net.passesLeft < c.net.passesLeft := by
  have hle := h.1
  omega

theorem Ctl.UsesPass.counted {c c' : Ctl} (h : c.UsesPass c') : c.counted c' rPERM_VECTORS 1 := Ctl.counted_of_reg h.2

/-- The network may give up passes that it holds, but takes none back. -/
theorem Ctl.UsesPass.modNet {c c' : Ctl} (h : c.UsesPass c') {f : Net → Net} (hf : (f c'.net).passesLeft ≤ c'.net.passesLeft) :
    c.UsesPass (c'.modNet f) := ⟨hf.trans h.1, h.2⟩

theorem Ctl.permBegin_usesPass (c : Ctl) (d : Desc) (t : FragTable) : c.UsesPass (c.permBegin d t) := by
  have hbeat := c.tally_beat .network (.desc d.key)
  have hcharged : ∀ c' : Ctl, (c'.charge (.desc d.key) 6 (rowWords t.span / t.fold)).tally = c'.tally :=
    fun c' => c'.tally_charge _ _ _
  have hvectors : ((c.beat .network (.desc d.key)).count rPERM_VECTORS 1).reg rPERM_VECTORS =
      (c.count rPERM_VECTORS 1).reg rPERM_VECTORS := by
    rw [Ctl.count_eq, Ctl.count_eq, Ctl.reg_setReg_self, Ctl.reg_setReg_self, Ctl.rf, Ctl.rf, Ctl.permVectors_of_tally hbeat]
  have hused : c.UsesPass (((((c.beat .network (.desc d.key)).count rPERM_VECTORS 1).charge (.desc d.key) 6
      (rowWords t.span / t.fold)).modNet fun x => { x with passesLeft := x.passesLeft - 1 }).fillSetting d.key d.prog) := by
    refine Ctl.UsesPass.tally ⟨?_, ?_⟩ (Ctl.tally_fillSetting _ _ _)
    · have hpasses : ((c.beat .network (.desc d.key)).count rPERM_VECTORS 1).net.passesLeft = c.net.passesLeft :=
        Ctl.passesLeft_of_tally (c' := c.beat .network (.desc d.key)) hbeat
      exact (congrArg (· - 1) ((Ctl.passesLeft_of_tally (hcharged _)).trans hpasses)).le
    · exact (Ctl.permVectors_of_tally (hcharged _)).trans hvectors
  unfold Ctl.permBegin
  dsimp only
  split
  · exact hused.tally (Ctl.tally_fillSetting _ _ _)
  · exact hused

theorem Ctl.UsesPass.permMove {c c' : Ctl} (h : c.UsesPass c') (d : Desc) (t : FragTable) : c.UsesPass (c'.permMove d t) := by
  have hwritten : c.UsesPass (if d.prog / d.vectors t + 1 < d.passes t then
      c'.stagePass d t (d.prog / d.vectors t) (d.prog % d.vectors t) else c'.lastPass d t (d.prog % d.vectors t)) := by
    split
    · exact h.tally (c'.tally_stagePass d t _ _)
    · exact h.tally (c'.tally_lastPass d t _)
  unfold Ctl.permMove
  dsimp only
  rw [apply_ite c.UsesPass]
  split
  · exact (hwritten.tally (Ctl.tally_modDesc _ _ _)).modNet (Nat.zero_le _)
  · exact hwritten.tally (Ctl.tally_modDesc _ _ _)

theorem Ctl.UsesPass.permEnd {c c' : Ctl} (h : c.UsesPass c') (d : Desc) (t : FragTable) (noise : List Codeword) :
    c.UsesPass (c'.permEnd d t noise) := by
  have hbump : ∀ n, c.UsesPass (c'.bump rXN_ERR 0 16 n) := fun n => h.tally (c'.tally_bump 0 16 n (by decide) (by decide))
  unfold Ctl.permEnd
  dsimp only
  split
  · exact (hbump _).modNet le_rfl
  · split
    · refine ((hbump _).modNet le_rfl).tally ((Ctl.tally_each (fun c j => ?_) _ _).trans (Ctl.tally_finish _ _ _ _))
      exact c.tally_netFault _
    · exact ((hbump _).modNet le_rfl).permMove d t

/-- An addressed pass begins: it is paced and used up, and the words move by a stage. -/
def Ctl.addrBegin (c : Ctl) : Ctl :=
  let who := match c.net.flits.find? (·.injected) with
    | some f => c.flitAccount f
    | none => .background
  let c := (c.beat .network who).countWaves
  c.modNet fun x => { x with flits := crossStages c.part x.flits, passesLeft := x.passesLeft - 1 }

/-- An addressed pass ends: what stalls is counted, and the vector is ejected or tried again. -/
def Ctl.addrEnd (c : Ctl) (noise : List Codeword) : Ctl :=
  let c := c.count rADDR_STALLS (c.net.flits.filter fun f => f.injected && f.pos.isNone).length
  let vec := ejecting c.part c.net.flits
  let c := c.each vec fun c f => c.charge (c.flitAccount f) 6 1
  let ds := ejected (vec.map (·.word)) noise
  let c := c.bump rXN_ERR 0 16 (correctedIn ds)
  if (vec.zip ds).any fun x => x.2 = .uncorrectable && !x.1.tried then
    c.modNet fun x => { x with flits := x.flits.map fun f => if vec.contains f then { f with tried := true } else f }
  else
    c.each (vec.zip ds) fun c x =>
      if c.net.flits.contains x.1 then
        (c.modNet fun y => { y with flits := y.flits.erase x.1 }).eject x.1 x.2
      else c

theorem Ctl.addrPass_eq (c : Ctl) (noise : List Codeword) : c.addrPass noise = c.addrBegin.addrEnd noise := by
  unfold Ctl.addrPass Ctl.addrBegin Ctl.addrEnd
  rfl

theorem Ctl.addrBegin_passesLeft (c : Ctl) : c.addrBegin.net.passesLeft = c.net.passesLeft - 1 :=
  congrArg (· - 1) (Ctl.passesLeft_of_tally ((Ctl.tally_countWaves _).trans (c.tally_beat _ _)))

theorem Ctl.addrEnd_tally (c : Ctl) (noise : List Codeword) : (c.addrEnd noise).tally = c.tally := by
  have hcharged : ∀ (c' : Ctl) (fs : List Flit) (n m : Nat),
      (((c'.count rADDR_STALLS n).each fs fun c f => c.charge (c.flitAccount f) 6 1).bump rXN_ERR 0 16 m).tally = c'.tally :=
    fun c' fs n m => (Ctl.tally_bump _ 0 16 m (by decide) (by decide)).trans
      ((Ctl.tally_each (fun c f => c.tally_charge _ _ _) _ _).trans (c'.tally_count n (by decide) (by decide)))
  unfold Ctl.addrEnd
  dsimp only
  split
  · exact (Ctl.tally_modNet _ _ rfl).trans (hcharged _ _ _ _)
  · refine (Ctl.tally_each (fun c x => ?_) _ _).trans (hcharged _ _ _ _)
    split
    · exact (Ctl.tally_eject _ _ _).trans (c.tally_modNet _ rfl)
    · rfl

/-- An addressed pass uses up a pass. -/
theorem Ctl.addrPass_passesLeft (c : Ctl) (noise : List Codeword) : (c.addrPass noise).net.passesLeft = c.net.passesLeft - 1 := by
  rw [Ctl.addrPass_eq, Ctl.passesLeft_of_tally (Ctl.addrEnd_tally _ _), Ctl.addrBegin_passesLeft]

theorem exec_pass {s : State} {noise : List Codeword} (ht : s.takes (.pass noise) = true) (hleft : s.ctl.net.passesLeft ≠ 0)
    (hbeat : s.ctl.mayBeat .network = true) :
    (∀ (d : Desc) (x : FragTable), s.ctl.net.mode = 1 → s.ctl.permHead = some d → d.dst = some x → s.ctl.passReady d = true →
      exec (.pass noise) s = .next { s with ctl := s.ctl.permPass d x noise }) ∧
    (s.ctl.net.mode ≠ 1 → (∃ f ∈ s.ctl.net.flits, f.injected = true) →
      exec (.pass noise) s = .next { s with ctl := s.ctl.addrPass noise }) := by
  have hgo : (s.ctl.net.passesLeft = 0 || !s.ctl.mayBeat .network) = false := by simp [hleft, hbeat]
  change (∀ (d : Desc) (x : FragTable), _ → _ → _ → _ → execPass noise s = _) ∧ (_ → _ → execPass noise s = _)
  refine ⟨fun d x hmode hhead hdst hready => ?_, fun hmode hany => ?_⟩ <;> rw [execPass, ctlStep_takes _ ht]
  · simp only [hgo, hmode, hhead, hdst, hready, Bool.false_eq_true, if_false, if_true]
  · simp only [hgo, hmode, List.any_eq_true.mpr hany, Bool.false_eq_true, if_false, if_true]

/-! ### The end of a wave (R223) -/

/-- Progress of an indexed kind marks its work as written, where it does anything. -/
theorem Ctl.indexProgress_cases (c : Ctl) (k : Key) :
    c.indexProgress k = c ∨ c.indexProgress k = c.modDesc k fun d => { d with stage := .written } := by
  unfold Ctl.indexProgress
  split
  · split
    · exact (ite_eq_or_eq _ _ _).symm
    · exact .inl rfl
  · exact .inl rfl

theorem Ctl.desc?_indexProgress {c : Ctl} {k : Key} {d : Desc} (h : c.desc? k = some d) :
    ∃ e, (c.indexProgress k).desc? k = some e ∧ e.prog = d.prog := by
  rcases c.indexProgress_cases k with hsame | hwritten
  · exact ⟨d, (congrArg (·.desc? k) hsame).trans h, rfl⟩
  · have hmoved := Ctl.desc?_modDesc_some h (f := fun d => { d with stage := .written }) fun _ => rfl
    exact ⟨{ d with stage := .written }, (congrArg (·.desc? k) hwritten).trans hmoved, rfl⟩

theorem Ctl.indexProgress_net (c : Ctl) (k : Key) : (c.indexProgress k).net = c.net := by
  rcases c.indexProgress_cases k with hsame | hwritten
  · rw [hsame]
  · rw [hwritten]
    rfl

/-- A closed wave's partials are gone, and the next wave is the oldest. -/
theorem Ctl.closeWave_spec {c : Ctl} {d : Desc} (hdesc : c.desc? d.key = some d) (t : FragTable) :
    (∃ e, (c.closeWave d t).desc? d.key = some e ∧ e.prog = d.prog + 1) ∧
      ∀ w ∈ (c.closeWave d t).net.waves, ¬ (w.key = d.key ∧ w.window / 64 = d.prog) := by
  refine ⟨?_, fun w hw => ?_⟩
  · rw [Ctl.closeWave]
    exact Ctl.desc?_indexProgress (c := Ctl.addJobs _ _) (d := { d with prog := d.prog + 1 })
      (Ctl.desc?_modDesc_some (c := c.modNet _) hdesc fun _ => rfl)
  · rw [Ctl.closeWave, Ctl.indexProgress_net] at hw
    simpa [imp_iff_not_or] using (List.mem_filter.mp hw).2

theorem exec_waveClose {s : State} {k i : Nat} {d : Desc} {x : FragTable} (ht : s.takes (.waveClose k i) = true)
    (hdesc : s.ctl.desc? { ring := k, idx := i, sub := 0 } = some d) (hdst : d.dst = some x) (hkind : d.kind ∈ [6, 7])
    (hstage : d.stage = .run) (hordered : d.ordered = true) (hclosed : s.ctl.waveClosed d d.prog = true)
    (holdest : s.ctl.oldestWave d = d.prog) :
    exec (.waveClose k i) s = .next { s with ctl := s.ctl.closeWave d x } := by
  change execWaveClose k i s = _
  rw [execWaveClose, ctlStep_takes _ ht]
  simp only [hdesc, hdst, hkind, hstage, hordered, hclosed, holdest, decide_true, Bool.and_true, if_true]

/-! ### The settled statement -/

/-- Settles O47: a round's winner is one of its tier and its grant is counted, a pass is used up and a permutation pass counted,
and the partials of a closed wave are gone. -/
theorem roundsPassesWaves : Obligations.RoundsPassesWaves := by
  unfold Obligations.RoundsPassesWaves
  refine ⟨fun s a ks noise reread ht hne hreq hmay hlt => round_spec ht hne hreq hmay hlt,
    fun s noise d x ht hleft hbeat hmode hhead hdst hready => ?_, fun s noise ht hleft hbeat hmode hany => ?_,
    fun s k i d x ht hdesc hdst hkind hstage hordered hclosed holdest => ?_⟩
  · have hexec := (exec_pass ht hleft hbeat).1 d x hmode hhead hdst hready
    rw [Ctl.permPass_eq] at hexec
    have hpass := (s.ctl.permBegin_usesPass d x).permEnd d x noise
    exact ⟨_, hexec, hpass.passesLeft_lt hleft, hpass.counted⟩
  · have hlt := Nat.sub_lt (Nat.pos_of_ne_zero hleft) Nat.one_pos
    rw [← s.ctl.addrPass_passesLeft noise] at hlt
    exact ⟨_, (exec_pass ht hleft hbeat).2 hmode hany, hlt⟩
  · have hkey : s.ctl.desc? d.key = some d := (Ctl.desc?_key hdesc).symm ▸ hdesc
    obtain ⟨⟨e, he, hprog⟩, hgone⟩ := Ctl.closeWave_spec hkey x
    exact ⟨_, e, exec_waveClose ht hdesc hdst hkind hstage hordered hclosed holdest, he, hprog, hgone⟩

end Sys2Proof.Machine

/-!
SUPPORT. Key prefetches, orphans and lanes (R263, R264, R268, R269, R271), the check of a route program (R197), and the settled
statement about them.
-/
namespace Sys2Proof.Machine

/-! ### A prefetch is dropped (R269) -/

/-- The slots of a prefetch are taken from it and it is counted as dropped. -/
theorem Ctl.abandon_counted {c c' : Ctl} {k : Key} {d : Desc} (hb : c.Beside c') (hdesc : c.desc? k = some d) {f : Desc → Desc}
    (hf : ∀ d, (f d).key = d.key) :
    ((((c'.withdraw k).abandonFresh k).modDesc k f).count rPF_DROPPED 1).desc? k = some (f { d with dst := none }) ∧
      c.counted ((((c'.withdraw k).abandonFresh k).modDesc k f).count rPF_DROPPED 1) rPF_DROPPED 1 := by
  have hwithdrawn := hb.trans (c'.withdraw_beside k)
  have hleads := (Ctl.abandonFresh_leads ((hwithdrawn.desc? k).trans hdesc)).modDesc hf
  have hapart : rPF_DROPPED ∉ doneRegs := by decide
  exact ⟨hleads.self, Ctl.counted_of_before ((hleads.regs _ hapart).trans (hwithdrawn.regs _ hapart)) rfl⟩

/-- Dropping a prefetch takes its slots from it, counts it, and leaves it where it stands. -/
theorem Ctl.dropPrefetch_spec {c : Ctl} {k : Key} {d : Desc} (hdesc : c.desc? k = some d) (hpf : d.prefetched = true) :
    (∃ e, (c.dropPrefetch k).desc? k = some e ∧ e.prefetched = false ∧ e.dst = none ∧ e.stage = d.stage) ∧
      c.counted (c.dropPrefetch k) rPF_DROPPED 1 := by
  have hkey : ∀ d : Desc, ({ d with
      prefetched := false, pfPages := [], done := [], buf := [], aux := [], bad := none, prog := 0 } : Desc).key = d.key := fun _ => rfl
  unfold Ctl.dropPrefetch
  simp only [hdesc, hpf, if_true]
  split
  next q _ =>
    obtain ⟨hself, hcount⟩ := Ctl.abandon_counted (.each c _ fun c n => c.dropOperand_beside q n) hdesc hkey
    exact ⟨⟨_, hself, rfl, rfl, rfl⟩, hcount⟩
  next =>
    obtain ⟨hself, hcount⟩ := Ctl.abandon_counted (.refl c) hdesc hkey
    exact ⟨⟨_, hself, rfl, rfl, rfl⟩, hcount⟩

theorem Ctl.desc?_dropPrefetch {c : Ctl} {k : Key} {d : Desc} (hdesc : c.desc? k = some d) :
    ∃ e, (c.dropPrefetch k).desc? k = some e ∧ e.stage = d.stage := by
  cases hpf : d.prefetched
  · refine ⟨d, ?_, rfl⟩
    simp only [Ctl.dropPrefetch, hdesc, hpf, Bool.false_eq_true, if_false]
  · obtain ⟨⟨e, he, -, -, hstage⟩, -⟩ := Ctl.dropPrefetch_spec hdesc hpf
    exact ⟨e, he, hstage⟩

theorem exec_prefetchDrop {s : State} {k i : Nat} {d : Desc} (ht : s.takes (.prefetchDrop k i) = true)
    (hdesc : s.ctl.desc? { ring := k, idx := i, sub := 0 } = some d) (hopen : d.prefetchOpen = true)
    (hdue : d.phase ≤ s.ctl.refTicks) : exec (.prefetchDrop k i) s = .next { s with ctl := s.ctl.dropPrefetch d.key } := by
  change execPrefetchDrop k i s = _
  rw [execPrefetchDrop, ctlStep_takes _ ht]
  simp only [hdesc, hopen, Ctl.due, hdue, decide_true, Bool.and_true, if_true, Ctl.desc?_key hdesc]

/-! ### A stream that nobody took (R271) -/

theorem exec_keyOrphan {s : State} {k i dl : Nat} {d : Desc} (ht : s.takes (.keyOrphan k i) = true)
    (hdesc : s.ctl.desc? { ring := k, idx := i, sub := 0 } = some d) (hstream : d.isStream = true) (hstage : d.stage = .run)
    (hfree : d.partner = none) (hdeadline : d.deadline = some dl) (hdue : dl ≤ s.ctl.refTicks) :
    exec (.keyOrphan k i) s = .next { s with ctl := s.ctl.orphanKey d.key } := by
  change execKeyOrphan k i s = _
  rw [execKeyOrphan, ctlStep_takes _ ht]
  simp only [hdesc, hstream, hstage, hfree, hdeadline, Ctl.due, hdue, Option.isNone_none, decide_true, Bool.and_true, if_true,
    Ctl.desc?_key hdesc]

theorem Ctl.orphanKey_endsWith {c : Ctl} {d : Desc} (hdesc : c.desc? d.key = some d) (hstage : d.stage = .run) :
    (c.orphanKey d.key).endsWith d.key 0x40 9 := by
  obtain ⟨e, he, hkept⟩ := Ctl.desc?_dropPrefetch hdesc
  exact (Ctl.finish_settled he (by simp [Desc.completed, hkept, hstage]) (by simp [hkept, hstage]) _ _).endsWith rfl

/-! ### A lane permutes (R26, R264) -/

/-- One permutation of a lane. -/
def Ctl.permuteOnce (c : Ctl) (n : Nat) (k : Key) : Ctl :=
  (((c.beat (.lane n) (.desc k)).modPort n fun p => { p with laneBeats := p.laneBeats + 1 }).count rKEY_PERMS 1).charge
    (.desc k) 8 1

theorem Ctl.permute_succ (c : Ctl) (n : Nat) (k : Key) (m : Nat) :
    c.permute n k (m + 1) = if c.mayBeat (.lane n) then (c.permuteOnce n k).permute n k m else c := rfl

/-- What holds at first, and after each permutation, holds after all that run. -/
theorem Ctl.permute_induction {P : Ctl → Prop} {n : Nat} {k : Key} (hstep : ∀ c, P c → P (c.permuteOnce n k)) (m : Nat) (c : Ctl)
    (h : P c) : P (c.permute n k m) := by
  induction m generalizing c with
  | zero => exact h
  | succ m ih =>
    rw [Ctl.permute_succ]
    split
    · exact ih _ (hstep c h)
    · exact h

theorem Ctl.permuteOnce_laneBeats (c : Ctl) (n : Nat) (k : Key) :
    ((c.permuteOnce n k).port n).laneBeats = (c.port n).laneBeats + 1 := by
  have hbeat : (c.beat (.lane n) (.desc k)).port n = c.port n := Ctl.port_congr (c.beat_slices _ _) n
  rw [Ctl.permuteOnce, Ctl.port_congr (Ctl.charge_slices _ _ _ _), ← hbeat]
  exact congrArg Port.laneBeats
    (Ctl.modPort_self (c.beat (.lane n) (.desc k)) n fun p => { p with laneBeats := p.laneBeats + 1 })

theorem Ctl.works_permute (c : Ctl) (n : Nat) (k : Key) (m : Nat) : c.Works (c.permute n k m) :=
  Ctl.permute_induction (P := c.Works) (fun c' h => h.trans ((((c'.works_beat _ _).trans (Ctl.works_modPort _ n _)).trans
    (Ctl.works_count _ _ _)).trans (Ctl.works_charge _ _ _ _))) m c (.refl c)

theorem Ctl.tally_permute (c : Ctl) (n : Nat) (k : Key) (m : Nat) : (c.permute n k m).tally = c.tally :=
  Ctl.permute_induction (P := fun c' => c'.tally = c.tally) (fun c' h => by
    rw [Ctl.permuteOnce, Ctl.tally_charge, Ctl.tally_count _ 1 (by decide) (by decide), Ctl.tally_modPort, Ctl.tally_beat,
      h]) m c rfl

theorem Ctl.laneBeats_le_permute (c : Ctl) (n : Nat) (k : Key) (m : Nat) :
    (c.port n).laneBeats ≤ ((c.permute n k m).port n).laneBeats :=
  Ctl.permute_induction (P := fun c' => (c.port n).laneBeats ≤ (c'.port n).laneBeats)
    (fun c' h => by rw [Ctl.permuteOnce_laneBeats]; exact h.trans (Nat.le_succ _)) m c le_rfl

/-- What may begin a beat begins one. -/
theorem Ctl.laneBeats_permute_first {c : Ctl} {n : Nat} (hbeat : c.mayBeat (.lane n) = true) (k : Key) {m : Nat} (hm : m ≠ 0) :
    (c.port n).laneBeats + 1 ≤ ((c.permute n k m).port n).laneBeats := by
  obtain ⟨m, rfl⟩ := Nat.exists_eq_succ_of_ne_zero hm
  rw [Ctl.permute_succ, if_pos hbeat]
  have hmono := (c.permuteOnce n k).laneBeats_le_permute n k m
  rwa [Ctl.permuteOnce_laneBeats] at hmono

/-- What the pacer looks at, beside tokens and beats of the gate's frame. -/
def Power.flow (p : Power) : Bool × Bool × Option Nat × Nat × Nat := (p.quiet, p.stopped, p.vwait, p.pace, p.gate)

/-- Paced beats flow freely: the block is awake, unpaced, at the gate's full level, and issues. -/
structure Ctl.Unpaced (c : Ctl) : Prop where
  quiet : c.power.quiet = false
  issuing : c.issuing = true
  vwait : c.power.vwait = none
  pace : c.power.pace = 2047
  gate : c.power.gate = 16

theorem Ctl.Unpaced.mayBeat {c : Ctl} (h : c.Unpaced) (st : Stream) : c.mayBeat st = true := by
  simp [Ctl.mayBeat, Ctl.beatOpen, Power.gateOpen, h.issuing, h.vwait, h.pace, h.gate]

theorem Ctl.Unpaced.congr {c c' : Ctl} (h : c.Unpaced) (hflow : c'.power.flow = c.power.flow)
    (hreg : c'.reg rPSTATE_STATUS = c.reg rPSTATE_STATUS) : c'.Unpaced := by
  simp only [Power.flow, Prod.mk.injEq] at hflow
  obtain ⟨hquiet, hstopped, hvwait, hpace, hgate⟩ := hflow
  refine ⟨hquiet.trans h.quiet, ?_, hvwait.trans h.vwait, hpace.trans h.pace, hgate.trans h.gate⟩
  rw [Ctl.issuing, hstopped, Ctl.pstate, Ctl.rf, hreg]
  exact h.issuing

theorem Ctl.startDawn_of_awake {c : Ctl} (h : c.power.quiet = false) : c.startDawn = c := if_neg (by simp [h])

theorem Ctl.charge_flow (c : Ctl) (who : Account) (k n : Nat) : (c.charge who k n).power.flow = c.power.flow := by
  unfold Ctl.charge Ctl.addAccount
  dsimp only
  split
  · rfl
  · split <;> rfl

theorem Ctl.Unpaced.beat {c : Ctl} (h : c.Unpaced) (st : Stream) (who : Account) : (c.beat st who).Unpaced := by
  have hpace : c.raiseJobs.power.pace = 2047 := h.pace
  refine h.congr ?_ ?_
  · unfold Ctl.beat
    dsimp only
    rw [Ctl.startDawn_of_awake h.quiet, if_pos hpace]
    rfl
  · unfold Ctl.beat
    dsimp only
    rw [Ctl.startDawn_of_awake h.quiet, if_pos hpace]
    rfl

theorem Ctl.Unpaced.permuteOnce {c : Ctl} (h : c.Unpaced) (n : Nat) (k : Key) : (c.permuteOnce n k).Unpaced := by
  refine (h.beat (.lane n) (.desc k)).congr (Ctl.charge_flow _ _ _ _) ?_
  rw [Ctl.permuteOnce, Ctl.charge_reg]
  exact Ctl.reg_setReg_ne _ _ (by decide)

/-- Where beats flow freely every permutation of the fragment runs. -/
theorem Ctl.Unpaced.laneBeats_permute {c : Ctl} (h : c.Unpaced) (n : Nat) (k : Key) (m : Nat) :
    ((c.permute n k m).port n).laneBeats = (c.port n).laneBeats + m := by
  induction m generalizing c with
  | zero => rfl
  | succ m ih =>
    rw [Ctl.permute_succ, if_pos (h.mayBeat _), ih (h.permuteOnce n k), Ctl.permuteOnce_laneBeats, Nat.add_assoc, Nat.add_comm 1]

/-! ### Key buffers of ports that pump (R265) -/

/-- From `c` to `c'` work was done that puts nothing into key buffers and takes nothing from them, where only rows need
translations. -/
structure Ctl.KeepsKeys (c c' : Ctl) : Prop where
  works : c.Works c'
  keyBuf : c.RowNeeds → ∀ n, (c'.port n).keyBuf = (c.port n).keyBuf

theorem Ctl.KeepsKeys.refl (c : Ctl) : c.KeepsKeys c := ⟨.refl c, fun _ _ => rfl⟩

theorem Ctl.KeepsKeys.trans {c c' c'' : Ctl} (h : c.KeepsKeys c') (h' : c'.KeepsKeys c'') : c.KeepsKeys c'' :=
  ⟨h.works.trans h'.works, fun hneeds n => (h'.keyBuf (h.works hneeds).2 n).trans (h.keyBuf hneeds n)⟩

theorem Ctl.KeepsKeys.cond {p : Prop} [Decidable p] {c c' c'' : Ctl} (h : c.KeepsKeys c') (h' : c.KeepsKeys c'') :
    c.KeepsKeys (if p then c' else c'') := by
  split
  · exact h
  · exact h'

theorem Ctl.KeepsKeys.each {α : Type} (c : Ctl) (l : List α) {f : Ctl → α → Ctl} (hf : ∀ (c : Ctl) (a : α), c.KeepsKeys (f c a)) :
    c.KeepsKeys (c.each l f) :=
  Ctl.each_induction (P := c.KeepsKeys) (fun e a h => h.trans (hf e a)) l (.refl c)

theorem Ctl.Works.keepsKeys {c c' : Ctl} (h : c.Works c') (hs : c'.slices = c.slices) : c.KeepsKeys c' :=
  ⟨h, fun _ n => by rw [Ctl.port_congr hs]⟩

theorem Ctl.keepsKeys_modPort (c : Ctl) (n : Nat) {f : Port → Port} (hf : ∀ p, (f p).keyBuf = p.keyBuf) :
    c.KeepsKeys (c.modPort n f) := by
  refine ⟨c.works_modPort n f, fun _ j => ?_⟩
  rw [Ctl.modPort_port]
  split
  next h => exact h ▸ hf _
  next => rfl

theorem Ctl.keepsKeys_startDawn (c : Ctl) : c.KeepsKeys c.startDawn := c.works_startDawn.keepsKeys c.paces_startDawn.slices

theorem Ctl.keepsKeys_request (c : Ctl) {bs : List Burst} (hbs : ∀ b ∈ bs, b.purpose.key?.isSome = true ∧ b.prefetch = false) :
    c.KeepsKeys (c.request bs) :=
  ⟨c.works_request hbs, fun hneeds n => by rw [Ctl.port_congr (hneeds.request_slices hbs)]⟩

theorem Ctl.keepsKeys_needKey (c : Ctl) (n : Nat) (a : Assign) : c.KeepsKeys (c.needKey n a) := by
  unfold Ctl.needKey
  split
  · exact .refl c
  · refine .cond (.refl c) (.cond ?_ ?_)
    · exact (c.keepsKeys_modPort n (by intro _; rfl)).trans (Ctl.keepsKeys_startDawn _)
    · refine c.keepsKeys_request fun b hb => ?_
      obtain ⟨i, -, rfl⟩ := List.mem_map.mp hb
      exact ⟨rfl, rfl⟩

theorem Ctl.keepsKeys_latchHit (c : Ctl) (n s : Nat) (k : Key) (l : Latch) : c.KeepsKeys (c.latchHit n s k l) := by
  have hput : ∀ (c : Ctl) (ws : List Codeword), c.KeepsKeys (c.putOperand n s ws) := fun c ws =>
    c.keepsKeys_modPort n (by intro _; rfl)
  have hlatch : ∀ ls : Port → List Latch, c.KeepsKeys (c.modPort n fun p => { p with latches := ls p }) := fun ls =>
    c.keepsKeys_modPort n (by intro _; rfl)
  exact (((hlatch _).trans ((Ctl.works_count _ _ 1).keepsKeys rfl)).trans
    ((Ctl.works_charge _ _ _ _).keepsKeys (Ctl.charge_slices _ _ _ _))).trans (hput _ _)

theorem Ctl.keepsKeys_fetchStream (c : Ctl) (n s : Nat) : c.KeepsKeys (c.fetchStream n s) := by
  unfold Ctl.fetchStream
  split
  · exact .refl c
  · split
    · exact .refl c
    · split
      · exact .refl c
      · split
        · exact c.keepsKeys_latchHit _ _ _ _
        · split
          · exact .refl c
          · exact ((c.works_count _ 1).trans (Ctl.works_addJobs _ _)).keepsKeys rfl

theorem Ctl.keepsKeys_raiseReq (c : Ctl) (n : Nat) : c.KeepsKeys (c.raiseReq n) := by
  have hraised : ∀ (c : Ctl) (who : Account) (r : Port → Option Nat) (o : Out),
      c.KeepsKeys (((c.beat (.operand n) who).modPort n fun p => { p with opReq := r p }).emit o) := fun c who r o =>
    (((c.works_beat (.operand n) who).keepsKeys (c.beat_slices (.operand n) who)).trans
      (Ctl.keepsKeys_modPort _ n (by intro _; rfl))).trans ((Ctl.works_emit _ o).keepsKeys rfl)
  unfold Ctl.raiseReq
  split
  · exact .refl c
  · dsimp only
    split
    · exact .refl c
    · split
      · exact c.keepsKeys_startDawn.trans (.cond (.refl _) (hraised _ _ _ _))
      · exact .refl c

theorem Ctl.keepsKeys_pumpPort (c : Ctl) (n : Nat) : c.KeepsKeys (c.pumpPort n) := by
  have hfeed : c.KeepsKeys (c.feedKeys n) := .each c _ fun c a => .cond (.refl c) (c.keepsKeys_needKey n a)
  unfold Ctl.pumpPort
  refine .cond (.refl c) ?_
  exact (((hfeed.trans (Ctl.keepsKeys_fetchStream _ n 0)).trans (Ctl.keepsKeys_fetchStream _ n 1)).trans
    (Ctl.keepsKeys_fetchStream _ n 2)).trans (Ctl.keepsKeys_raiseReq _ n)

/-! ### A fragment of a lane is delivered (R263, R265) -/

/-- The lane has permuted as far as tokens allow. -/
def Ctl.lanePermuted (c : Ctl) (n : Nat) (d : Desc) (a : Assign) : Ctl :=
  c.startDawn.permute n d.key ((d.expand a).2 - (c.port n).laneBeats)

/-- The fragment's words are counted and the lane goes on to its next fragment. -/
def Ctl.laneDone (c : Ctl) (n : Nat) (rest : List Assign) : Ctl :=
  (c.count rKEY_WORDS 128).modPort n fun p => { p with lane := rest, laneBeats := 0 }

theorem Ctl.laneDone_lane (c : Ctl) (n : Nat) (rest : List Assign) : ((c.laneDone n rest).port n).lane = rest :=
  congrArg Port.lane (Ctl.modPort_self (c.count rKEY_WORDS 128) n fun p => { p with lane := rest, laneBeats := 0 })

theorem Ctl.works_laneDone (c : Ctl) (n : Nat) (rest : List Assign) : c.Works (c.laneDone n rest) :=
  (c.works_count _ 128).trans (Ctl.works_modPort _ n _)

theorem Ctl.generate_eq {c : Ctl} {n : Nat} {a : Assign} {as : List Assign} {d : Desc} (hlane : (c.port n).lane = a :: as)
    (hdesc : c.desc? a.key = some d) :
    c.generate n = if ((c.lanePermuted n d a).port n).laneBeats < (d.expand a).2 then c.lanePermuted n d a
      else ((c.lanePermuted n d a).laneDone n as).deliver n d a (d.expand a).1 := by
  unfold Ctl.generate
  rw [hlane]
  dsimp only
  rw [hdesc]
  rfl

theorem Ctl.lanePermuted_of_awake {c : Ctl} (h : c.power.quiet = false) (n : Nat) (d : Desc) (a : Assign) :
    c.lanePermuted n d a = c.permute n d.key ((d.expand a).2 - (c.port n).laneBeats) := by
  rw [Ctl.lanePermuted, Ctl.startDawn_of_awake h]

/-- Every permutation of the fragment has run, where beats flow freely or one permutation is left. -/
theorem Ctl.lanePermuted_complete {c : Ctl} {n : Nat} {a : Assign} {d : Desc} (hbeat : c.mayBeat (.lane n) = true)
    (hquiet : c.power.quiet = false)
    (hfree : (c.power.pace = 2047 ∧ c.power.gate = 16) ∨ (d.expand a).2 ≤ (c.port n).laneBeats + 1) :
    (d.expand a).2 ≤ ((c.lanePermuted n d a).port n).laneBeats := by
  rw [Ctl.lanePermuted_of_awake hquiet]
  generalize (d.expand a).2 = r at hfree ⊢
  rcases hfree with ⟨hpace, hgate⟩ | hlast
  · simp only [Ctl.mayBeat, Ctl.beatOpen, Bool.and_eq_true, Option.isNone_iff_eq_none] at hbeat
    obtain ⟨hissuing, ⟨-, hvwait⟩, -⟩ := hbeat
    have hflows : c.Unpaced := ⟨hquiet, hissuing, hvwait, hpace, hgate⟩
    rw [hflows.laneBeats_permute]
    omega
  · by_cases hdone : r - (c.port n).laneBeats = 0
    · exact (Nat.sub_eq_zero_iff_le.mp hdone).trans (c.laneBeats_le_permute n d.key _)
    · exact hlast.trans (Ctl.laneBeats_permute_first hbeat d.key hdone)

theorem exec_keyFragmentGenerated {s : State} {n : Nat} {a : Assign} {as : List Assign} {d : Desc}
    (ht : s.takes (.keyFragmentGenerated n) = true) (hlane : (s.ctl.port n).lane = a :: as) (hdesc : s.ctl.desc? a.key = some d)
    (hdone : (d.expand a).2 ≤ ((s.ctl.lanePermuted n d a).port n).laneBeats) :
    exec (.keyFragmentGenerated n) s = .next { s with
      ctl := ((s.ctl.lanePermuted n d a).laneDone n as).deliver n d a (d.expand a).1 } := by
  change execKeyFragmentGenerated n s = _
  rw [execKeyFragmentGenerated, ctlStep_takes _ ht, Ctl.generate_eq hlane hdesc, if_neg hdone.not_gt]

theorem Ctl.keyWords_of_tally {c c' : Ctl} (h : c'.tally = c.tally) : c'.reg rKEY_WORDS = c.reg rKEY_WORDS :=
  congrArg (fun x => x.2.2.2) h

/-- A delivered fragment's words are counted once. -/
theorem Ctl.deliver_counted (c : Ctl) (n : Nat) (d : Desc) (a b : Assign) (as : List Assign) (ws : List Word) :
    c.counted (((c.lanePermuted n d a).laneDone n as).deliver n d b ws) rKEY_WORDS 128 := by
  have hbefore : (c.lanePermuted n d a).tally = c.tally := (Ctl.tally_permute _ _ _ _).trans c.tally_startDawn
  exact Ctl.counted_of_before (Ctl.keyWords_of_tally hbefore) (Ctl.keyWords_of_tally (Ctl.tally_deliver _ n d b ws))

theorem Ctl.works_lanePermuted (c : Ctl) (n : Nat) (d : Desc) (a : Assign) : c.Works (c.lanePermuted n d a) :=
  c.works_startDawn.trans (Ctl.works_permute _ _ _ _)

/-- A fragment of a stream without a tile goes into the key buffer of its port. -/
theorem Ctl.deliver_keyBuf {c : Ctl} (hneeds : c.RowNeeds) {d : Desc} (hdst : d.dst = none) (n : Nat) (a : Assign)
    (ws : List Word) : ∃ f ∈ ((c.deliver n d a ws).port n).keyBuf, f.key = d.key ∧ f.row = a.row ∧ f.block = a.block ∧
      f.words = ws.map encodeCw := by
  have hport : ∀ f : Port → Port, (((c.modPort n f).pumpPort n).port n).keyBuf = (f (c.port n)).keyBuf := fun f => by
    rw [(Ctl.keepsKeys_pumpPort (c.modPort n f) n).keyBuf hneeds, Ctl.modPort_self]
  unfold Ctl.deliver
  rw [hdst]
  dsimp only
  rw [hport]
  exact ⟨_, List.mem_append_right _ List.mem_cons_self, rfl, rfl, rfl, rfl⟩

/-- A fragment of a tile is put into its slot. -/
theorem Ctl.deliver_jobs (c : Ctl) (n : Nat) {d : Desc} {x : FragTable} (hdst : d.dst = some x) (a : Assign) (ws : List Word) :
    (c.deliver n d a ws).port n = c.port n ∧ ∃ j ∈ (c.deliver n d a ws).jobs,
      j.purpose = .put (.dest d.key (a.row * x.span + a.block)) ∧ j.words = ws.map encodeCw := by
  rw [Ctl.deliver, hdst]
  exact ⟨rfl, _, List.mem_append_right _ List.mem_cons_self, rfl, rfl⟩

/-! ### A route program is checked (R197) -/

theorem length_eraseDups_le (l : List Nat) : l.eraseDups.length ≤ l.length := by
  induction hn : l.length using Nat.strong_induction_on generalizing l with
  | _ n ih =>
    cases l with
    | nil => simp
    | cons x xs =>
      have hle := List.length_filter_le (fun b => !b == x) xs
      simp only [List.length_cons] at hn
      rw [List.eraseDups_cons, List.length_cons]
      have hrec := ih _ (by omega) (xs.filter fun b => !b == x) rfl
      omega

/-- A list is shorter without its repetitions where it has some. -/
theorem length_eraseDups_lt_iff (l : List Nat) : l.eraseDups.length < l.length ↔ ¬ l.Nodup := by
  induction l with
  | nil => simp
  | cons x xs ih =>
    rw [List.eraseDups_cons, List.nodup_cons, List.length_cons, List.length_cons, Nat.add_lt_add_iff_right]
    by_cases hx : x ∈ xs
    · have hfewer : (xs.filter fun b => !b == x).length < xs.length := by
        refine List.length_filter_lt_length_iff_exists.mpr ⟨x, hx, by simp⟩
      exact iff_of_true ((length_eraseDups_le _).trans_lt hfewer) fun h => h.1 hx
    · have hall : (xs.filter fun b => !b == x) = xs := List.filter_eq_self.mpr fun b hb => by
        simpa using fun h : b = x => hx (h ▸ hb)
      rw [hall, ih]
      simp [hx]

theorem exec_routeProgramFetch {s : State} {k : Key} {d : Desc} {prog : List Word} (ht : s.takes .routeProgramFetch = true)
    (howner : s.ctl.net.mapOwner = some k) (hdesc : s.ctl.desc? k = some d) (hwants : d.wantsMap = true)
    (hprog : ((List.range d.segment).mapM fun i => (d.buf.find? (·.1 = i)).map (·.2)) = some prog) :
    exec .routeProgramFetch s = .next { s with ctl := s.ctl.programFetched d prog } := by
  change execRouteProgramFetch s = _
  rw [execRouteProgramFetch, ctlStep_takes _ ht]
  simp only [howner, hdesc, hwants, hprog, Option.bind_some, if_true]

theorem Desc.stage_of_wantsMap {d : Desc} (h : d.wantsMap = true) : d.stage = .run := by
  simp only [Desc.wantsMap, Bool.and_eq_true, decide_eq_true_eq] at h
  exact h.1.2

/-- The map's checksum comes first, then that it is a bijection; a program that passes becomes the map, and the passes begin. -/
theorem Ctl.programFetched_spec {c : Ctl} {d : Desc} (hdesc : c.desc? d.key = some d) (hwants : d.wantsMap = true)
    (prog : List Word) :
    ∃ crc want, crc = (crc64 (prog.flatMap wordBytes)).toNat ∧
      want = (Tab.get 0 d.aux 3).toNat + 2 ^ 32 * (Tab.get 0 d.aux 4).toNat ∧
      (crc ≠ want → (c.programFetched d prog).concludes d.key 0x61 0x20) ∧
      (crc = want → ¬ (prog.map fun w => fld w 0 16).Nodup → (c.programFetched d prog).concludes d.key 0x60 8) ∧
      (crc = want → (prog.map fun w => fld w 0 16).Nodup →
        (c.programFetched d prog).net.mapWords = prog ∧ ∃ e, (c.programFetched d prog).desc? d.key = some e ∧ e.phase = 1) := by
  have hstage := Desc.stage_of_wantsMap hwants
  have hends : ∀ st de, (c.finish d.key st de).concludes d.key st de := fun st de =>
    (Ctl.finish_settled hdesc (by simp [Desc.completed, hstage]) (by simp [hstage]) st de).concludes
  have hrepeats : ((prog.map fun w => fld w 0 16).eraseDups).length < prog.length ↔ ¬ (prog.map fun w => fld w 0 16).Nodup := by
    rw [← length_eraseDups_lt_iff, List.length_map]
  unfold Ctl.programFetched
  dsimp only
  refine ⟨_, _, rfl, rfl, fun hcrc => ?_, fun hcrc hnot => ?_, fun hcrc hbij => ?_⟩
  · rw [if_pos hcrc]
    exact hends _ _
  · rw [if_neg (not_not.mpr hcrc), if_pos (hrepeats.mpr hnot)]
    exact hends _ _
  · rw [if_neg (not_not.mpr hcrc), if_neg fun h => hrepeats.mp h hbij]
    have hput := Ctl.desc?_modDesc_some (c := c.modNet fun x => { x with mapWords := prog }) hdesc
      (f := fun d => { d with buf := [] }) fun _ => rfl
    rw [Ctl.startPasses, hput]
    exact ⟨rfl, _, Ctl.desc?_modDesc_some hput fun _ => rfl, rfl⟩

/-! ### The settled statement -/

/-- Settles O46: a prefetch is dropped at the end of its window, a stream that nobody took ends with KEY_ORPHAN, a lane delivers
the words of its fragment, and a program becomes the map where its checksum and bijectivity hold. -/
theorem keysAndPrograms : Obligations.KeysAndPrograms := by
  unfold Obligations.KeysAndPrograms
  refine ⟨fun s k i d ht hdesc hopen hdue => ?_, fun s k i dl d ht hdesc hstream hstage hfree hdeadline hdue => ?_,
    fun s n a as d ht hlane hdesc hbeat hquiet hfree hcalm => ?_, fun s k d prog ht howner hdesc hwants hprog => ?_⟩
  · have hkey : s.ctl.desc? d.key = some d := (Ctl.desc?_key hdesc).symm ▸ hdesc
    have hpf : d.prefetched = true := by
      simp only [Desc.prefetchOpen, Bool.and_eq_true] at hopen
      exact hopen.1.1
    obtain ⟨⟨e, he, hdropped, hdst, hstage⟩, hcount⟩ := Ctl.dropPrefetch_spec hkey hpf
    exact ⟨_, e, exec_prefetchDrop ht hdesc hopen hdue, he, hdropped, hdst, hstage, hcount⟩
  · have hkey : s.ctl.desc? d.key = some d := (Ctl.desc?_key hdesc).symm ▸ hdesc
    exact ⟨_, exec_keyOrphan ht hdesc hstream hstage hfree hdeadline hdue, Ctl.orphanKey_endsWith hkey hstage⟩
  · have hneeds : s.ctl.RowNeeds := Ctl.rowNeeds_of_calm (hcalm d (List.mem_of_find?_eq_some hdesc))
    have hdone := Ctl.lanePermuted_complete (a := a) (d := d) hbeat hquiet hfree
    refine ⟨_, exec_keyFragmentGenerated ht hlane hdesc hdone, s.ctl.deliver_counted n d a a as _, fun hdst => ?_,
      fun x hdst => ?_⟩
    · have hneeds' := ((s.ctl.works_lanePermuted n d a).trans (Ctl.works_laneDone _ n as) hneeds).2
      exact Ctl.deliver_keyBuf hneeds' hdst n a _
    · obtain ⟨hport, hjob⟩ := Ctl.deliver_jobs ((s.ctl.lanePermuted n d a).laneDone n as) n hdst a (d.expand a).1
      exact ⟨(congrArg Port.lane hport).trans (Ctl.laneDone_lane _ n as), hjob⟩
  · have hkey := Ctl.desc?_key hdesc
    obtain ⟨crc, want, hcrc, hwant, hspec⟩ := Ctl.programFetched_spec (hkey.symm ▸ hdesc) hwants prog
    rw [hkey] at hspec
    exact ⟨_, crc, want, exec_routeProgramFetch ht howner hdesc hwants hprog, hcrc, hwant, hspec⟩

end Sys2Proof.Machine

/-!
SUPPORT. What work that ends leaves of the memory path (R143, R243, R244): bursts are dropped or renamed, none comes to need a
translation or to wait for one, and every issued burst keeps its channel and tag.
-/
namespace Sys2Proof.Machine

/-! ### Bursts that go -/

/-- The counters of failed walks and bursts (R238, R243). -/
def failCounters : List Nat := [rWALK_FAULTS, rWALK_TIMEOUTS, rREMOTE_FAILS, rDATA_ERRS]

/-- They, and the register of BUSY (R244). -/
def pathRegs : List Nat := rATC_INVAL :: failCounters

/-- Channel and tag of a burst, where it is issued (R418). -/
def Burst.out? (b : Burst) : Option (Nat × Nat) := if b.state = .issued then some (b.ch, b.tag) else none

/-- Channel and tag of every issued burst. -/
def Ctl.tags (c : Ctl) : List (Nat × Nat) := c.mem.bursts.filterMap (·.out?)

/-- BUSY is 1 while a burst that used a removed translation is unanswered (R244). -/
def Ctl.BusyHolds (c : Ctl) : Prop := bit (c.reg rATC_INVAL) 31 = false → ∀ b ∈ c.mem.bursts, b.waitInval = false

/-- From `c` to `c'` no burst came to need a translation or to wait on a walk, no tag changed hands, and no failure was counted. -/
structure Ctl.Frees (c c' : Ctl) : Prop where
  walks : c'.mem.walks = c.mem.walks
  shared : c'.mem.shared = c.mem.shared
  tags : c'.tags = c.tags
  waits : ∀ b ∈ c'.mem.bursts, b.state ∈ [BState.need, .walking] → b ∈ c.mem.bursts
  counts : ∀ o ∈ failCounters, c'.reg o = c.reg o

/-- Nor did a translation come or go, and BUSY still holds for what it is waiting for. -/
structure Ctl.Drops (c c' : Ctl) : Prop extends c.Frees c' where
  micro : c'.mem.micro = c.mem.micro
  busy : c.BusyHolds → c'.BusyHolds

theorem Ctl.Frees.refl (c : Ctl) : c.Frees c := ⟨rfl, rfl, rfl, fun _ h _ => h, fun _ _ => rfl⟩

theorem Ctl.Frees.trans {c c' c'' : Ctl} (h : c.Frees c') (h' : c'.Frees c'') : c.Frees c'' :=
  ⟨h'.walks.trans h.walks, h'.shared.trans h.shared, h'.tags.trans h.tags, fun b hb hs => h.waits b (h'.waits b hb hs) hs,
    fun o ho => (h'.counts o ho).trans (h.counts o ho)⟩

theorem Ctl.Drops.refl (c : Ctl) : c.Drops c := ⟨.refl c, rfl, id⟩

theorem Ctl.Drops.trans {c c' c'' : Ctl} (h : c.Drops c') (h' : c'.Drops c'') : c.Drops c'' :=
  ⟨h.toFrees.trans h'.toFrees, h'.micro.trans h.micro, fun hb => h'.busy (h.busy hb)⟩

theorem Ctl.Drops.each {α : Type} (c : Ctl) (l : List α) {f : Ctl → α → Ctl} (hf : ∀ (c : Ctl) (a : α), c.Drops (f c a)) :
    c.Drops (c.each l f) :=
  Ctl.each_induction (P := c.Drops) (fun e a h => h.trans (hf e a)) l (.refl c)

theorem Ctl.Drops.ite {p : Prop} [Decidable p] {c c' : Ctl} (h : c.Drops c') : c.Drops (if p then c' else c) := by
  split
  · exact h
  · exact .refl c

/-- The translations cached stay. -/
theorem Ctl.Drops.xlates {c c' : Ctl} (h : c.Drops c') : c'.xlates = c.xlates := by
  rw [Ctl.xlates, h.shared, h.micro, Ctl.xlates]

/-- What touches neither the memory path nor its registers. -/
theorem Ctl.Drops.of_mem {c c' : Ctl} (hm : c'.mem = c.mem) (hr : ∀ o ∈ pathRegs, c'.reg o = c.reg o) : c.Drops c' := by
  refine ⟨⟨by rw [hm], by rw [hm], by rw [Ctl.tags, hm, Ctl.tags], fun b hb _ => hm ▸ hb,
    fun o ho => hr o (List.mem_cons_of_mem _ ho)⟩, by rw [hm], fun hbusy hbit => ?_⟩
  rw [hm]
  exact hbusy (hr rATC_INVAL List.mem_cons_self ▸ hbit)

/-- What touches neither the memory path nor any register. -/
theorem Ctl.Drops.of_same {c c' : Ctl} (hm : c'.mem = c.mem) (hp : c'.part = c.part) (hr : c'.regs = c.regs) : c.Drops c' :=
  .of_mem hm fun o _ => Ctl.reg_congr hp hr o

theorem Ctl.drops_setReg (c : Ctl) {off : Nat} (v : Word) (h : off ∉ pathRegs) : c.Drops (c.setReg off v) :=
  .of_mem rfl fun _ ho => Ctl.reg_setReg_ne c v fun he => h (he ▸ ho)

/-- The registers of rings lie beside those of the memory path. -/
theorem ringReg_notMem_pathRegs (base k : Nat) (h : [0x10, 0x50, 0x54, 0x58, 0x5C].contains (base % 0x100) = false) :
    base + 0x100 * k ∉ pathRegs := by
  have hplace : ∀ o ∈ pathRegs, [0x10, 0x50, 0x54, 0x58, 0x5C].contains (o % 0x100) = true := by decide
  intro hmem
  have hin := hplace _ hmem
  rw [Nat.add_mul_mod_self_left] at hin
  exact absurd hin (by rw [h]; decide)

theorem Ctl.drops_ringReg (c : Ctl) {base : Nat} (k : Nat) (v : Word)
    (h : [0x10, 0x50, 0x54, 0x58, 0x5C].contains (base % 0x100) = false) : c.Drops (c.setReg (base + 0x100 * k) v) :=
  c.drops_setReg v (ringReg_notMem_pathRegs base k h)

theorem Ctl.Paces.drops {c c' : Ctl} (h : c.Paces c') : c.Drops c' :=
  .of_mem (by rw [h.frame]) fun o ho => h.keeps o fun he => by
    rw [List.mem_singleton.mp he] at ho
    exact absurd ho (by decide)

theorem Ctl.drops_modDesc (c : Ctl) (k : Key) (f : Desc → Desc) : c.Drops (c.modDesc k f) := .of_same rfl rfl rfl

theorem Ctl.drops_modRing (c : Ctl) (k : Nat) (f : Ring → Ring) : c.Drops (c.modRing k f) := .of_same rfl rfl rfl

theorem Ctl.drops_emit (c : Ctl) (o : Out) : c.Drops (c.emit o) := .of_same rfl rfl rfl

/-- BUSY clears only where no such burst is left. -/
theorem Ctl.drops_invalDone (c : Ctl) : c.Drops c.invalDone := by
  unfold Ctl.invalDone
  split
  next h =>
    simp only [Bool.and_eq_true, Bool.not_eq_true', List.any_eq_false, Bool.not_eq_true] at h
    refine ⟨⟨rfl, rfl, rfl, fun _ hb _ => hb, fun o ho => Ctl.reg_setReg_ne c _ fun he => ?_⟩, rfl, fun _ _ => h.2⟩
    rw [← he] at ho
    exact absurd ho (by decide)
  next => exact .refl c

/-- What has not gone out is taken out; what has gone out keeps its tag. -/
theorem Ctl.drops_dropBursts (c : Ctl) (f : Burst → Bool) : c.Drops (c.dropBursts f) := by
  refine .trans (c' := c.modMem fun m => { m with
    bursts := (m.bursts.filter fun b => b.state = .issued || !f b).map fun (b : Burst) =>
      if f b && b.access ≠ 1 && b.access ≠ 4 then { b with purpose := .orphan } else b }) ?_ (Ctl.drops_invalDone _)
  refine ⟨⟨rfl, rfl, ?_, fun b hb hs => ?_, fun _ _ => rfl⟩, rfl, fun hbusy hbit b hb => ?_⟩
  · simp only [Ctl.tags, Ctl.modMem, List.filterMap_map, List.filterMap_filter]
    refine List.filterMap_congr fun b _ => ?_
    by_cases hissued : b.state = .issued
    · rw [if_pos (by simp [hissued]), Function.comp]
      split <;> rfl
    · cases hf : f b <;> simp [hissued, hf, Burst.out?]
  · obtain ⟨e, he, rfl⟩ := List.mem_map.mp hb
    obtain ⟨hmem, hkept⟩ := List.mem_filter.mp he
    have hopen : e.state ≠ .issued := by
      intro hissued
      split at hs <;> simp [hissued] at hs
    have hnot : f e = false := by simpa [hopen] using hkept
    simpa [hnot] using hmem
  · obtain ⟨e, he, rfl⟩ := List.mem_map.mp hb
    have hwait := hbusy hbit e (List.mem_of_mem_filter he)
    split <;> exact hwait

/-! ### Work that is withdrawn -/

theorem Ctl.drops_modSlice (c : Ctl) (n : Nat) (f : Slice → Slice) : c.Drops (c.modSlice n f) := .of_same rfl rfl rfl

theorem Ctl.drops_modPort (c : Ctl) (n : Nat) (f : Port → Port) : c.Drops (c.modPort n f) := c.drops_modSlice n _

theorem Ctl.drops_setSlots (c : Ctl) (ks : List Nat) (st : SlotState) (o : Owner) : c.Drops (c.setSlots ks st o) :=
  .each c ks fun _ _ => .of_same rfl rfl rfl

theorem Ctl.drops_clearSlots (c : Ctl) (ks : List Nat) : c.Drops (c.clearSlots ks) := by
  have hdrop : ∀ (c : Ctl) (k : Nat), c.Drops (c.dropLatches k) := fun c k => .each c _ fun c n => by
    split
    · exact .refl c
    · exact c.drops_modPort n _
  exact .each c ks fun c k => ((hdrop c k).trans (Ctl.drops_setSlots _ _ _ _)).trans (.of_same rfl rfl rfl)

theorem Ctl.drops_putMask (c : Ctl) {lo hi : Nat} (n : Nat) (b : Bool) (hlo : lo ∉ pathRegs) (hhi : hi ∉ pathRegs) :
    c.Drops (c.putMask lo hi n b) := by
  unfold Ctl.putMask Ctl.putBit
  split_ifs
  · exact c.drops_setReg _ hlo
  · exact c.drops_setReg _ hlo
  · exact c.drops_setReg _ hhi
  · exact c.drops_setReg _ hhi

theorem Ctl.drops_quiesceDone (c : Ctl) (n : Nat) : c.Drops (c.quiesceDone n) := by
  unfold Ctl.quiesceDone Ctl.portEnter
  exact .ite ((c.drops_modPort n _).trans (Ctl.drops_putMask _ n true (by decide) (by decide)))

theorem Ctl.drops_withdraw (c : Ctl) (k : Key) : c.Drops (c.withdraw k) := by
  unfold Ctl.withdraw
  dsimp only
  refine .trans ?_ (.each _ _ fun c n => .ite ((c.drops_modPort n _).trans (Ctl.drops_quiesceDone _ n)))
  refine .trans (.trans ?_ (Ctl.drops_dropBursts _ _)) (.of_same rfl rfl rfl)
  exact .of_same rfl rfl rfl

theorem Ctl.drops_abandonFresh (c : Ctl) (k : Key) : c.Drops (c.abandonFresh k) := by
  have hfree : ∀ (c : Ctl) (ks : List Nat), c.Drops (c.each ks fun c n => c.modSlot n fun s => { s with owner := .none }) :=
    fun c ks => .each c ks fun _ _ => .of_same rfl rfl rfl
  unfold Ctl.abandonFresh
  dsimp only
  refine .trans (.trans ?_ (Ctl.drops_clearSlots _ _)) (Ctl.drops_modDesc _ _ _)
  split
  · exact hfree c _
  · exact (hfree c _).trans (.of_same rfl rfl rfl)

theorem Ctl.drops_releaseMap (c : Ctl) (k : Key) : c.Drops (c.releaseMap k) := by
  unfold Ctl.releaseMap
  refine .ite ?_
  split <;> exact .of_same rfl rfl rfl

/-! ### Words to the peer -/

theorem Ctl.drops_sendLink (c : Ctl) (l kind ctl : Nat) (ws : List Word) : c.Drops (c.sendLink l kind ctl ws) := by
  have hcharge : c.Drops (if ws.isEmpty then c else c.charge .background 6 ws.length) := by
    split
    · exact .refl c
    · exact .of_same rfl rfl rfl
  unfold Ctl.sendLink Ctl.sendLinkFor
  split
  · exact .of_same rfl rfl rfl
  · exact hcharge.trans (.of_same rfl rfl rfl)

theorem Ctl.drops_sendOutcome (c : Ctl) (k : Key) (status detail cursor : Nat) :
    c.Drops (c.sendOutcome k status detail cursor) := by
  unfold Ctl.sendOutcome
  exact .ite ((c.drops_sendLink _ _ _ _).trans (.of_same rfl rfl rfl))

theorem Ctl.drops_sendSig (c : Ctl) (k : Key) (row : Option Nat) (s : BitVec 64) : c.Drops (c.sendSig k row s) :=
  (c.drops_sendLink _ _ _ _).trans (.of_same rfl rfl rfl)

theorem Ctl.drops_haltPair (c : Ctl) (cause : Nat) : c.Drops (c.haltPair cause) := by
  unfold Ctl.haltPair
  split
  · exact .refl c
  · exact ((c.drops_setReg _ (by decide)).trans (Ctl.drops_setReg _ _ (by decide))).trans (Ctl.drops_setReg _ _ (by decide))

theorem Ctl.drops_mismatch (c : Ctl) (g : Sig) (a b : BitVec 64) : c.Drops (c.mismatch g a b) := by
  have hset64 : ∀ (c : Ctl) {lo hi : Nat} (v : Nat), lo ∉ pathRegs → hi ∉ pathRegs → c.Drops (c.setReg64 lo hi v) :=
    fun c lo hi v hlo hhi => (c.drops_setReg _ hlo).trans (Ctl.drops_setReg _ _ hhi)
  unfold Ctl.mismatch
  dsimp only
  exact (((((c.drops_setReg _ (by decide)).trans (hset64 _ _ (by decide) (by decide))).trans
    (hset64 _ _ (by decide) (by decide))).trans (hset64 _ _ (by decide) (by decide))).trans (Ctl.drops_haltPair _ 1)).trans
    (Ctl.drops_sendLink _ _ _ _ _)

/-! ### Completing a descriptor -/

theorem Ctl.drops_barrier (c : Ctl) (d : Desc) : c.Drops (c.barrier d) := by
  unfold Ctl.barrier
  exact .ite ((c.paces_modPower _).trans (Ctl.paces_startMargin _)).drops

theorem Ctl.drops_wakeOnWork (c : Ctl) : c.Drops c.wakeOnWork := by
  have hset : c.Drops (c.setRf rPSTATE_STATUS 0 3 5) := c.drops_setReg _ (by decide)
  unfold Ctl.wakeOnWork
  refine .ite (.trans ?_ (Ctl.paces_raiseVreq _).drops)
  split
  · exact hset
  · exact hset.trans (Ctl.paces_modPower _ _).drops

theorem Ctl.drops_close (c : Ctl) (k : Key) : c.Drops (c.close k) := by
  unfold Ctl.close
  split
  · exact .refl c
  · split
    · exact .refl c
    · exact .of_same rfl rfl rfl

theorem Ctl.drops_fixNow (c : Ctl) (k : Key) (st de : Nat) : c.Drops (c.fixNow k st de) := by
  have hrefuse : ∀ c : Ctl, c.Drops ((c.setRf rXN_STATUS 16 8 de).count rREFUSALS 1) := fun c =>
    (c.drops_setReg _ (by decide)).trans (Ctl.drops_setReg _ _ (by decide))
  unfold Ctl.fixNow
  split
  · exact .refl c
  · split
    · exact .refl c
    · refine .trans (.trans (.trans ?_ (Ctl.drops_modDesc _ k _)) (Ctl.drops_close _ k)) (Ctl.drops_clearSlots _ _)
      refine .trans (.trans (.trans ?_ (.ite (Ctl.drops_sendOutcome _ _ _ _ _))) (.ite (hrefuse _))) (.ite (Ctl.drops_barrier _ _))
      exact ((c.drops_withdraw k).trans (Ctl.drops_abandonFresh _ k)).trans (Ctl.drops_releaseMap _ k)

theorem Ctl.drops_propose (c : Ctl) (d : Desc) (st de : Nat) : c.Drops (c.propose d st de) := by
  have hput := ((c.drops_withdraw d.key).trans (Ctl.drops_releaseMap _ d.key)).trans
    (Ctl.drops_modDesc _ d.key fun e => e.proposing st de)
  unfold Ctl.propose
  dsimp only
  split
  · exact hput
  · exact hput.trans (Ctl.drops_sendSig _ _ _ _)

theorem Ctl.drops_agree (c : Ctl) (d : Desc) (st de : Nat) : c.Drops (c.agree d st de) := by
  have hsigs : ∀ gs, c.Drops { c with sigs := gs } := fun _ => .of_same rfl rfl rfl
  unfold Ctl.agree
  dsimp only
  split
  · split
    · exact ((hsigs _).trans (Ctl.drops_setReg _ _ (by decide))).trans (Ctl.drops_fixNow _ _ _ _)
    · exact (hsigs _).trans (Ctl.drops_mismatch _ _ _ _)
  · exact .refl c

theorem Ctl.drops_fix (c : Ctl) (k : Key) (st de : Nat) : c.Drops (c.fix k st de) := by
  unfold Ctl.fix
  split
  · exact .refl c
  · split
    · exact c.drops_fixNow k st de
    · split
      · exact .refl c
      · exact (c.drops_propose _ st de).trans (Ctl.drops_agree _ _ st de)

theorem Ctl.drops_complete (c : Ctl) (k : Key) (st de : Nat) : c.Drops (c.complete k st de) := by
  unfold Ctl.complete
  split
  · exact c.drops_fix k st de
  · exact (c.drops_fix k st de).trans (Ctl.drops_fix _ _ st de)

theorem Ctl.drops_fences (c : Ctl) : c.Drops c.fences :=
  .each c _ fun c d => .ite ((c.drops_fix d.key 0 0).trans (Ctl.drops_wakeOnWork _))

theorem Ctl.drops_finish (c : Ctl) (k : Key) (st de : Nat) : c.Drops (c.finish k st de) :=
  (c.drops_complete k st de).trans (Ctl.drops_fences _)

/-! ### Rings that drain -/

theorem Ctl.drops_funcSettle (c : Ctl) : c.Drops c.funcSettle :=
  .of_mem c.funcSettle_mem fun o ho => c.funcSettle_frame.2 o fun he => by
    rw [List.mem_singleton.mp he] at ho
    exact absurd ho (by decide)

theorem Ctl.drops_settleRing (c : Ctl) (k : Nat) : c.Drops (c.settleRing k) := by
  rcases c.settleRing_cases k with h | ⟨v, h⟩ <;> rw [h]
  · exact .refl c
  · exact (((c.drops_ringReg k _ (by decide)).trans (Ctl.drops_ringReg _ k _ (by decide))).trans
      (Ctl.drops_ringReg _ k _ (by decide))).trans (Ctl.drops_funcSettle _)

theorem Ctl.drops_disarm (c : Ctl) (k : Nat) : c.Drops (c.disarm k) := by
  have hoff : ∀ c : Ctl, c.Drops ((c.dropBursts fun b => decide (b.purpose = .watch k)).watchOff k) := fun c =>
    (((c.drops_dropBursts _).trans (Ctl.drops_modRing _ _ _)).trans (Ctl.drops_ringReg _ k _ (by decide))).trans
      (Ctl.drops_funcSettle _)
  unfold Ctl.disarm
  dsimp only
  split
  · exact (c.drops_emit _).trans (hoff _)
  · exact (c.drops_emit _).trans (hoff _)
  · exact hoff c

theorem Ctl.drops_cancelFences (c : Ctl) (k : Nat) : c.Drops (c.cancelFences k) := .each c _ fun c d => c.drops_fix d.key 0x40 8

theorem Ctl.drops_orphanStreams (c : Ctl) (k : Nat) : c.Drops (c.orphanStreams k) :=
  Ctl.orphanStreams_cases (P := c.Drops) (fun e x h => h.trans (e.drops_complete x _ _)) k (.refl c)

theorem Ctl.drops_drain (c : Ctl) (k : Nat) (cause : Option Nat) : c.Drops (c.drain k cause) := by
  have hput : c.Drops ((c.putRingState k 2).lower (rRING_CTL k) 0) :=
    (c.drops_ringReg k _ (by decide)).trans (Ctl.drops_ringReg _ k _ (by decide))
  have hempty : ∀ (c : Ctl) (ds : List Desc) (f : Ring → Ring) (q : Burst → Bool), c.Drops
      (({ c.dropBursts q with descs := ds } : Ctl).modRing k f) := fun c ds f q =>
    (c.drops_dropBursts q).trans (.of_same rfl rfl rfl)
  have hrest : ∀ c : Ctl, c.Drops (((c.cancelFences k).orphanStreams k).settleRing k) := fun c =>
    ((c.drops_cancelFences k).trans (Ctl.drops_orphanStreams _ k)).trans (Ctl.drops_settleRing _ k)
  unfold Ctl.drain
  split
  · exact .refl c
  · refine .trans (.trans (.trans hput ?_) (hempty _ _ _ _)) (hrest _)
    refine .trans ?_ (Ctl.drops_disarm _ k)
    split
    · exact Ctl.drops_ringReg _ k _ (by decide)
    · exact .refl _

theorem Ctl.drops_stopStart (c : Ctl) (k : Nat) : c.Drops (c.stopStart k) := by
  have hlower : ∀ c : Ctl, c.Drops (c.lower (rRING_CTL k) 0) := fun c => c.drops_ringReg k _ (by decide)
  unfold Ctl.stopStart
  split
  · exact (c.drops_modRing k _).trans (hlower _)
  · exact hlower c

/-! ### Failures of bursts -/

theorem Ctl.drops_recordFault (c : Ctl) (k : Key) (final : Bool) : c.Drops (c.recordFault k final) := by
  have hheld : ∀ c : Ctl, c.Drops ((if final then c.modDesc k fun d => { d with stage := .final } else c).modRing k.ring fun r =>
      { r with recFault := true, held := if final then r.held ++ [k] else r.held }) := fun c =>
    (Ctl.Drops.ite (c.drops_modDesc k _)).trans (Ctl.drops_modRing _ _ _)
  unfold Ctl.recordFault
  dsimp only
  split
  · exact ((hheld c).trans (Ctl.drops_stopStart _ _)).trans (Ctl.drops_ringReg _ _ _ (by decide))
  · exact ((hheld c).trans (Ctl.drops_drain _ _ _)).trans (Ctl.drops_settleRing _ _)

theorem Ctl.drops_ringFault (c : Ctl) (p : BPurpose) : c.Drops (c.ringFault p) := by
  unfold Ctl.ringFault
  split
  · exact c.drops_drain _ _
  · exact c.drops_drain _ _
  · exact c.drops_drain _ _
  · exact c.drops_recordFault _ _
  · exact c.drops_recordFault _ _
  · exact (c.drops_modRing _ _).trans (Ctl.drops_drain _ _ _)
  · exact .refl c

theorem Ctl.drops_rowFail (c : Ctl) (k : Key) (f : RowFail) : c.Drops (c.rowFail k f) := by
  unfold Ctl.rowFail
  split
  · exact .refl c
  · exact (c.drops_modDesc k _).trans (Ctl.drops_dropBursts _ _)

theorem Ctl.drops_dropPrefetch (c : Ctl) (k : Key) : c.Drops (c.dropPrefetch k) := by
  have hoperand : ∀ (c : Ctl) (q : Key) (n : Nat), c.Drops (c.dropOperand q n) := by
    intro c q n
    unfold Ctl.dropOperand
    exact .ite (.of_same rfl rfl rfl)
  have hdrop : ∀ c : Ctl, c.Drops ((((c.withdraw k).abandonFresh k).modDesc k fun d => { d with
      prefetched := false, pfPages := [], done := [], buf := [], aux := [], bad := none, prog := 0 }).count rPF_DROPPED 1) := fun c =>
    (((c.drops_withdraw k).trans (Ctl.drops_abandonFresh _ k)).trans (Ctl.drops_modDesc _ k _)).trans
      (Ctl.drops_setReg _ _ (by decide))
  unfold Ctl.dropPrefetch
  split
  · refine .ite (.trans ?_ (hdrop _))
    split
    · exact .each c _ fun c n => hoperand c _ n
    · exact .refl c
  · exact .refl c

theorem Ctl.drops_burstFails (c : Ctl) (b : Burst) (status detail : Nat) (parks : Bool) :
    c.Drops (c.burstFails b status detail parks) := by
  have hrow : ∀ k r, c.Drops (if b.prefetch then c.dropPrefetch k
      else c.rowFail k { row := r, status := status, detail := detail, parks := parks }) := by
    intro k r
    split
    · exact c.drops_dropPrefetch k
    · exact c.drops_rowFail k _
  have hservice : ∀ f, c.Drops (c.modMsq f) := fun _ => .of_same rfl rfl rfl
  unfold Ctl.burstFails
  dsimp only
  split
  · exact hrow _ _
  · exact hrow _ _
  · exact hrow _ _
  · exact hservice _
  · exact hservice _
  · exact c.drops_ringFault _

theorem Ctl.drops_tensorProgress (c : Ctl) (k : Key) : c.Drops (c.tensorProgress k) := by
  unfold Ctl.tensorProgress
  split
  · exact .refl c
  · split
    · exact .refl c
    · split
      · exact .ite (c.drops_finish _ _ _)
      · split
        · exact .refl c
        · split
          · exact .ite (c.drops_modDesc _ _)
          · exact .ite (c.drops_finish _ _ _)

/-- Rows that failed go on. -/
theorem Ctl.drops_settleRows (c : Ctl) : c.Drops c.settleRows := .each c _ fun c d => c.drops_tensorProgress d.key

end Sys2Proof.Machine

/-!
SUPPORT. Walks (R240, R242, R243): what their answers and their timeouts do to the bursts that wait on them; and the settled
statement about them.
-/
namespace Sys2Proof.Machine

/-! ### Nothing needs a translation -/

/-- No burst needs a translation. -/
def Ctl.NoneNeeds (c : Ctl) : Prop := ∀ b ∈ c.mem.bursts, b.state ≠ .need

theorem Ctl.Frees.noneNeeds {c c' : Ctl} (h : c.Frees c') (hnone : c.NoneNeeds) : c'.NoneNeeds := fun b hb hneed =>
  hnone b (h.waits b hb (by simp [hneed])) hneed

/-- Then there is nothing to translate. -/
theorem Ctl.NoneNeeds.pump {c : Ctl} (h : c.NoneNeeds) : c.pump = c := by
  have hnil : c.mem.bursts.filter (·.state = .need) = [] := by
    rw [List.filter_eq_nil_iff]
    intro b hb
    simpa using h b hb
  rw [Ctl.pump, hnil]
  rfl

/-! ### A burst that waited no longer does -/

/-- No burst of a purpose waits on a walk. -/
def Ctl.NoWalker (c : Ctl) (p : BPurpose) : Prop := ∀ b ∈ c.mem.bursts, b.state = .walking → b.purpose ≠ p

theorem Ctl.Frees.noWalker {c c' : Ctl} {p : BPurpose} (h : c.Frees c') (hnone : c.NoWalker p) : c'.NoWalker p :=
  fun b hb hwalk => hnone b (h.waits b hb (by simp [hwalk])) hwalk

theorem Ctl.noWalker_of_any {c : Ctl} {p : BPurpose}
    (h : (c.mem.bursts.any fun e => e.purpose = p && e.state = .walking) = false) : c.NoWalker p := fun b hb hwalk hp => by
  have hnot := List.any_eq_false.mp h b hb
  simp [hp, hwalk] at hnot

theorem Ctl.noWalker_dropBursts (c : Ctl) (p : BPurpose) : (c.dropBursts fun e => decide (e.purpose = p)).NoWalker p := by
  intro b hb hwalk
  rw [Ctl.dropBursts, Ctl.invalDone_mem] at hb
  obtain ⟨e, he, rfl⟩ := List.mem_map.mp hb
  have hkept := (List.mem_filter.mp he).2
  have hstate : e.state = .walking := by split at hwalk <;> exact hwalk
  have hne : e.purpose ≠ p := by simpa [hstate] using hkept
  simp [hne]

/-- A change of the bursts of a purpose that ends their waiting. -/
theorem Ctl.noWalker_modBurst (c : Ctl) (p : BPurpose) {f : Burst → Burst} (hf : ∀ b, (f b).state ≠ .walking) :
    (c.modBurst p f).NoWalker p := by
  intro b hb hwalk
  obtain ⟨e, -, rfl⟩ := List.mem_map.mp hb
  split at hwalk
  next => exact absurd hwalk (hf e)
  next hkeep =>
    rw [if_neg hkeep]
    rintro rfl
    simp [hwalk] at hkeep

/-! ### A burst has its translation (R240, R241, R272) -/

/-- Bursts that have not gone out are changed, and do not go out. -/
theorem Ctl.tags_modBurst (c : Ctl) (p : BPurpose) {f : Burst → Burst} (hf : ∀ b, b.state ≠ .issued → (f b).state ≠ .issued) :
    (c.modBurst p f).tags = c.tags := by
  simp only [Ctl.tags, Ctl.modBurst, Ctl.modMem, List.filterMap_map]
  refine List.filterMap_congr fun b _ => ?_
  by_cases hsel : b.purpose = p ∧ b.state ≠ .issued
  · simp [Function.comp, hsel, hf b hsel.2, Burst.out?]
  · simp only [Function.comp]
    rw [if_neg (by simpa using hsel)]

/-- Bursts of a purpose that have not gone out come to be ready. -/
theorem Ctl.frees_modBurst (c : Ctl) (p : BPurpose) {f : Burst → Burst} (hf : ∀ b, (f b).state = .ready) :
    c.Frees (c.modBurst p f) := by
  refine ⟨rfl, rfl, c.tags_modBurst p fun b _ => by simp [hf], fun b hb hs => ?_, fun _ _ => rfl⟩
  obtain ⟨e, he, rfl⟩ := List.mem_map.mp hb
  split at hs
  next => simp [hf] at hs
  next hkeep => rwa [if_neg hkeep]

theorem Ctl.frees_cacheMicro (c : Ctl) (ch : Nat) (x : Xlate) : c.Frees (c.cacheMicro ch x) := by
  unfold Ctl.cacheMicro
  dsimp only
  split
  · exact .refl c
  · exact ⟨rfl, rfl, rfl, fun _ h _ => h, fun _ _ => rfl⟩

/-- A burst that has its translation is refused, arms a watch, or is ready: it waits no longer. -/
theorem Ctl.resolve_spec (c : Ctl) (b : Burst) (x : Xlate) : c.Frees (c.resolve b x) ∧ (c.resolve b x).NoWalker b.purpose := by
  have hdrop : ∀ c', (c.dropBursts fun e => decide (e.purpose = b.purpose)).Frees c' → c.Frees c' ∧ c'.NoWalker b.purpose :=
    fun c' h => ⟨(c.drops_dropBursts _).toFrees.trans h, h.noWalker (c.noWalker_dropBursts _)⟩
  have hready : ∀ (pa : Addr) (ch : Nat) c', ((c.modBurst b.purpose fun b => { b with state := .ready, pa := pa, ch := ch }).cacheMicro
      ch x).Frees c' → c.Frees c' ∧ c'.NoWalker b.purpose := fun pa ch c' h => by
    have hcached := (Ctl.frees_cacheMicro (c.modBurst b.purpose fun b => { b with state := .ready, pa := pa, ch := ch }) ch x).trans h
    exact ⟨(c.frees_modBurst b.purpose fun _ => rfl).trans hcached, hcached.noWalker (c.noWalker_modBurst _ (by simp))⟩
  have hdawn : ∀ c' : Ctl, c'.Frees (if c'.pstate ∈ [0, 1, 3] then c'.startDawn else c') := fun c' =>
    (Ctl.Drops.ite c'.paces_startDawn.drops).toFrees
  unfold Ctl.resolve
  dsimp only
  split
  · exact hdrop _ (Ctl.drops_burstFails _ _ _ _ _).toFrees
  · split
    · exact hdrop _ ((Ctl.drops_modRing _ _ _).trans (Ctl.drops_emit _ _)).toFrees
    · split
      · exact hready _ _ _ ((hdawn _).trans (Ctl.Drops.ite (Ctl.drops_modDesc _ _ _)).toFrees)
      · exact hready _ _ _ (hdawn _)

/-! ### Everyone who waits on a walk -/

/-- An operation for each of some bursts, after which none of its purpose waits, leaves none of their purposes waiting. -/
theorem Ctl.each_noWalker {f : Ctl → Burst → Ctl} (hf : ∀ c b, c.Frees (f c b) ∧ (f c b).NoWalker b.purpose) (c : Ctl)
    (l : List Burst) : c.Frees (c.each l f) ∧ ∀ b ∈ l, (c.each l f).NoWalker b.purpose := by
  induction l generalizing c with
  | nil => exact ⟨.refl c, fun b hb => absurd hb List.not_mem_nil⟩
  | cons b bs ih =>
    obtain ⟨hfree, hgone⟩ := hf c b
    obtain ⟨hrest, hothers⟩ := ih (f c b)
    refine ⟨hfree.trans hrest, fun e he => ?_⟩
    rcases List.mem_cons.mp he with rfl | he
    · exact hrest.noWalker hgone
    · exact hothers e he

/-- Does a burst wait on a walk? -/
def Walk.has (w : Walk) (b : Burst) : Prop := b.state = .walking ∧ b.domain = w.domain ∧ pageOf b.va = w.page

/-- What was done for each burst that waited on a walk has ended its waiting. -/
theorem Ctl.noneWaits_of_walkers {c c' : Ctl} {w : Walk} (h : c.Frees c') (hgone : ∀ b ∈ c.walkers w, c'.NoWalker b.purpose) :
    ∀ b ∈ c'.mem.bursts, ¬ w.has b := by
  rintro b hb ⟨hwalk, hdomain, hpage⟩
  exact hgone b (List.mem_filter.mpr ⟨h.waits b hb (by simp [hwalk]), by simp [hwalk, hdomain, hpage]⟩) b hb hwalk rfl

/-- A walk that fails leaves nobody waiting on it (R243, R245). -/
theorem Ctl.walkFails_spec (c : Ctl) (w : Walk) : c.Frees (c.walkFails w) ∧ ∀ b ∈ (c.walkFails w).mem.bursts, ¬ w.has b := by
  obtain ⟨hfree, hgone⟩ := Ctl.each_noWalker (f := fun c b =>
    if c.mem.bursts.any fun e => e.purpose = b.purpose && e.state = .walking then
      (c.dropBursts fun e => decide (e.purpose = b.purpose)).burstFails b 0x20 (accessDetail b.access) true
    else c) (fun c b => by
      split
      next =>
        have hfails := (Ctl.drops_burstFails (c.dropBursts fun e => decide (e.purpose = b.purpose)) b 0x20
          (accessDetail b.access) true).toFrees
        exact ⟨(c.drops_dropBursts _).toFrees.trans hfails, hfails.noWalker (c.noWalker_dropBursts _)⟩
      next hany => exact ⟨.refl c, Ctl.noWalker_of_any (by simpa using hany)⟩) c (c.walkers w)
  exact ⟨hfree, Ctl.noneWaits_of_walkers hfree hgone⟩

/-- What a cache holds after a translation has been put into it. -/
theorem mem_cacheInsert (ways free : Nat) (mates : Xlate → Bool) (l : List Xlate) (x : Xlate) :
    x ∈ cacheInsert ways free mates l x := by
  unfold cacheInsert
  split
  next h => exact List.contains_iff_mem.mp h
  next =>
    split
    · exact List.mem_cons_self
    · split
      · exact List.mem_cons_self
      · split <;> exact List.mem_cons_self

/-- The translation that a response gives (Table 8.1). -/
def Walk.xlate (w : Walk) (resp : BitVec 64) : Xlate :=
  let size := resp.toNat / 2 ^ 10 % 4
  let lg := if size = 0 then 0 else if size = 1 then 5 else 14
  { domain := w.domain, page := w.page / 2 ^ lg * 2 ^ lg, log2 := lg, frame := resp.toNat / 2 ^ 16,
    perm := BitVec.ofNat 4 (resp.toNat / 2 ^ 4) }

/-- A page of 64 KiB is cached under its own number. -/
theorem Walk.xlate_of_small (w : Walk) {resp : BitVec 64} (h : resp.toNat / 2 ^ 10 % 4 = 0) :
    w.xlate resp = { domain := w.domain, page := w.page, log2 := 0, frame := resp.toNat / 2 ^ 16,
                     perm := BitVec.ofNat 4 (resp.toNat / 2 ^ 4) } := by
  simp only [Walk.xlate, h, if_true, pow_zero, Nat.div_one, Nat.mul_one]

/-- Does a response say that there is no translation: FAULT, or SIZE 3 (R240)? -/
def respFails (resp : BitVec 64) : Prop := resp.toNat % 2 = 1 ∨ resp.toNat / 2 ^ 10 % 4 = 3

theorem Ctl.walkResponse_fails {c : Ctl} {w : Walk} {resp : BitVec 64} (h : respFails resp) :
    c.walkResponse w resp = (((c.endWalk w.tag).count rWALK_FAULTS 1).walkFails w).pump := by
  unfold Ctl.walkResponse
  exact if_pos (by simpa [respFails] using h)

/-- Everyone who waits on a walk has its translation. -/
def Ctl.resolveAll (c : Ctl) (bs : List Burst) (x : Xlate) : Ctl :=
  c.each bs fun c b => if c.mem.bursts.any fun e => e.purpose = b.purpose && e.state = .walking then c.resolve b x else c

theorem Ctl.walkResponse_caches {c : Ctl} {w : Walk} {resp : BitVec 64} (h : ¬ respFails resp) :
    c.walkResponse w resp =
      (((c.endWalk w.tag).cacheShared (w.xlate resp)).resolveAll ((c.endWalk w.tag).walkers w) (w.xlate resp)).pump := by
  unfold Ctl.walkResponse
  exact if_neg (by simpa [respFails] using h)

theorem Ctl.resolveAll_spec (c : Ctl) (bs : List Burst) (x : Xlate) :
    c.Frees (c.resolveAll bs x) ∧ ∀ b ∈ bs, (c.resolveAll bs x).NoWalker b.purpose :=
  Ctl.each_noWalker (fun c b => by
    split
    next => exact c.resolve_spec b x
    next hany => exact ⟨.refl c, Ctl.noWalker_of_any (by simpa using hany)⟩) c bs

/-! ### A response in time (R240, R242) -/

/-- A walk that has its answer is over, and nobody waits on it; a failure is counted, and any other answer is cached. -/
theorem Ctl.walkResponse_spec {c : Ctl} (hnone : c.NoneNeeds) (w : Walk) (resp : BitVec 64) :
    (c.walkResponse w resp).settleRows.mem.walks = (c.endWalk w.tag).mem.walks ∧
    (∀ b ∈ (c.walkResponse w resp).settleRows.mem.bursts, ¬ w.has b) ∧
    (respFails resp → c.counted (c.walkResponse w resp).settleRows rWALK_FAULTS 1) ∧
    (¬ respFails resp → w.xlate resp ∈ (c.walkResponse w resp).settleRows.mem.shared) := by
  by_cases hfail : respFails resp
  · obtain ⟨hfree, hgone⟩ := Ctl.walkFails_spec ((c.endWalk w.tag).count rWALK_FAULTS 1) w
    have hsettle := (Ctl.drops_settleRows (((c.endWalk w.tag).count rWALK_FAULTS 1).walkFails w)).toFrees
    rw [Ctl.walkResponse_fails hfail, (hfree.noneNeeds hnone).pump]
    refine ⟨hsettle.walks.trans hfree.walks, fun b hb hwaits => ?_, fun _ => ?_, fun hnot => absurd hfail hnot⟩
    · exact hgone b (hsettle.waits b hb (by simp [hwaits.1])) hwaits
    · exact Ctl.counted_of_reg ((hsettle.counts _ (by decide)).trans (hfree.counts _ (by decide)))
  · obtain ⟨hfree, hgone⟩ := Ctl.resolveAll_spec ((c.endWalk w.tag).cacheShared (w.xlate resp))
      ((c.endWalk w.tag).walkers w) (w.xlate resp)
    have hwaits := Ctl.noneWaits_of_walkers hfree hgone
    rw [Ctl.walkResponse_caches hfail, (hfree.noneNeeds hnone).pump]
    have hsettle := (Ctl.drops_settleRows (((c.endWalk w.tag).cacheShared (w.xlate resp)).resolveAll
      ((c.endWalk w.tag).walkers w) (w.xlate resp))).toFrees
    refine ⟨hsettle.walks.trans hfree.walks, fun b hb hwait => ?_, fun h => absurd h hfail, fun _ => ?_⟩
    · exact hwaits b (hsettle.waits b hb (by simp [hwait.1])) hwait
    · rw [hsettle.shared, hfree.shared]
      exact mem_cacheInsert _ _ _ _ _

/-! ### No response in time (R243) -/

/-- The walk is marked late, and its failure counted. -/
def Ctl.markLate (c : Ctl) (t : Nat) : Ctl :=
  (c.modMem fun m => { m with walks := m.walks.map fun (x : Walk) => if x.tag = t then { x with late := true } else x }).count
    rWALK_TIMEOUTS 1

/-- A walk without an answer in time is late, is counted, and leaves nobody waiting on it. -/
theorem Ctl.walkLate_spec {c : Ctl} (hnone : c.NoneNeeds) (w : Walk) :
    (∀ x ∈ (c.walkLate w).pump.settleRows.mem.walks, x.tag = w.tag → x.late = true) ∧
    (∀ b ∈ (c.walkLate w).pump.settleRows.mem.bursts, ¬ w.has b) ∧
    c.counted (c.walkLate w).pump.settleRows rWALK_TIMEOUTS 1 := by
  obtain ⟨hfree, hgone⟩ := Ctl.walkFails_spec (c.markLate w.tag) w
  have hlate : c.walkLate w = (c.markLate w.tag).walkFails w := rfl
  rw [hlate, (hfree.noneNeeds hnone).pump]
  have hsettle := (Ctl.drops_settleRows ((c.markLate w.tag).walkFails w)).toFrees
  refine ⟨fun x hx htag => ?_, fun b hb hwaits => ?_, ?_⟩
  · rw [hsettle.walks, hfree.walks] at hx
    obtain ⟨y, -, rfl⟩ := List.mem_map.mp hx
    split at htag
    next h => rw [if_pos h]
    next h => exact absurd htag h
  · exact hgone b (hsettle.waits b hb (by simp [hwaits.1])) hwaits
  · exact Ctl.counted_of_reg ((hsettle.counts _ (by decide)).trans (hfree.counts _ (by decide)))

/-! ### The commands -/

theorem exec_translationResponse {s : State} {tag : Nat} {resp : BitVec 64} {w : Walk}
    (ht : s.takes (.translationResponse tag resp) = true) (hwalk : s.ctl.mem.walks.find? (·.tag = tag) = some w) :
    exec (.translationResponse tag resp) s = .next { s with
      ctl := if w.late then s.ctl.endWalk tag else (s.ctl.walkResponse w resp).settleRows } := by
  change execTranslationResponse tag resp s = _
  rw [execTranslationResponse, ctlStep_takes _ ht, hwalk]

theorem exec_walkTimeout {s : State} {tag : Nat} {w : Walk} (ht : s.takes (.walkTimeout tag) = true)
    (hwalk : s.ctl.mem.walks.find? (·.tag = tag) = some w) (hlate : w.late = false) (hdue : w.deadline ≤ s.ctl.refTicks)
    (hnight : s.ctl.pstate ≠ 4) :
    exec (.walkTimeout tag) s = .next { s with ctl := (s.ctl.walkLate w).pump.settleRows } := by
  change execWalkTimeout tag s = _
  rw [execWalkTimeout, ctlStep_takes _ ht, hwalk]
  simp [hlate, Ctl.due, hdue, hnight]

theorem Ctl.endWalk_walks (c : Ctl) (tag : Nat) : ∀ x ∈ (c.endWalk tag).mem.walks, x.tag ≠ tag := fun x hx => by
  simpa using (List.mem_filter.mp hx).2

/-- Settles O29: an answer, or its absence, ends the waiting of every burst on the walk one by one, and none of them needs
another translation. -/
theorem walks : Obligations.Walks := by
  unfold Obligations.Walks
  refine ⟨fun s tag resp w ht hwalk hnone _ => ?_, fun s tag w ht hwalk hlate hdue hnight hnone _ => ?_⟩
  · have htag : w.tag = tag := by simpa using List.find?_some hwalk
    refine ⟨_, exec_translationResponse ht hwalk, ?_⟩
    cases hlate : w.late with
    | true =>
      refine ⟨Ctl.endWalk_walks _ tag, fun _ => ⟨rfl, rfl⟩, ?_, ?_, ?_⟩ <;> exact fun h => absurd h Bool.noConfusion
    | false =>
      obtain ⟨hwalks, hwaits, hfails, hcaches⟩ := Ctl.walkResponse_spec hnone w resp
      refine ⟨fun x hx => ?_, fun h => absurd h Bool.noConfusion, fun _ => hwaits, fun _ => hfails, fun _ hfault hsize => ?_⟩
      · refine Ctl.endWalk_walks s.ctl tag x ?_
        rw [← htag, ← hwalks]
        exact hx
      · rw [← Walk.xlate_of_small w hsize]
        refine hcaches fun hfail => ?_
        unfold respFails at hfail
        omega
  · have htag : w.tag = tag := by simpa using List.find?_some hwalk
    obtain ⟨hwalks, hwaits, hcounted⟩ := Ctl.walkLate_spec hnone w
    exact ⟨_, exec_walkTimeout ht hwalk hlate hdue hnight, htag ▸ hwalks, hwaits, hcounted⟩

end Sys2Proof.Machine

/-!
SUPPORT. Invalidation (R244): no translation is left, what was dropped from the caches is translated anew by a walk, and BUSY; and
the settled statement about it.
-/
namespace Sys2Proof.Machine

/-! ### Caches that are empty -/

/-- No translation is cached, and BUSY holds for what it is waiting for. -/
def Ctl.Cleared (c : Ctl) : Prop := c.xlates = [] ∧ c.BusyHolds

theorem Ctl.Drops.cleared {c c' : Ctl} (h : c.Drops c') (hc : c.Cleared) : c'.Cleared :=
  ⟨h.xlates.trans hc.1, h.busy hc.2⟩

theorem Ctl.Cleared.modBurst {c : Ctl} (h : c.Cleared) (p : BPurpose) {f : Burst → Burst}
    (hf : ∀ b, (f b).waitInval = b.waitInval) : (c.modBurst p f).Cleared := by
  refine ⟨h.1, fun hbit b hb => ?_⟩
  obtain ⟨e, he, rfl⟩ := List.mem_map.mp hb
  have hwait := h.2 hbit e he
  split
  · rw [hf]
    exact hwait
  · exact hwait

theorem Ctl.Cleared.startWalk {c : Ctl} (h : c.Cleared) (b : Burst) : (c.startWalk b).Cleared := by
  have hreg : (c.startWalk b).reg rATC_INVAL = c.reg rATC_INVAL := (c.walks_startWalk b).keeps _ (by decide)
  refine ⟨h.1, ?_⟩
  unfold Ctl.BusyHolds
  rw [hreg]
  exact h.2

/-- Where no translation is cached, a burst that needs one comes to wait on a walk (R242). -/
theorem Ctl.Cleared.translate {c : Ctl} (h : c.Cleared) (p : BPurpose) : (c.translate p).Cleared := by
  unfold Ctl.translate
  split
  next => exact h
  next b _ =>
    have hmiss : c.cached b.domain (pageOf b.va) = none := by
      rw [Ctl.cached, h.1]
      rfl
    rw [hmiss]
    dsimp only
    split_ifs
    · exact h
    · exact h.modBurst p fun _ => rfl
    · exact h.modBurst p fun _ => rfl
    · exact (h.startWalk b).modBurst p fun _ => rfl
    · exact h

theorem Ctl.Cleared.request {c : Ctl} (h : c.Cleared) {bs : List Burst} (hbs : ∀ b ∈ bs, b.waitInval = false) :
    (c.request bs).Cleared := by
  have hadd : (c.addBursts bs).Cleared := ⟨h.1, fun hbit b hb => (List.mem_append.mp hb).elim (h.2 hbit b) (hbs b)⟩
  exact Ctl.each_induction (P := Ctl.Cleared) (fun c p hc => hc.translate p) _ hadd

/-! ### Translations are removed -/

theorem Ctl.Cleared.rearm {c : Ctl} (h : c.Cleared) (gone : List Xlate) : (c.rearm gone).Cleared := by
  refine Ctl.each_induction (P := Ctl.Cleared) (fun c k hc => ?_) _ h
  dsimp only
  split
  · refine Ctl.Cleared.request (((c.drops_disarm k).trans (Ctl.drops_modRing _ _ _)).cleared hc) fun b hb => ?_
    rw [List.mem_singleton.mp hb]
    rfl
  · exact hc

/-- The caches without some translations, and the bursts that used one marked (R244). -/
def Mem.without (m : Mem) (gone : List Xlate) : Mem := { m with
  shared := m.shared.filter fun x => !gone.contains x,
  micro := m.micro.map fun p => (p.1, p.2.filter fun x => !gone.contains x),
  bursts := m.bursts.map fun b =>
    if b.access ≠ 5 && b.state ∈ [BState.ready, .issued] && gone.any (·.covers b.domain (pageOf b.va)) then
      { b with waitInval := true } else b }

/-- The prefetches from pages of some translations are dropped (R269). -/
def Ctl.dropStale (c : Ctl) (gone : List Xlate) : Ctl :=
  c.each (c.descs.filter fun d => d.prefetched && d.pfPages.any fun p => gone.any (·.covers d.domain p)) fun c d => c.dropPrefetch d.key

theorem Ctl.dropXlates_eq (c : Ctl) (gone : List Xlate) :
    c.dropXlates gone = ((c.modMem (·.without gone)).dropStale gone).rearm gone := rfl

theorem Ctl.drops_dropStale (c : Ctl) (gone : List Xlate) : c.Drops (c.dropStale gone) :=
  .each c _ fun c d => c.drops_dropPrefetch d.key

theorem Ctl.without_xlates (c : Ctl) : (c.modMem (·.without c.xlates)).xlates = [] := by
  have hnone : ∀ l : List Xlate, (∀ x ∈ l, x ∈ c.xlates) → l.filter (fun x => !c.xlates.contains x) = [] := fun l hl =>
    List.filter_eq_nil_iff.mpr fun x hx => by simp [hl x hx]
  refine List.append_eq_nil_iff.mpr ⟨hnone _ fun x hx => List.mem_append_left _ hx, List.flatMap_eq_nil_iff.mpr fun q hq => ?_⟩
  obtain ⟨p, hp, rfl⟩ := List.mem_map.mp hq
  exact hnone _ fun x hx => List.mem_append_right _ (List.mem_flatMap.mpr ⟨p, hp, hx⟩)

/-- Removing every cached translation while BUSY is 1. -/
theorem Ctl.cleared_dropXlates {c : Ctl} (hbusy : bit (c.reg rATC_INVAL) 31 = true) : (c.dropXlates c.xlates).Cleared := by
  have hempty : (c.modMem (·.without c.xlates)).Cleared :=
    ⟨c.without_xlates, fun hbit => absurd (hbusy.symm.trans hbit) (by decide)⟩
  rw [Ctl.dropXlates_eq]
  exact ((Ctl.drops_dropStale _ _).cleared hempty).rearm _

/-- At the end of an invalidation BUSY reads 1 exactly while a burst that used a removed translation is unanswered. -/
theorem Ctl.Cleared.invalDone {c : Ctl} (h : c.Cleared) :
    c.invalDone.xlates = [] ∧ bit (c.invalDone.reg rATC_INVAL) 31 = c.invalDone.mem.bursts.any (·.waitInval) := by
  refine ⟨(c.drops_invalDone.cleared h).1, ?_⟩
  rw [Ctl.invalDone_mem]
  cases hany : c.mem.bursts.any (·.waitInval) with
  | true =>
    have hbit : bit (c.reg rATC_INVAL) 31 = true := by
      by_contra hnot
      obtain ⟨b, hb, hwait⟩ := List.any_eq_true.mp hany
      simp [h.2 (by simpa using hnot) b hb] at hwait
    simp [Ctl.invalDone, hany, hbit]
  | false =>
    cases hbit : bit (c.reg rATC_INVAL) 31 with
    | true =>
      simp only [Ctl.invalDone, hany, hbit, Bool.not_false, Bool.and_self, if_true]
      rw [Ctl.reg_lower, if_pos rfl, bit_lowered _ (by decide)]
      simp
    | false => simp [Ctl.invalDone, hany, hbit]

/-! ### ATC_INVAL -/

/-- The fields of ATC_INVAL as a write leaves them (Table 8.9): INVAL_ERR clears by one, BUSY stays. -/
def Ctl.invalFields (c : Ctl) (d : Word) : Ctl :=
  (if bit d 30 then c.lower rATC_INVAL 30 else c).setReg rATC_INVAL
    (((if bit d 30 then c.lower rATC_INVAL 30 else c).reg rATC_INVAL &&& 0xC0000000) ||| (d &&& 0x003F3F30))

theorem Ctl.writeInval_go {c : Ctl} {d : Word} (h : bit d 0 = true) : c.writeInval d = (c.invalFields d).invalidate := if_pos h

theorem Ctl.invalFields_mem (c : Ctl) (d : Word) : (c.invalFields d).mem = c.mem := by
  unfold Ctl.invalFields
  split <;> rfl

theorem Ctl.invalFields_busy (c : Ctl) (d : Word) : bit ((c.invalFields d).reg rATC_INVAL) 31 = bit (c.reg rATC_INVAL) 31 := by
  have hkept : bit ((if bit d 30 then c.lower rATC_INVAL 30 else c).reg rATC_INVAL) 31 = bit (c.reg rATC_INVAL) 31 := by
    split
    · rw [Ctl.reg_lower, if_pos rfl, bit_lowered _ (by decide)]
      simp
    · rfl
  have hmask : bit (0xC0000000 : Word) 31 = true ∧ bit (0x003F3F30 : Word) 31 = false := by decide
  rw [Ctl.invalFields, Ctl.reg_setReg_self, bit_or, bit_and, bit_and, hkept, hmask.1, hmask.2, Bool.and_true, Bool.and_false,
    Bool.or_false]

theorem Ctl.invalFields_scope (c : Ctl) (d : Word) : fld ((c.invalFields d).reg rATC_INVAL) 4 2 = fld d 4 2 := by
  have hmask : ∀ j < 2, bit (0xC0000000 : Word) (4 + j) = false ∧ bit (0x003F3F30 : Word) (4 + j) = true := by decide
  rw [Ctl.invalFields, Ctl.reg_setReg_self]
  refine fld_congr fun j hj => ?_
  rw [bit_or, bit_and, bit_and, (hmask j hj).1, (hmask j hj).2, Bool.and_false, Bool.and_true, Bool.false_or]

/-- A GO while BUSY is 1 sets INVAL_ERR alone. -/
theorem Ctl.invalidate_busy {c : Ctl} (h : bit (c.reg rATC_INVAL) 31 = true) :
    c.invalidate.mem = c.mem ∧ bit (c.invalidate.reg rATC_INVAL) 30 = true ∧ bit (c.invalidate.reg rATC_INVAL) 31 = true := by
  rw [Ctl.invalidate, if_pos h, Ctl.reg_raise, if_pos rfl, bit_raised _ (by decide), bit_raised _ (by decide), h]
  exact ⟨rfl, by simp, by simp⟩

/-- SCOPE 0 takes in every translation. -/
theorem Ctl.invalidate_all {c : Ctl} (hidle : bit (c.reg rATC_INVAL) 31 = false) (hscope : fld (c.reg rATC_INVAL) 4 2 = 0) :
    c.invalidate.xlates = [] ∧ bit (c.invalidate.reg rATC_INVAL) 31 = c.invalidate.mem.bursts.any (·.waitInval) := by
  have hall : c.xlates.filter c.inScope = (c.raise rATC_INVAL 31).xlates := List.filter_eq_self.mpr fun x _ => by
    simp only [Ctl.inScope, hscope]
  have hraised : bit ((c.raise rATC_INVAL 31).reg rATC_INVAL) 31 = true := by
    rw [Ctl.reg_raise, if_pos rfl, bit_raised _ (by decide)]
    simp
  rw [Ctl.invalidate, if_neg (by simp [hidle]), hall]
  exact (Ctl.cleared_dropXlates hraised).invalDone

theorem exec_atcInval {s : State} {id : Byte} {d : Word} (h : s.reaches (.atcInval id d) id rATC_INVAL = true)
    (hgo : bit d 0 = true) :
    exec (.atcInval id d) s = .next { s with ctl := { (s.ctl.invalFields d).invalidate with regRdata := 0 } } := by
  change execAtcInval id d s = _
  rw [execAtcInval, ← Ctl.writeInval_go hgo]
  simp only [hgo, if_true]
  exact ctlStep_open_of_reaches h _

/-- Settles O31: a GO while BUSY is 1 is refused; otherwise SCOPE 0 empties the caches, and whatever is then asked for walks. -/
theorem translationInvalidation : Obligations.TranslationInvalidation := by
  unfold Obligations.TranslationInvalidation
  intro s id d h hgo
  refine ⟨_, exec_atcInval h hgo, fun hbusy => ?_, fun hidle hscope => ?_⟩
  · obtain ⟨hmem, herr, hstill⟩ := Ctl.invalidate_busy ((s.ctl.invalFields_busy d).trans hbusy)
    exact ⟨herr, hstill, hmem.trans (s.ctl.invalFields_mem d)⟩
  · exact Ctl.invalidate_all ((s.ctl.invalFields_busy d).trans hidle) ((s.ctl.invalFields_scope d).trans hscope)

end Sys2Proof.Machine

/-!
SUPPORT. What the answer of a burst sets off (R123, R125, R142, R144, R262): bursts are requested and translated, and none of it goes
out, so that every tag stays with the burst that has it.
-/
namespace Sys2Proof.Machine

/-! ### Requests and translations -/

theorem Ctl.tags_of_mem {c c' : Ctl} (h : c'.mem = c.mem) : c'.tags = c.tags := by rw [Ctl.tags, h, Ctl.tags]

theorem Ctl.tags_each {α : Type} {f : Ctl → α → Ctl} (hf : ∀ c a, (f c a).tags = c.tags) (c : Ctl) (l : List α) :
    (c.each l f).tags = c.tags :=
  Ctl.each_induction (P := fun e => e.tags = c.tags) (fun e a h => (hf e a).trans h) l rfl

theorem Ctl.tags_cond {p : Prop} [Decidable p] {c c' c'' : Ctl} (h : c'.tags = c.tags) (h' : c''.tags = c.tags) :
    (if p then c' else c'').tags = c.tags := by
  split
  · exact h
  · exact h'

theorem Ctl.tags_ite {p : Prop} [Decidable p] {c c' : Ctl} (h : c'.tags = c.tags) : (if p then c' else c).tags = c.tags :=
  Ctl.tags_cond h rfl

theorem Ctl.tags_addBursts (c : Ctl) {bs : List Burst} (h : ∀ b ∈ bs, b.state ≠ .issued) : (c.addBursts bs).tags = c.tags := by
  have hnone : bs.filterMap (·.out?) = [] := List.filterMap_eq_nil_iff.mpr fun b hb => if_neg (h b hb)
  rw [Ctl.tags, Ctl.addBursts, Ctl.modMem_mem, List.filterMap_append, hnone, List.append_nil, Ctl.tags]

theorem Ctl.tags_toWalk (c : Ctl) (p : BPurpose) : (c.modBurst p fun b => { b with state := .walking }).tags = c.tags :=
  c.tags_modBurst p (by simp)

/-- A burst that needs a translation is ready, waits on a walk, is refused, or stays as it is. -/
theorem Ctl.tags_translate (c : Ctl) (p : BPurpose) : (c.translate p).tags = c.tags := by
  unfold Ctl.translate
  split
  next => rfl
  next b _ =>
    split
    · rfl
    · split
      · exact c.tags_modBurst p (by simp)
      · split
        · exact (Ctl.resolve_spec _ b _).1.tags
        · split
          · exact c.tags_toWalk p
          · split
            · exact Ctl.tags_toWalk (c.startWalk b) p
            · rfl

theorem Ctl.tags_request (c : Ctl) {bs : List Burst} (h : ∀ b ∈ bs, b.state = .need) : (c.request bs).tags = c.tags :=
  (Ctl.tags_each Ctl.tags_translate _ _).trans (c.tags_addBursts fun b hb => by simp [h b hb])

theorem Ctl.tags_requestOne (c : Ctl) (p : BPurpose) (cls access domain : Nat) (va : Addr) (data : List (Option Byte)) :
    (c.request [newBurst p cls access domain va data]).tags = c.tags :=
  c.tags_request fun b hb => by rw [List.mem_singleton.mp hb]; rfl

/-! ### Rows -/

theorem Ctl.tags_signRow (c : Ctl) (d : Desc) : (c.signRow d).tags = c.tags := by
  have hcompare : ∀ (c : Ctl) (g : Sig), (c.compareRow g).tags = c.tags := by
    intro c g
    unfold Ctl.compareRow
    split
    · dsimp only
      split
      · split <;> rfl
      · exact (Ctl.drops_mismatch _ _ _ _).tags
    · rfl
  unfold Ctl.signRow
  split
  · rfl
  · split
    · exact (hcompare _ _).trans (Ctl.drops_sendSig _ _ _ _).tags
    · rfl

theorem Ctl.tags_feedRow (c : Ctl) (k : Key) (row : Nat) : (c.feedRow k row).tags = c.tags := by
  unfold Ctl.feedRow
  split
  · rfl
  next d _ =>
    have hlines : (c.each (d.writeRuns row) fun c r => c.each (List.range r.parts) fun c p =>
        match d.lineBytes row r p with
        | some bs => c.modBurst (.tensorWr k row r.block p) fun b => { b with data := bs }
        | none => c).tags = c.tags :=
      Ctl.tags_each (fun c r => Ctl.tags_each (fun c p => by
        split
        · exact c.tags_modBurst _ fun _ => id
        · rfl) c _) c _
    have hsigned : ∀ c' : Ctl, c'.tags = c.tags → (if c'.paired && d.memDst then c'.signRows k d.rowsN else c').tags = c.tags :=
      fun c' h => (Ctl.tags_ite (Ctl.tags_each (fun c _ => by
        split
        · exact c.tags_signRow _
        · rfl) c' _)).trans h
    dsimp only
    split
    · split
      · exact hsigned _ hlines
      · refine (Ctl.tags_each (fun c b => ?_) _ _).trans (hsigned _ hlines)
        split
        · rfl
        · split <;> rfl
    · exact hsigned _ hlines

/-! ### Ports -/

theorem Ctl.tags_beat (c : Ctl) (st : Stream) (who : Account) : (c.beat st who).tags = c.tags := by
  unfold Ctl.beat
  dsimp only
  split <;> exact c.paces_startDawn.drops.tags

theorem Ctl.tags_needKey (c : Ctl) (n : Nat) (a : Assign) : (c.needKey n a).tags = c.tags := by
  unfold Ctl.needKey
  split
  · rfl
  · refine Ctl.tags_cond rfl (Ctl.tags_cond (Ctl.paces_startDawn _).drops.tags (c.tags_request fun b hb => ?_))
    obtain ⟨i, -, rfl⟩ := List.mem_map.mp hb
    rfl

theorem Ctl.latchHit_mem (c : Ctl) (n s : Nat) (k : Key) (l : Latch) : (c.latchHit n s k l).mem = c.mem := by
  unfold Ctl.latchHit Ctl.putOperand
  dsimp only
  rw [Ctl.modPort_mem, Ctl.charge_mem]
  rfl

theorem Ctl.tags_fetchStream (c : Ctl) (n s : Nat) : (c.fetchStream n s).tags = c.tags := by
  unfold Ctl.fetchStream
  split
  · rfl
  · split
    · rfl
    · split
      · rfl
      · split
        · exact Ctl.tags_of_mem (c.latchHit_mem _ _ _ _)
        · split <;> rfl

theorem Ctl.tags_raiseReq (c : Ctl) (n : Nat) : (c.raiseReq n).tags = c.tags := by
  unfold Ctl.raiseReq
  split
  · rfl
  · dsimp only
    split
    · rfl
    · split
      · split
        · exact c.paces_startDawn.drops.tags
        · rw [Ctl.tags, Ctl.emit_mem, Ctl.modPort_mem]
          exact (Ctl.tags_beat _ _ _).trans c.paces_startDawn.drops.tags
      · rfl

theorem Ctl.tags_pumpPort (c : Ctl) (n : Nat) : (c.pumpPort n).tags = c.tags := by
  have hfeed : (c.feedKeys n).tags = c.tags := Ctl.tags_each (fun c a => by
    split
    · rfl
    · exact c.tags_needKey n a) c _
  unfold Ctl.pumpPort
  split
  · rfl
  · exact ((Ctl.tags_raiseReq _ n).trans ((Ctl.tags_fetchStream _ n 2).trans ((Ctl.tags_fetchStream _ n 1).trans
      (Ctl.tags_fetchStream _ n 0)))).trans hfeed

/-! ### Data that has been read -/

theorem Ctl.tags_takeLine (c : Ctl) (k : Key) (f : Desc → Desc) (row : Nat) :
    (((c.modDesc k f).feedRow k row).tensorProgress k).tags = c.tags :=
  (Ctl.drops_tensorProgress _ k).tags.trans (Ctl.tags_feedRow _ k row)

theorem Ctl.tags_keyLine (c : Ctl) (k : Key) (row block part : Nat) (bs : List Byte) :
    (c.keyLine k row block part bs).tags = c.tags := by
  have hpart : ∀ d, (c.keyPart d row block part bs).tags = c.tags := by
    intro d
    unfold Ctl.keyPart
    dsimp only
    split
    · rfl
    · exact (Ctl.tags_pumpPort _ _).trans (Ctl.drops_tensorProgress _ _).tags
  unfold Ctl.keyLine
  split
  · rfl
  · split
    · exact hpart _
    · exact c.tags_takeLine k _ row

theorem Ctl.tags_acceptIndex (c : Ctl) (k v : Nat) : (c.acceptIndex k v).tags = c.tags := by
  unfold Ctl.acceptIndex
  dsimp only
  split
  · rfl
  · split
    · exact (Ctl.drops_drain _ _ _).tags
    · exact Ctl.tags_ite (Ctl.drops_wakeOnWork _).tags

theorem Ctl.tags_acceptFetch (c : Ctl) (k i : Nat) (bs : List Byte) : (c.acceptFetch k i bs).tags = c.tags := by
  unfold Ctl.acceptFetch Ctl.meetOutcome
  split
  · rfl
  · dsimp only
    split
    · split
      · exact (Ctl.drops_rowFail _ _ _).tags
      · exact (Ctl.drops_finish _ _ _ _).tags
    · rfl

theorem Ctl.tags_burstData (c : Ctl) (b : Burst) (bs : List Byte) : (c.burstData b bs).tags = c.tags := by
  unfold Ctl.burstData
  split
  · exact c.tags_acceptFetch _ _ _
  · exact c.tags_acceptIndex _ _
  · split
    · exact c.tags_takeLine _ _ _
    · rfl
  · exact c.tags_keyLine _ _ _ _ _
  · rfl
  · rfl
  · rfl

/-! ### Writes that are acknowledged -/

theorem Ctl.tags_writeRetire (c : Ctl) (k : Nat) : (c.writeRetire k).tags = c.tags := by
  unfold Ctl.writeRetire
  split
  · dsimp only
    split
    · rfl
    · exact Ctl.tags_requestOne _ _ _ _ _ _ _
  · rfl

theorem Ctl.tags_readIndex (c : Ctl) (k : Nat) : (c.readIndex k).tags = c.tags := by
  unfold Ctl.readIndex
  split
  · rfl
  · split
    · rfl
    · exact Ctl.tags_requestOne _ _ _ _ _ _ _

theorem Ctl.tags_runRing (c : Ctl) (k : Nat) : (c.runRing k).tags = c.tags := by
  have harm : ∀ c : Ctl, (c.armWatch k).tags = c.tags := fun c => Ctl.tags_ite (Ctl.tags_requestOne _ _ _ _ _ _ _)
  exact (Ctl.tags_readIndex _ k).trans (harm _)

theorem Ctl.drops_notify (c : Ctl) (d : Desc) : c.Drops (c.notify d) := by
  unfold Ctl.notify
  split
  · exact .refl c
  · exact .ite (c.drops_putMask _ true (by decide) (by decide))

theorem Ctl.tags_signal (c : Ctl) (d : Desc) : (c.signal d).tags = c.tags := Ctl.tags_ite (Ctl.drops_fences _).tags

theorem Ctl.tags_advanceRetire (c : Ctl) (k : Nat) : (c.advanceRetire k).tags = c.tags :=
  Ctl.tags_ite (Ctl.tags_writeRetire _ k)

theorem Ctl.tags_recordDone (c : Ctl) (d : Desc) : (c.recordDone d).tags = c.tags := by
  have hcount : ∀ (c : Ctl) (p : Prop) [Decidable p] (off : Nat), (if p then c.count off 1 else c).tags = c.tags :=
    fun c p _ off => Ctl.tags_ite rfl
  have hrest : ∀ c : Ctl, (if (c.ring d.key.ring).starting && (c.ringDescs d.key.ring).isEmpty then c.runRing d.key.ring
      else if c.heldCount d.key.ring < 64 then c.readIndex d.key.ring else c).tags = c.tags := fun c => by
    split
    · exact c.tags_runRing _
    · exact Ctl.tags_ite (c.tags_readIndex _)
  unfold Ctl.recordDone
  dsimp only
  refine (hrest _).trans ((Ctl.drops_settleRing _ _).tags.trans ((Ctl.tags_ite (Ctl.drops_drain _ _ _).tags).trans ?_))
  exact (Ctl.tags_advanceRetire _ _).trans ((Ctl.drops_notify _ d).tags.trans ((Ctl.tags_signal _ d).trans (hcount _ _ _)))

theorem Ctl.tags_burstWritten (c : Ctl) (b : Burst) : (c.burstWritten b).tags = c.tags := by
  unfold Ctl.burstWritten
  split
  · split
    · exact Ctl.tags_requestOne _ _ _ _ _ _ _
    · rfl
  · split
    · split
      · exact c.tags_recordDone _
      · exact (c.drops_notify _).tags
    · rfl
  · exact c.tags_writeRetire _
  · exact (((c.drops_close _).trans (Ctl.drops_tensorProgress _ _)).trans (Ctl.drops_fences _)).tags
  · rfl

end Sys2Proof.Machine

/-!
SUPPORT. Bursts that end (R238): the tag is free, failures are counted, a fetched descriptor is held at step 3 (R125) unless the
peer of a pair has met its outcome (R318); and the settled statement about them.
-/
namespace Sys2Proof.Machine

/-! ### Completing a descriptor leaves the words of every descriptor -/

/-- Keys and words of the descriptors. -/
def Ctl.scripts (c : Ctl) : List (Key × List Word) := c.descs.map fun d => (d.key, d.words)

theorem Ctl.Beside.scripts {c c' : Ctl} (h : c.Beside c') : c'.scripts = c.scripts := by rw [Ctl.scripts, h.descs, Ctl.scripts]

theorem Ctl.scripts_modDesc (c : Ctl) (k : Key) {f : Desc → Desc} (hf : ∀ d, (f d).key = d.key ∧ (f d).words = d.words) :
    (c.modDesc k f).scripts = c.scripts := by
  simp only [Ctl.scripts, Ctl.modDesc, List.map_map]
  refine List.map_congr_left fun d _ => ?_
  simp only [Function.comp]
  split
  · rw [(hf d).1, (hf d).2]
  · rfl

theorem Ctl.scripts_abandonFresh (c : Ctl) (k : Key) : (c.abandonFresh k).scripts = c.scripts := by
  unfold Ctl.abandonFresh
  dsimp only
  refine (Ctl.scripts_modDesc _ k fun _ => by exact ⟨rfl, rfl⟩).trans ((Ctl.clearSlots_beside _ _).scripts.trans ?_)
  have hfree : c.Beside (c.each ((c.slots.filter fun p => p.2.state = .free && p.2.owner = .desc k).map (·.1)) fun c n =>
      c.modSlot n fun s => { s with owner := .none }) := .each c _ fun c n => c.modSlot_beside n _
  split
  · exact hfree.scripts
  · exact (hfree.trans (Ctl.setSlotTab_beside _ _)).scripts

theorem Ctl.scripts_close (c : Ctl) (k : Key) : (c.close k).scripts = c.scripts := by
  unfold Ctl.close
  split
  · rfl
  · split
    · rfl
    · exact c.scripts_modDesc k fun _ => ⟨rfl, rfl⟩

theorem Ctl.scripts_fixNow (c : Ctl) (k : Key) (st de : Nat) : (c.fixNow k st de).scripts = c.scripts := by
  have hrefuse : ∀ c : Ctl, c.Beside ((c.setRf rXN_STATUS 16 8 de).count rREFUSALS 1) := fun c =>
    (Ctl.Beside.setReg c _ (by decide) (by decide)).trans (.setReg _ _ (by decide) (by decide))
  unfold Ctl.fixNow
  split
  · rfl
  · split
    · rfl
    · dsimp only
      refine (Ctl.reapRetired_beside _).scripts.trans ((Ctl.scripts_close _ _).trans
        ((Ctl.scripts_modDesc _ k fun _ => by exact ⟨rfl, rfl⟩).trans ?_))
      rw [(Ctl.Beside.ite (Ctl.barrier_beside _ _)).scripts, (Ctl.Beside.ite (hrefuse _)).scripts,
        (Ctl.Beside.ite (Ctl.sendOutcome_beside _ _ _ _ _)).scripts, (Ctl.releaseMap_beside _ _).scripts,
        Ctl.scripts_abandonFresh, (c.withdraw_beside k).scripts]

theorem Ctl.scripts_propose (c : Ctl) (d : Desc) (st de : Nat) : (c.propose d st de).scripts = c.scripts := by
  have hput : (((c.withdraw d.key).releaseMap d.key).modDesc d.key fun e => e.proposing st de).scripts = c.scripts :=
    (Ctl.scripts_modDesc _ d.key fun _ => by exact ⟨rfl, rfl⟩).trans
      ((Ctl.releaseMap_beside _ _).scripts.trans (c.withdraw_beside d.key).scripts)
  unfold Ctl.propose
  dsimp only
  split
  · exact hput
  · exact (Ctl.sendSig_beside _ _ _ _).scripts.trans hput

theorem Ctl.scripts_agree (c : Ctl) (d : Desc) (st de : Nat) : (c.agree d st de).scripts = c.scripts := by
  unfold Ctl.agree
  dsimp only
  split
  · split
    · exact Ctl.scripts_fixNow _ _ _ _
    · exact (Ctl.mismatch_beside _ _ _ _).scripts
  · rfl

theorem Ctl.scripts_fix (c : Ctl) (k : Key) (st de : Nat) : (c.fix k st de).scripts = c.scripts := by
  unfold Ctl.fix
  split
  · rfl
  · split
    · exact c.scripts_fixNow k st de
    · split
      · rfl
      · exact (Ctl.scripts_agree _ _ st de).trans (c.scripts_propose _ st de)

theorem Ctl.scripts_finish (c : Ctl) (k : Key) (st de : Nat) : (c.finish k st de).scripts = c.scripts :=
  Ctl.finish_induction (P := fun e => e.scripts = c.scripts) (fun _ _ hb h => hb.scripts.trans h)
    (fun e j st' de' _ h => (e.scripts_fix j st' de').trans h) k de (c.scripts_fix k st de)

/-! ### A descriptor that has been fetched (R125, R318) -/

theorem Ctl.meetOutcome_rings (c : Ctl) (k : Key) (status detail cursor : Nat) :
    (c.meetOutcome k status detail cursor).rings = c.rings := by
  unfold Ctl.meetOutcome Ctl.dropSig
  dsimp only
  split
  · unfold Ctl.rowFail
    split
    · rfl
    · exact (Ctl.ends_dropBursts _ _).rings
  · exact (c.ends_finish _ _ _).rings

/-- An outcome of the peer leaves the words of every descriptor. -/
theorem Ctl.scripts_meetOutcome (c : Ctl) (k : Key) (status detail cursor : Nat) :
    (c.meetOutcome k status detail cursor).scripts = c.scripts := by
  have hrow : ∀ f, (c.rowFail k f).scripts = c.scripts := by
    intro f
    unfold Ctl.rowFail
    split
    · rfl
    · exact (Ctl.dropBursts_beside _ _).scripts.trans (c.scripts_modDesc k fun _ => ⟨rfl, rfl⟩)
  have hend : ((if status = 0x20 then c.rowFail k { row := cursor, status := 0x20, detail := detail, parks := true }
      else c.finish k status detail)).scripts = c.scripts := by
    split
    · exact hrow _
    · exact c.scripts_finish _ _ _
  exact hend

/-- The words of a ring that runs become a descriptor: held at step 3 where the peer has met no outcome for it. -/
theorem Ctl.acceptFetch_spec {c : Ctl} {k : Nat} (hrun : c.running k = true) (i : Nat) (bs : List Byte) :
    ((c.acceptFetch k i bs).ring k).nextIdx = i + 1 ∧ ((c.acceptFetch k i bs).ring k).fetching = false ∧
    ∃ d ∈ (c.acceptFetch k i bs).descs, d.key = { ring := k, idx := i, sub := 0 } ∧ d.words = bytesWords bs ∧
      ((∀ o ∈ c.outcomes, ¬ (o.ring = k ∧ o.idx = i)) → d.stage = .hold) := by
  let d := Desc.fetched { ring := k, idx := i, sub := 0 } (c.ringDomain k) (bytesWords bs)
  let c' : Ctl := { c.modRing k (fun r => { r with fetching := false, nextIdx := i + 1 }) with descs := c.descs ++ [d] }
  have hring : ∀ t : Ctl, t.rings = c'.rings → (t.ring k).nextIdx = i + 1 ∧ (t.ring k).fetching = false := fun t h => by
    have hself : t.ring k = { c.ring k with fetching := false, nextIdx := i + 1 } := by
      rw [Ctl.ring, h]
      exact Tab.get_set_self _ _ _ _
    rw [hself]
    exact ⟨rfl, rfl⟩
  have hin : d ∈ c'.descs := List.mem_append_right _ (List.mem_singleton.mpr rfl)
  unfold Ctl.acceptFetch
  rw [if_neg (by simp [hrun])]
  dsimp only
  split
  next o ho =>
    obtain ⟨hnext, hfetch⟩ := hring _ (Ctl.meetOutcome_rings { c' with outcomes := c'.outcomes.filter fun x => x ≠ o } d.key
      o.status o.detail o.cursor)
    have hscript := Ctl.scripts_meetOutcome { c' with outcomes := c'.outcomes.filter fun x => x ≠ o } d.key o.status o.detail o.cursor
    have hmem : (d.key, d.words) ∈ c'.scripts := List.mem_map_of_mem (f := fun d : Desc => (d.key, d.words)) hin
    rw [show c'.scripts = _ from hscript.symm] at hmem
    obtain ⟨e, he, hsame⟩ := List.mem_map.mp hmem
    refine ⟨hnext, hfetch, e, he, congrArg Prod.fst hsame, congrArg Prod.snd hsame, fun hnone => ?_⟩
    have hmet := List.find?_some ho
    exact absurd (by simpa using hmet) (hnone o (List.mem_of_find?_eq_some ho))
  next =>
    obtain ⟨hnext, hfetch⟩ := hring c' rfl
    exact ⟨hnext, hfetch, d, hin, rfl, rfl, fun _ => rfl⟩

/-! ### The end of a burst -/

/-- Where no issued burst has a tag on a channel. -/
theorem Ctl.notMem_tags {c : Ctl} {m tag : Nat} (h : (m, tag) ∉ c.tags) :
    ∀ e ∈ c.mem.bursts, ¬ (e.state = .issued ∧ e.ch = m ∧ e.tag = tag) := by
  rintro e he ⟨hissued, rfl, rfl⟩
  exact h (List.mem_filterMap.mpr ⟨e, he, if_pos hissued⟩)

/-- The burst is taken out, and an invalidation that waited for it may be done. -/
def Ctl.burstOut (c : Ctl) (b : Burst) : Ctl := (c.removeBurst b.ch b.tag).invalDone

theorem Ctl.burstOut_tags (c : Ctl) (b : Burst) : (b.ch, b.tag) ∉ (c.burstOut b).tags := by
  rw [Ctl.burstOut, (Ctl.drops_invalDone _).tags]
  intro hmem
  obtain ⟨e, he, hout⟩ := List.mem_filterMap.mp hmem
  have hkept := (List.mem_filter.mp he).2
  unfold Burst.out? at hout
  split at hout
  next hissued =>
    obtain ⟨hch, htag⟩ := Prod.mk.inj (Option.some.inj hout)
    simp [hissued, hch, htag] at hkept
  next => exact absurd hout (by simp)

theorem Ctl.burstOut_counts (c : Ctl) (b : Burst) {o : Nat} (h : o ∈ failCounters) : (c.burstOut b).reg o = c.reg o :=
  (Ctl.drops_invalDone (c.removeBurst b.ch b.tag)).counts o h

theorem Ctl.burstOut_resetting (c : Ctl) (b : Burst) : (c.burstOut b).resetting = c.resetting := by
  unfold Ctl.burstOut Ctl.invalDone
  split <;> rfl

theorem Ctl.burstOut_outcomes (c : Ctl) (b : Burst) : (c.burstOut b).outcomes = c.outcomes := by
  unfold Ctl.burstOut Ctl.invalDone
  split <;> rfl

theorem Ctl.burstOut_ringState (c : Ctl) (b : Burst) (k : Nat) : (c.burstOut b).ringState k = c.ringState k := by
  have hne : rATC_INVAL ≠ rRING_STATUS k := by
    rw [rATC_INVAL, rRING_STATUS]
    omega
  have hreg : (c.burstOut b).reg (rRING_STATUS k) = c.reg (rRING_STATUS k) := by
    unfold Ctl.burstOut Ctl.invalDone
    split
    · exact Ctl.reg_setReg_ne _ _ hne
    · rfl
  rw [Ctl.ringState, Ctl.rf, hreg, Ctl.ringState, Ctl.rf]

theorem Ctl.burstEnd_okay {c : Ctl} (h : c.resetting = false) (b : Burst) (bs : List Byte) :
    c.burstEnd b 0 bs = (c.burstOut b).burstOkay b bs := by
  unfold Ctl.burstEnd
  dsimp only
  rw [if_neg (by rw [show (c.removeBurst b.ch b.tag).invalDone.resetting = _ from c.burstOut_resetting b, h]; decide)]
  rfl

theorem Ctl.burstEnd_lost {c : Ctl} (h : c.resetting = false) (b : Burst) {code : Nat} (hcode : code ≠ 0) (bs : List Byte) :
    c.burstEnd b code bs = (c.burstOut b).burstLost b (code = 1) := by
  unfold Ctl.burstEnd
  dsimp only
  rw [if_neg (by rw [show (c.removeBurst b.ch b.tag).invalDone.resetting = _ from c.burstOut_resetting b, h]; decide),
    if_neg hcode]
  rfl

theorem Ctl.tags_burstOkay (c : Ctl) (b : Burst) (bs : List Byte) : (c.burstOkay b bs).tags = c.tags :=
  Ctl.tags_cond (c.tags_burstWritten b) (c.tags_burstData b bs)

/-- A burst that is lost is counted once, and what fails with it drops bursts. -/
theorem Ctl.drops_burstLost (c : Ctl) (b : Burst) (absent : Bool) :
    (c.count (if absent then rREMOTE_FAILS else rDATA_ERRS) 1).Drops (c.burstLost b absent) := by
  have hclose : ∀ (c : Ctl) (k : Key), c.Drops (((c.close k).tensorProgress k).fences) := fun c k =>
    ((c.drops_close k).trans (Ctl.drops_tensorProgress _ k)).trans (Ctl.drops_fences _)
  have hfails : ∀ c : Ctl, c.Drops (if absent then c.burstFails b 0x22 (accessDetail b.access) false
      else c.burstFails b 0x31 0 false) := fun c => by
    split
    · exact c.drops_burstFails _ _ _ _
    · exact c.drops_burstFails _ _ _ _
  unfold Ctl.burstLost
  dsimp only
  generalize c.count (if absent then rREMOTE_FAILS else rDATA_ERRS) 1 = c
  split
  · exact Ctl.drops_finish _ _ _ _
  · split
    · exact (hfails _).trans (hclose _ _)
    · exact hfails _

/-- A burst that ends frees its tag. -/
theorem Ctl.burstEnd_tags {c : Ctl} (h : c.resetting = false) (b : Burst) (code : Nat) (bs : List Byte) :
    (c.burstEnd b code bs).tags = (c.burstOut b).tags := by
  by_cases hcode : code = 0
  · subst hcode
    rw [Ctl.burstEnd_okay h]
    exact Ctl.tags_burstOkay _ b bs
  · rw [Ctl.burstEnd_lost h b hcode]
    exact (Ctl.drops_burstLost _ b _).tags

/-- A counter that went up by one, as a word. -/
theorem Ctl.reg_of_counted {c c' : Ctl} {off n : Nat} (h : c.counted c' off n) :
    c'.reg off = word (min ((c.reg off).toNat + n) (2 ^ 32 - 1)) := by
  refine BitVec.eq_of_toNat_eq ?_
  rw [h, word, BitVec.toNat_ofNat, Nat.mod_eq_of_lt (by omega)]

/-- A burst that is lost is counted in its counter. -/
theorem Ctl.burstEnd_counted {c : Ctl} (h : c.resetting = false) (b : Burst) {code : Nat} (hcode : code ≠ 0) (bs : List Byte)
    {off : Nat} (hoff : off = if code = 1 then rREMOTE_FAILS else rDATA_ERRS) : c.counted (c.burstEnd b code bs) off 1 := by
  have hin : off ∈ failCounters := by
    rw [hoff]
    split <;> decide
  have hlost := (Ctl.drops_burstLost (c.burstOut b) b (code = 1)).counts off hin
  rw [Ctl.burstEnd_lost h b hcode]
  refine Ctl.counted_of_before (c.burstOut_counts b hin) (hlost.trans ?_)
  simp only [hoff, decide_eq_true_eq]

/-! ### The commands -/

/-- What the block takes outside a reset it takes in a command that a reset takes too. -/
theorem resetStep_takes {i : Instr} {s : State} (f : Ctl → Ctl) (h : s.takes i = true) :
    resetStep i s f = .next { s with ctl := f s.ctl } ∧ s.ctl.resetting = false := by
  simp only [State.takes, Bool.and_eq_true, Bool.not_eq_true', Option.isNone_iff_eq_none] at h
  obtain ⟨⟨⟨hoff, hin⟩, hwait⟩, hwf⟩ := h
  exact ⟨by simp [resetStep, hoff, hin, hwf], by simp [Ctl.resetting, hin, hwait]⟩

theorem Ctl.outstanding_place {c : Ctl} {m tag : Nat} {b : Burst} (h : c.outstanding m tag = some b) : b.ch = m ∧ b.tag = tag := by
  have hsel := List.find?_some h
  simp only [Bool.and_eq_true, decide_eq_true_eq] at hsel
  exact ⟨hsel.1.2, hsel.2⟩

theorem exec_burstResponse {s : State} {m tag code : Nat} {bs : List Byte} {b : Burst}
    (ht : s.takes (.burstResponse m tag code bs) = true) (hb : s.ctl.outstanding m tag = some b) :
    exec (.burstResponse m tag code bs) s = .next { s with ctl := s.ctl.burstEnd b code bs } := by
  change execBurstResponse m tag code bs s = _
  rw [execBurstResponse, (resetStep_takes _ ht).1, hb]

theorem exec_burstTimeout {s : State} {m tag : Nat} {b : Burst} (ht : s.takes (.burstTimeout m tag) = true)
    (hb : s.ctl.outstanding m tag = some b) (hdue : b.deadline ≤ s.ctl.refTicks) (hnight : s.ctl.pstate ≠ 4) :
    exec (.burstTimeout m tag) s = .next { s with ctl := s.ctl.burstEnd b 1 [] } := by
  change execBurstTimeout m tag s = _
  rw [execBurstTimeout, (resetStep_takes _ ht).1, hb]
  simp [Ctl.due, hdue, hnight]

/-- A burst that ends leaves no issued burst on its channel and tag. -/
theorem Ctl.burstEnd_frees {c : Ctl} (h : c.resetting = false) {m tag : Nat} {b : Burst} (hb : c.outstanding m tag = some b)
    (code : Nat) (bs : List Byte) :
    ∀ e ∈ (c.burstEnd b code bs).mem.bursts, ¬ (e.state = .issued ∧ e.ch = m ∧ e.tag = tag) := by
  obtain ⟨rfl, rfl⟩ := Ctl.outstanding_place hb
  refine Ctl.notMem_tags ?_
  rw [Ctl.burstEnd_tags h]
  exact c.burstOut_tags b

/-- Settles O30: whatever the answer of a burst sets off, no burst goes out, so that the tag stays free. -/
theorem burstAnswers : Obligations.BurstAnswers := by
  unfold Obligations.BurstAnswers
  refine ⟨fun s m tag code bs b ht hb => ?_, fun s m tag b ht hb hdue hnight => ?_⟩
  · have hup := (resetStep_takes id ht).2
    refine ⟨_, exec_burstResponse ht hb, Ctl.burstEnd_frees hup hb code bs, fun hcode => ?_, fun hcode => ?_,
      fun k i hcode hfetch haccess hrun => ?_⟩
    · exact Ctl.reg_of_counted (Ctl.burstEnd_counted hup b (by omega) bs (by rw [if_pos hcode]))
    · exact Ctl.reg_of_counted (Ctl.burstEnd_counted hup b (by omega) bs (by rw [if_neg (by omega)]))
    · subst hcode
      have hread : (s.ctl.burstOut b).burstOkay b bs = (s.ctl.burstOut b).acceptFetch k i bs := by
        simp [Ctl.burstOkay, Burst.isWrite, haccess, Ctl.burstData, hfetch]
      have hrunning : (s.ctl.burstOut b).running k = true := by
        rw [Ctl.running, Ctl.burstOut_ringState, hrun]
        rfl
      rw [Ctl.burstEnd_okay hup, hread, ← s.ctl.burstOut_outcomes b]
      exact Ctl.acceptFetch_spec hrunning i bs
  · have hup := (resetStep_takes id ht).2
    exact ⟨_, exec_burstTimeout ht hb hdue hnight, Ctl.burstEnd_frees hup hb 1 [],
      Ctl.reg_of_counted (Ctl.burstEnd_counted hup b (by decide) [] rfl)⟩

end Sys2Proof.Machine

/-!
SUPPORT. The counter registers that a read of CNT_GRANT_LO captures (R288), and the settled statement about them.
-/
namespace Sys2Proof.Machine

/-! ### Captured counters (R288) -/

/-- A capture changes its four registers alone. -/
theorem Ctl.capture_setsOnly (c : Ctl) (v : Nat × Nat × Nat) (gl gh wl wh : Nat) :
    c.SetsOnly (c.capture v gl gh wl wh) [gl, gh, wl, wh] := by
  have hgl := Ctl.SetsOnly.setReg c (off := gl) (offs := [gl, gh, wl, wh]) (word v.1) (by simp)
  have hgh := hgl.trans (.setReg _ (off := gh) (word (v.1 / 2 ^ 32 + v.2.2 * 2 ^ 16)) (by simp))
  have hwl := hgh.trans (.setReg _ (off := wl) (word v.2.1) (by simp))
  exact hwl.trans (.setReg _ (off := wh) (word (v.2.1 / 2 ^ 32)) (by simp))

/-- Four different registers hold the fields of Table 9.6 after a capture. -/
theorem Ctl.capture_reg (c : Ctl) (v : Nat × Nat × Nat) {gl gh wl wh : Nat} (h : [gl, gh, wl, wh].Nodup) :
    (c.capture v gl gh wl wh).reg gl = word v.1 ∧
    (c.capture v gl gh wl wh).reg gh = word (v.1 / 2 ^ 32 + v.2.2 * 2 ^ 16) ∧
    (c.capture v gl gh wl wh).reg wl = word v.2.1 ∧ (c.capture v gl gh wl wh).reg wh = word (v.2.1 / 2 ^ 32) := by
  simp only [List.nodup_cons, List.mem_cons, List.not_mem_nil, or_false, not_or] at h
  obtain ⟨⟨gl_gh, gl_wl, gl_wh⟩, ⟨gh_wl, gh_wh⟩, wl_wh, -⟩ := h
  simp [Ctl.capture, Ctl.reg_setReg, Ne.symm gl_gh, Ne.symm gl_wl, Ne.symm gl_wh, Ne.symm gh_wl, Ne.symm gh_wh,
    Ne.symm wl_wh]

/-- A state whose control captures counters, and whose REG_RDATA answers the low register, meets the frame of a register command
and holds the other three fields. -/
theorem State.setsRegs_of_capture {s : State} (v : Nat × Nat × Nat) {gl gh wl wh : Nat} (h : [gl, gh, wl, wh].Nodup) {t : State}
    (ht : t = { s with ctl :=
      { s.ctl.capture v gl gh wl wh with regRdata := (s.ctl.capture v gl gh wl wh).reg gl } }) :
    s.setsRegs t [gl, gh, wl, wh] (word v.1) ∧ t.ctl.reg gh = word (v.1 / 2 ^ 32 + v.2.2 * 2 ^ 16) ∧
      t.ctl.reg wl = word v.2.1 ∧ t.ctl.reg wh = word (v.2.1 / 2 ^ 32) := by
  obtain ⟨hlow, hrest⟩ := s.ctl.capture_reg v h
  rw [hlow] at ht
  subst ht
  exact ⟨(s.ctl.capture_setsOnly v gl gh wl wh).setsRegs _, hrest⟩

/-! ### CNT_GRANT_LO_READ -/

/-- What REG_RDATA held before the read has no part in the capture. -/
theorem Ctl.readCounters_regRdata (c : Ctl) (r : Word) (blockWide : Bool) (n : Nat) :
    { c with regRdata := r }.readCounters blockWide n = { c.readCounters blockWide n with regRdata := r } := by
  cases blockWide <;> rfl

/-- A read that is answered captures the selected counters and answers the low register. -/
theorem exec_cntGrantLoRead {s : State} {blockWide : Bool} {n off : Nat} {id : Byte}
    (hoff : off = if blockWide then rBCNT_GRANT_LO else rCNT_GRANT_LO n)
    (h : s.reaches (.cntGrantLoRead blockWide n id) id off = true) :
    exec (.cntGrantLoRead blockWide n id) s = .next { s with ctl :=
      { s.ctl.readCounters blockWide n with regRdata := (s.ctl.readCounters blockWide n).reg off } } := by
  simp only [State.reaches, Ctl.answers, Bool.and_eq_true, decide_eq_true_eq, Bool.not_eq_true'] at h
  obtain ⟨htakes, hid, hgate⟩ := h
  have hgate' : ({ s.ctl with regRdata := 0 } : Ctl).gated off = false := hgate
  change execCntGrantLoRead blockWide n id s = _
  rw [execCntGrantLoRead, ctlStep_takes _ htakes]
  simp only [← hoff, Ctl.access_ok _ hid hgate', Ctl.readCounters_regRdata]
  rfl

/-- Settles O8: a read captures the sums of what ARB_SEL or ARB_BSEL selects, and the four registers of a slice, or of the block,
are different ones. -/
theorem counterReadCaptures : Obligations.CounterReadCaptures := by
  unfold Obligations.CounterReadCaptures
  refine ⟨fun s n id h => ?_, fun s n id h => ?_⟩
  · exact ⟨_, _, rfl, exec_cntGrantLoRead rfl h, State.setsRegs_of_capture _ (by simp) rfl⟩
  · exact ⟨_, _, rfl, exec_cntGrantLoRead rfl h, State.setsRegs_of_capture _ (by simp) rfl⟩

end Sys2Proof.Machine

/-!
SUPPORT. PAIR_CTL and the peer's word (R314, Table 10.5), and the settled statement about forming a pair.
-/
namespace Sys2Proof.Machine

/-! ### Errors and checks of a pair (Table 10.5) -/

theorem Ctl.pairErr_setsOnly (c : Ctl) (cause : Nat) : c.SetsOnly (c.pairErr cause) [rPAIR_STATUS] :=
  (Ctl.SetsOnly.raise c 0 List.mem_cons_self).trans (.setRf _ 8 3 cause List.mem_cons_self)

/-- An error that PAIR_STATUS reports: ERR and its cause, with PAIRED as it was. -/
theorem Ctl.pairErr_spec (c : Ctl) {cause : Nat} (h : cause < 8) :
    bit ((c.pairErr cause).reg rPAIR_STATUS) 0 = true ∧ fld ((c.pairErr cause).reg rPAIR_STATUS) 8 3 = cause ∧
      bit ((c.pairErr cause).reg rPAIR_STATUS) 31 = bit (c.reg rPAIR_STATUS) 31 := by
  refine ⟨?_, ?_, ?_⟩
  · rw [Ctl.pairErr, Ctl.bit_setRf_apart _ _ _ (by decide)]
    exact Ctl.bit_raise_self c rPAIR_STATUS (by decide)
  · rw [Ctl.pairErr, Ctl.reg_setRf, if_pos rfl, fld_setFld_same _ _ (by decide)]
    exact Nat.mod_eq_of_lt h
  · rw [Ctl.pairErr, Ctl.bit_setRf_apart _ _ _ (by decide), Ctl.reg_raise, if_pos rfl, bit_raised _ (by decide)]
    simp

theorem Ctl.checkPair_setsOnly (c : Ctl) : c.SetsOnly c.checkPair [rPAIR_STATUS] := by
  unfold Ctl.checkPair
  split
  · exact .refl c _
  · split
    · exact .refl c _
    · split
      · exact c.pairErr_setsOnly 3
      · split
        · exact c.pairErr_setsOnly 4
        · split
          · exact c.pairErr_setsOnly 5
          · exact .raise c 31 List.mem_cons_self

/-- The peer's words make a pair of the other role, the same slices and the same contract, and otherwise an error. -/
theorem Ctl.checkPair_spec {c : Ctl} {w0 w1 : Word} (hwords : (c.link c.pairLink).pair = some (w0, w1))
    (hen : bit (c.reg rPAIR_CTL) 0 = true) (halone : bit (c.reg rPAIR_STATUS) 31 = false) (hgated : c.linksGated = false) :
    (bit (c.checkPair.reg rPAIR_STATUS) 31 = true ↔ bit w0 0 ≠ bit (c.reg rPAIR_CTL) 1 ∧ c.slicesN = 64 ∧
      fld w0 8 7 = 64 ∧ fld w1 0 16 = c.contract) ∧
    (bit (c.checkPair.reg rPAIR_STATUS) 31 = false → bit (c.checkPair.reg rPAIR_STATUS) 0 = true ∧
      fld (c.checkPair.reg rPAIR_STATUS) 8 3 ∈ [3, 4, 5]) := by
  have herr : ∀ cause ∈ [3, 4, 5], bit ((c.pairErr cause).reg rPAIR_STATUS) 31 = false ∧
      bit ((c.pairErr cause).reg rPAIR_STATUS) 0 = true ∧ fld ((c.pairErr cause).reg rPAIR_STATUS) 8 3 ∈ [3, 4, 5] := by
    intro cause hcause
    obtain ⟨hbit, hfld, hpaired⟩ := c.pairErr_spec (cause := cause) (by simp at hcause; omega)
    exact ⟨hpaired.trans halone, hbit, by rwa [hfld]⟩
  have hfails : ∀ {cause : Nat} {p : Prop}, cause ∈ [3, 4, 5] → ¬ p →
      (bit ((c.pairErr cause).reg rPAIR_STATUS) 31 = true ↔ p) ∧ (bit ((c.pairErr cause).reg rPAIR_STATUS) 31 = false →
        bit ((c.pairErr cause).reg rPAIR_STATUS) 0 = true ∧ fld ((c.pairErr cause).reg rPAIR_STATUS) 8 3 ∈ [3, 4, 5]) :=
    fun hcause hp => by
      obtain ⟨hpaired, hrest⟩ := herr _ hcause
      exact ⟨⟨fun h => absurd (hpaired.symm.trans h) (by decide), fun h => absurd h hp⟩, fun _ => hrest⟩
  rw [Ctl.checkPair, hwords]
  simp only [hen, halone, hgated, Bool.not_true, Bool.or_self, Bool.false_eq_true, if_false]
  simp only [Bool.or_eq_true, decide_eq_true_eq]
  split
  next hrole => exact hfails (by decide) fun h => h.1 hrole
  next hrole =>
    split
    next hslices => exact hfails (by decide) fun h => hslices.elim (fun hown => hown h.2.1) fun hpeer => hpeer h.2.2.1
    next hslices =>
      split
      next hcontract => exact hfails (by decide) fun h => hcontract h.2.2.2
      next hcontract =>
        obtain ⟨hown, hpeer⟩ := not_or.mp hslices
        have hpaired : bit ((c.raise rPAIR_STATUS 31).reg rPAIR_STATUS) 31 = true := c.bit_raise_self rPAIR_STATUS (by decide)
        exact ⟨⟨fun _ => ⟨hrole, not_not.mp hown, not_not.mp hpeer, not_not.mp hcontract⟩, fun _ => hpaired⟩,
          fun h => absurd (hpaired.symm.trans h) (by decide)⟩

/-! ### PAIR_CTL (R314) -/

/-- The fields of PAIR_CTL that lead to the peer pass through its write mask. -/
theorem pairCtl_fields (d : Word) : fld (d &&& 0x333) 8 2 = fld d 8 2 ∧ fld (d &&& 0x333) 4 2 = fld d 4 2 := by
  have h8 : ∀ j < 2, bit 0x333#32 (8 + j) = true := by decide
  have h4 : ∀ j < 2, bit 0x333#32 (4 + j) = true := by decide
  have hbit : ∀ i, bit 0x333#32 i = true → bit (d &&& 0x333) i = bit d i := fun i h => by simp [h]
  exact ⟨fld_congr fun j hj => hbit _ (h8 j hj), fld_congr fun j hj => hbit _ (h4 j hj)⟩

/-- Words on a link change no register. -/
theorem Ctl.reg_sendLink (c : Ctl) (l kind ctl : Nat) (ws : List Word) (o : Nat) : (c.sendLink l kind ctl ws).reg o = c.reg o := by
  unfold Ctl.sendLink Ctl.sendLinkFor
  split
  · rfl
  · rw [Ctl.modLink_reg, Ctl.emit_reg]
    split
    · rfl
    · exact c.charge_reg .background 6 _ o

/-- PAIR_CTL as a write has set it. -/
def Ctl.asksPair (c : Ctl) (d : Word) : Ctl := c.setReg rPAIR_CTL (d &&& 0x333)

/-- The own word of a pair (Table 14.4). -/
def Ctl.ownPairWord (c : Ctl) (d : Word) : List Word := [word ((bit d 1).toNat + c.slicesN * 2 ^ 8), word c.contract]

theorem Ctl.asksPair_pairLink (c : Ctl) (d : Word) : (c.asksPair d).pairLink = (fld d 8 2 + 3 - fld d 4 2) % 4 := by
  obtain ⟨hself, hpeer⟩ := pairCtl_fields d
  have hreg : (c.asksPair d).reg rPAIR_CTL = d &&& 0x333 := Ctl.reg_setReg_self c _ _
  rw [Ctl.pairLink, Ctl.rf, Ctl.rf, hreg, hself, hpeer]

theorem Ctl.asksPair_contract (c : Ctl) (d : Word) : (c.asksPair d).contract = c.contract := by
  have hreg : (c.asksPair d).reg rCONTRACT_SEL = c.reg rCONTRACT_SEL := Ctl.reg_setReg_ne c _ (by decide)
  rw [Ctl.contract, Ctl.rf, hreg, Ctl.contract, Ctl.rf]

/-- What a write of PAIR_CTL does before the pair is formed. -/
theorem Ctl.writePairCtl_locked {c : Ctl} {d : Word} (halone : bit (c.reg rPAIR_STATUS) 31 = false)
    (hlock : bit (c.reg rCONTRACT_SEL) 16 = true) : c.writePairCtl d = c.pairErr 1 := by
  simp [Ctl.writePairCtl, halone, hlock]

theorem Ctl.writePairCtl_joined {c : Ctl} {d : Word} (halone : bit (c.reg rPAIR_STATUS) 31 = false)
    (hlock : bit (c.reg rCONTRACT_SEL) 16 = false) (hjoined : c.joined = true) : c.writePairCtl d = c.pairErr 2 := by
  simp [Ctl.writePairCtl, halone, hlock, hjoined]

theorem Ctl.writePairCtl_open {c : Ctl} {d : Word} (halone : bit (c.reg rPAIR_STATUS) 31 = false)
    (hlock : bit (c.reg rCONTRACT_SEL) 16 = false) (hjoined : c.joined = false) :
    c.writePairCtl d = if bit d 0 && decide ((fld d 8 2 + 3 - fld d 4 2) % 4 < 3) then
      ((c.asksPair d).sendLink ((fld d 8 2 + 3 - fld d 4 2) % 4) 2 0 (c.ownPairWord d)).checkPair else c.asksPair d := by
  rw [Ctl.writePairCtl, if_neg (by simp [halone]), if_neg (by simp [hlock]), if_neg (by simp [hjoined]), ← c.asksPair_pairLink d,
    Ctl.ownPairWord, ← c.asksPair_contract d]
  rfl

/-- A write that is taken sets PAIR_CTL to its fields, and may form the pair at once. -/
theorem Ctl.writePairCtl_open_regs {c : Ctl} {d : Word} (halone : bit (c.reg rPAIR_STATUS) 31 = false)
    (hlock : bit (c.reg rCONTRACT_SEL) 16 = false) (hjoined : c.joined = false) :
    c.keeps (c.writePairCtl d) [rPAIR_CTL, rPAIR_STATUS] ∧ (c.writePairCtl d).reg rPAIR_CTL = d &&& 0x333 := by
  have hset : c.keeps (c.asksPair d) [rPAIR_CTL, rPAIR_STATUS] ∧ (c.asksPair d).reg rPAIR_CTL = d &&& 0x333 :=
    ⟨(Ctl.SetsOnly.setReg c _ List.mem_cons_self).2, Ctl.reg_setReg_self c _ _⟩
  rw [Ctl.writePairCtl_open halone hlock hjoined]
  split
  · have hkeep : ∀ o, o ≠ rPAIR_STATUS → (((c.asksPair d).sendLink ((fld d 8 2 + 3 - fld d 4 2) % 4) 2 0
        (c.ownPairWord d)).checkPair).reg o = (c.asksPair d).reg o := fun o ho =>
      ((Ctl.checkPair_setsOnly _).2 o (by simpa using ho)).trans (Ctl.reg_sendLink _ _ _ _ _ o)
    exact ⟨fun o ho => (hkeep o fun h => ho (by simp [h])).trans (hset.1 o ho), (hkeep _ (by decide)).trans hset.2⟩
  · exact hset

/-- On open links the own word goes out at once. -/
theorem Ctl.writePairCtl_outbox {c : Ctl} {d : Word} (halone : bit (c.reg rPAIR_STATUS) 31 = false)
    (hlock : bit (c.reg rCONTRACT_SEL) 16 = false) (hjoined : c.joined = false) (hgated : c.linksGated = false)
    (howed : ∀ l < 3, (c.link l).owed = []) :
    (c.writePairCtl d).outbox = c.outbox ++ (if bit d 0 && (fld d 8 2 + 3 - fld d 4 2) % 4 < 3 then
      [.link ((fld d 8 2 + 3 - fld d 4 2) % 4) 2 0 (c.ownPairWord d)] else []) := by
  have hopen : (c.asksPair d).linksGated = false := by
    rw [← hgated, Ctl.linksGated, Ctl.pstate, Ctl.rf, Ctl.asksPair, Ctl.reg_setReg_ne c _ (by decide)]
    rfl
  rw [Ctl.writePairCtl_open halone hlock hjoined]
  split
  next hsend =>
    have hlink : (fld d 8 2 + 3 - fld d 4 2) % 4 < 3 := by
      simp only [Bool.and_eq_true, decide_eq_true_eq] at hsend
      exact hsend.2
    rw [(Ctl.checkPair_setsOnly _).1]
    exact Ctl.sendLink_outbox hopen (howed _ hlink) 2 0 _
  next => exact (List.append_nil _).symm

theorem exec_pairCtlWrite {s : State} {id : Byte} {d : Word} (h : s.reaches (.pairCtlWrite id d) id rPAIR_CTL = true) :
    exec (.pairCtlWrite id d) s = .next { s with ctl := { s.ctl.writePairCtl d with regRdata := 0 } } :=
  ctlStep_open_of_reaches h _

/-! ### The peer's word (R314) -/

/-- The peer's words are kept. -/
def Ctl.withPairWords (c : Ctl) (l : Nat) (w0 w1 : Word) : Ctl := c.modLink l fun k => { k with alive := true, pair := some (w0, w1) }

theorem exec_pairWord {s : State} {w0 w1 : Word} (ht : s.takes (.pairWord s.ctl.pairLink w0 w1) = true)
    (hgated : s.ctl.linksGated = false) :
    exec (.pairWord s.ctl.pairLink w0 w1) s =
      .next { s with ctl := (s.ctl.withPairWords s.ctl.pairLink w0 w1).checkPair } := by
  have hown : s.ctl.pairLink = (s.ctl.withPairWords s.ctl.pairLink w0 w1).pairLink := rfl
  change execPairWord s.ctl.pairLink w0 w1 s = _
  rw [execPairWord, ctlStep_takes _ ht]
  simp only [hgated, Bool.false_eq_true, if_false]
  exact congrArg (fun c => Host.Outcome.next { s with ctl := c }) (if_pos hown)

/-- Settles O56: PAIR_CTL is an access that fails with its cause or takes the fields, and the peer's words are checked against them. -/
theorem pairForming : Obligations.PairForming := by
  unfold Obligations.PairForming
  refine ⟨fun s id d h halone => ⟨_, exec_pairCtlWrite h, ?_, fun hlock => ?_, fun hlock hjoined => ?_, fun hlock hjoined => ?_⟩,
    fun s w0 w1 ht hen halone hgated => ⟨_, exec_pairWord ht hgated, ?_, ?_⟩⟩
  · have herr : ∀ cause, s.ctl.keeps (s.ctl.pairErr cause) [rPAIR_CTL, rPAIR_STATUS] := fun cause o ho =>
      (s.ctl.pairErr_setsOnly cause).2 o fun hmem => ho (List.mem_cons_of_mem _ hmem)
    change s.ctl.keeps (s.ctl.writePairCtl d) [rPAIR_CTL, rPAIR_STATUS]
    cases hlock : bit (s.ctl.reg rCONTRACT_SEL) 16
    · cases hjoined : s.ctl.joined
      · exact (Ctl.writePairCtl_open_regs halone hlock hjoined).1
      · rw [Ctl.writePairCtl_joined halone hlock hjoined]
        exact herr 2
    · rw [Ctl.writePairCtl_locked halone hlock]
      exact herr 1
  · rw [Ctl.writePairCtl_locked halone hlock]
    obtain ⟨hbit, hcause, -⟩ := s.ctl.pairErr_spec (cause := 1) (by decide)
    exact ⟨(s.ctl.pairErr_setsOnly 1).setsRegs 0, hbit, hcause⟩
  · rw [Ctl.writePairCtl_joined halone hlock hjoined]
    obtain ⟨hbit, hcause, -⟩ := s.ctl.pairErr_spec (cause := 2) (by decide)
    exact ⟨(s.ctl.pairErr_setsOnly 2).setsRegs 0, hbit, hcause⟩
  · exact ⟨(Ctl.writePairCtl_open_regs halone hlock hjoined).2, fun hgated howed =>
      Ctl.writePairCtl_outbox halone hlock hjoined hgated howed⟩
  · exact (Ctl.checkPair_setsOnly _).2
  · have hwords : ((s.ctl.withPairWords s.ctl.pairLink w0 w1).link s.ctl.pairLink).pair = some (w0, w1) := by
      rw [Ctl.withPairWords, Ctl.modLink_link, if_pos rfl]
    exact Ctl.checkPair_spec (c := s.ctl.withPairWords s.ctl.pairLink w0 w1) hwords hen halone hgated

end Sys2Proof.Machine

/-!
SUPPORT. A state that refutes the statement about integrity: the verify of a scrub visit fails where no spare row and no spare bank is
left, so the slice is fenced, and its waiting visits are dropped (R294, R297, R300, Table 10.4).
-/
namespace Sys2Proof.Machine

/-! ### A scrub visit that fences its slice -/

/-- The read of a visit of slice 63. -/
def scrubReadJob (pb pr : Nat) : Job :=
  { req := 12, purpose := .scrubRead, slice := 63, offset := 0, row := pr, chunks := [0], words := [], skip := [], phys := some pb }

/-- Visits of row 0 of banks 31 and 32 wait, and word 0 of the first row has a flipped bit; bank 31 has used its 32 spare rows, and
the spare banks stand for banks 0 and 1. -/
def wornState : State :=
  { State.reset with
    ctl := { (State.reset.ctl.modSlice 63 fun x => { x with scrubWait := [(0, 31), (0, 32)] }).modInteg fun i => { i with
        spareFor := [(63 * 34, 32), (63 * 34 + 1, 33)], spareRows := [(63 * 34 + 31, (List.range 32).map fun e => (e + 1, false))] } with
      inService := List.range 64, jobs := [scrubReadJob 31 0, scrubReadJob 32 0] }
    cells := Cells.write [] (cellAddr 63 31 0 0) 1 }

theorem wornState_visits : wornState.takes (.scrubVisit 63 [] [] [1] false) = true ∧
    (wornState.ctl.slice 63).scrubWait = [(0, 31), (0, 32)] ∧ wornState.ctl.power.stopped = false ∧ wornState.ctl.pstate ≠ 4 ∧
    wornState.ctl.toNight = false ∧ wornState.ctl.sequenced = false ∧ wornState.ctl.visitAlone 63 31 0 (scrubReadJob 31 0) ∧
    wornState.ctl.integ.lost = [] ∧ (decodeRow (withNoise (wornState.cells.readRow 63 31 0) []) []).2.1 = [] := by
  unfold Ctl.visitAlone
  decide +kernel

/-- The visits of slice 63 that wait once a step has ended. -/
def visitsLeft : Res → List (Nat × Nat)
  | .next t => (t.ctl.slice 63).scrubWait
  | _ => [(0, 31)]

/-- The row is written back, a flipped bit is read again, and the slice leaves service. -/
theorem wornState_drops : visitsLeft (exec (.scrubVisit 63 [] [] [1] false) wornState) = [] := by decide +kernel

/-- Refutes O39: a visit whose verify fails where nothing is left to spare the row fences its slice, which drops every visit that
waits, where the statement has the others wait on. -/
theorem not_integrityCommands : ¬ Obligations.IntegrityCommands := by
  intro h
  obtain ⟨-, hvisit, -⟩ := h
  obtain ⟨htakes, hwait, hstop, hnight, htoNight, hseq, halone, hlost, hreads⟩ := wornState_visits
  obtain ⟨t, x, hexec, -, hleft, -⟩ := hvisit wornState 63 0 31 [(0, 32)] [] [] [1] false (scrubReadJob 31 0) htakes hwait hstop
    hnight htoNight hseq halone (fun b r _ hmem => List.not_mem_nil (hlost ▸ hmem)) hreads
  have hdrop := wornState_drops
  rw [hexec] at hdrop
  exact absurd (hleft.symm.trans hdrop) (by decide)

end Sys2Proof.Machine

/-!
SUPPORT. A state that refutes the statement about slice fences: a burst of a ring that the block does not have, whose control
register lies at the offset of FENCED_LO, fails when the fenced slice's work goes to another port.
-/
namespace Sys2Proof.Machine

/-! ### A burst of a ring that the block does not have -/

/-- RING_CTL of ring 0x500 would lie at FENCED_LO, and its RING_STATUS at FENCED_HI. -/
theorem ringRegs_1280 : rRING_CTL 0x500 = rFENCED_LO ∧ rRING_STATUS 0x500 = rFENCED_HI := by decide

/-- A TILE_OP that runs, takes its operand C from a key stream, and has the ports of slices 0 and 1. -/
def keyedTileOp : Desc :=
  { Desc.fetched { ring := 0, idx := 0, sub := 0 } 0 [1, 0, 0, 0x8000] with stage := .run, group := [0, 1], partner := some 1 }

/-- The stream that it takes, of values that stand in memory. -/
def storedStream : Desc :=
  { Desc.fetched { ring := 0, idx := 1, sub := 0 } 0 [9] with stage := .run, partner := some 0 }

/-- Slices 0 and 1 in service with READY ports, a fragment of the TILE_OP assigned to port 0; FENCED_HI reads 1, as after a fence of
slice 32; a fetch of ring 0x500 waits for its translation, and the one cached permits nothing. -/
def strayRingState : State :=
  { State.reset with ctl := { State.reset.ctl.setReg rFENCED_HI 1 with
      inService := [0, 1], descs := [keyedTileOp, storedStream],
      slices := [(0, { Slice.reset with port := { Port.reset with
          state := .ready, queue := [{ key := keyedTileOp.key, row := 0, block := 0 }] } }),
        (1, { Slice.reset with port := { Port.reset with state := .ready } })],
      mem := { Mem.reset with
        bursts := [newBurst (.fetch 0x500 0) 0 0 0 0 []],
        shared := [{ domain := 0, page := 0, log2 := 0, frame := 0, perm := 0 }] } } }

theorem strayRingState_fences : strayRingState.reaches (.sliceFence false 0 1) 0 rFENCE_REQ_LO = true ∧
    strayRingState.ctl.fenceChange false 1 true = true ∧ 1 ∈ strayRingState.ctl.inService ∧
    1 ∉ strayRingState.ctl.fenceBits false 1 ∧ 0 ∈ strayRingState.ctl.fenceBits false 1 ∧
    0 ∉ strayRingState.ctl.fenceBits false (strayRingState.ctl.reg rFENCE_REQ_LO) ∧
    strayRingState.ctl.isIn 0 = true := by decide +kernel

/-- The fragment goes to port 1, whose key bursts are translated with the stray fetch; that fails and drains ring 0x500, and the
drain clears the FENCED bit of slice 0 that the fence has set. -/
theorem strayRingState_fenced :
    (strayRingState.ctl.writeFenceReq false 1).mask rFENCED_LO rFENCED_HI 0 = false := by decide +kernel

theorem exec_sliceFence {s : State} {hi : Bool} {id : Byte} {d : Word} {off : Nat}
    (hoff : off = if hi then rFENCE_REQ_HI else rFENCE_REQ_LO) (h : s.reaches (.sliceFence hi id d) id off = true)
    (hset : s.ctl.fenceChange hi d true = true) :
    exec (.sliceFence hi id d) s = .next { s with ctl := { s.ctl.writeFenceReq hi d with regRdata := 0 } } := by
  simp only [State.reaches, Ctl.answers, Bool.and_eq_true, decide_eq_true_eq, Bool.not_eq_true'] at h
  obtain ⟨htakes, hid, hgate⟩ := h
  change execSliceFence hi id d s = _
  rw [execSliceFence, ctlStep_takes _ htakes, if_pos hset, ← hoff, Ctl.access_ok _ hid hgate]

/-- Refutes O40 by an ill-formed state: the statement admits a burst of a ring that the block does not have, and the control register
of that ring is FENCED_LO, in which the fence of slice 0 then leaves its bit clear. -/
theorem not_sliceFences : ¬ Obligations.SliceFences := by
  intro h
  obtain ⟨hreach, hset, hone, hstays, hzero, hnew, hin⟩ := strayRingState_fences
  obtain ⟨t, hexec, hfenced⟩ := h.1 strayRingState false 0 1 rFENCE_REQ_LO rfl hreach hset ⟨1, hone, .inl hstays⟩
  obtain ⟨-, -, -, hmask, -⟩ := hfenced 0 hzero hnew hin
  have hctl : t.ctl = { strayRingState.ctl.writeFenceReq false 1 with regRdata := 0 } :=
    (congrArg State.ctl (Host.Outcome.next.inj (hexec.symm.trans (exec_sliceFence rfl hreach hset))))
  have hsame : ∀ c : Ctl, { c with regRdata := 0 }.mask rFENCED_LO rFENCED_HI 0 = c.mask rFENCED_LO rFENCED_HI 0 := fun _ => rfl
  rw [hctl, hsame, strayRingState_fenced] at hmask
  exact absurd hmask (by decide)

end Sys2Proof.Machine

/-!
SUPPORT. Marks that work which ends does not touch: PAIR_STATUS with its HALTED bit, PAIR_EVT (R319), and the signatures held for the
comparison (R317).
-/
namespace Sys2Proof.Machine

/-! ### The marks -/

/-- Which marks are looked at: those of a halt, or these and the signatures of the pair. -/
inductive Watched where
  | halt
  | pair
  deriving DecidableEq

/-- The signatures that are looked at. -/
def Watched.sigs (w : Watched) (gs : List Sig) : List Sig :=
  match w with
  | .halt => []
  | .pair => gs

/-- PAIR_STATUS, the event of a halt, and the watched signatures. -/
def Ctl.marks (c : Ctl) (w : Watched) : Word × Bool × List Sig := (c.reg rPAIR_STATUS, bit (c.reg rINT_EVT) 9, w.sigs c.sigs)

@[simp] theorem Ctl.marks_ite {p : Prop} [Decidable p] (c c' : Ctl) (w : Watched) :
    (if p then c else c').marks w = if p then c.marks w else c'.marks w := by split <;> rfl

section
variable (c : Ctl) {w : Watched} {off : Nat}

@[simp] theorem Ctl.marks_setReg (v : Word) (hs : off ≠ rPAIR_STATUS) (he : off ≠ rINT_EVT) :
    (c.setReg off v).marks w = c.marks w := by
  rw [Ctl.marks, Ctl.reg_setReg_ne _ _ hs, Ctl.reg_setReg_ne _ _ he]
  rfl

@[simp] theorem Ctl.marks_setRf (lo n v : Nat) (hs : off ≠ rPAIR_STATUS) (he : off ≠ rINT_EVT) :
    (c.setRf off lo n v).marks w = c.marks w := c.marks_setReg _ hs he
@[simp] theorem Ctl.marks_raise (i : Nat) (hs : off ≠ rPAIR_STATUS) (he : off ≠ rINT_EVT) :
    (c.raise off i).marks w = c.marks w := c.marks_setReg _ hs he
@[simp] theorem Ctl.marks_lower (i : Nat) (hs : off ≠ rPAIR_STATUS) (he : off ≠ rINT_EVT) :
    (c.lower off i).marks w = c.marks w := c.marks_setReg _ hs he
@[simp] theorem Ctl.marks_count (k : Nat) (hs : off ≠ rPAIR_STATUS) (he : off ≠ rINT_EVT) :
    (c.count off k).marks w = c.marks w := c.marks_setReg _ hs he
@[simp] theorem Ctl.marks_putBit (i : Nat) (b : Bool) (hs : off ≠ rPAIR_STATUS) (he : off ≠ rINT_EVT) :
    (c.putBit off i b).marks w = c.marks w := by
  simp [Ctl.putBit, hs, he]
@[simp] theorem Ctl.marks_putMask {lo hi : Nat} (n : Nat) (b : Bool) (hlo : lo ≠ rPAIR_STATUS ∧ lo ≠ rINT_EVT)
    (hhi : hi ≠ rPAIR_STATUS ∧ hi ≠ rINT_EVT) : (c.putMask lo hi n b).marks w = c.marks w := by
  simp [Ctl.putMask, hlo, hhi]
@[simp] theorem Ctl.marks_setReg64 {lo hi : Nat} (v : Nat) (hlo : lo ≠ rPAIR_STATUS ∧ lo ≠ rINT_EVT)
    (hhi : hi ≠ rPAIR_STATUS ∧ hi ≠ rINT_EVT) : (c.setReg64 lo hi v).marks w = c.marks w := by
  simp [Ctl.setReg64, hlo, hhi]

end

@[simp] theorem Ctl.marks_each {α : Type} {w : Watched} {f : Ctl → α → Ctl} (hf : ∀ c a, (f c a).marks w = c.marks w) (c : Ctl)
    (l : List α) : (c.each l f).marks w = c.marks w :=
  Ctl.each_induction (P := fun c' => c'.marks w = c.marks w) (fun c' a h => (hf c' a).trans h) l rfl

/-! ### Updates of the state -/

section
variable (c : Ctl) (w : Watched)

@[simp] theorem Ctl.marks_modPower (f : Power → Power) : (c.modPower f).marks w = c.marks w := rfl
@[simp] theorem Ctl.marks_modMem (f : Mem → Mem) : (c.modMem f).marks w = c.marks w := rfl
@[simp] theorem Ctl.marks_modNet (f : Net → Net) : (c.modNet f).marks w = c.marks w := rfl
@[simp] theorem Ctl.marks_modDesc (k : Key) (f : Desc → Desc) : (c.modDesc k f).marks w = c.marks w := rfl
@[simp] theorem Ctl.marks_modPort (n : Nat) (f : Port → Port) : (c.modPort n f).marks w = c.marks w := rfl
@[simp] theorem Ctl.marks_modSlot (n : Nat) (f : Slot → Slot) : (c.modSlot n f).marks w = c.marks w := rfl
@[simp] theorem Ctl.marks_modLink (n : Nat) (f : Link → Link) : (c.modLink n f).marks w = c.marks w := rfl
@[simp] theorem Ctl.marks_emit (o : Out) : (c.emit o).marks w = c.marks w := rfl
@[simp] theorem Ctl.marks_addJobs (js : List Job) : (c.addJobs js).marks w = c.marks w := rfl
@[simp] theorem Ctl.marks_setJobs (x : List Job) : Ctl.marks { c with jobs := x } w = c.marks w := rfl
@[simp] theorem Ctl.marks_addAccount (a n : Nat) : (c.addAccount a n).marks w = c.marks w := rfl
@[simp] theorem Ctl.marks_dropAges : c.dropAges.marks w = c.marks w := rfl
@[simp] theorem Ctl.marks_becomeQuiet : c.becomeQuiet.marks w = c.marks w := rfl

/-! ### Work that ends -/

@[simp] theorem Ctl.marks_charge (who : Account) (k n : Nat) : (c.charge who k n).marks w = c.marks w := by
  unfold Ctl.charge
  dsimp only
  repeat' split
  all_goals simp

@[simp] theorem Ctl.marks_putVreq (v : Nat) : (c.putVreq v).marks w = c.marks w := by simp [Ctl.putVreq]

@[simp] theorem Ctl.marks_raiseVreq : c.raiseVreq.marks w = c.marks w := by simp [Ctl.raiseVreq]

@[simp] theorem Ctl.marks_startMargin : c.startMargin.marks w = c.marks w := by simp [Ctl.startMargin]

@[simp] theorem Ctl.marks_barrier (d : Desc) : (c.barrier d).marks w = c.marks w := by simp [Ctl.barrier]

@[simp] theorem Ctl.marks_wakeOnWork : c.wakeOnWork.marks w = c.marks w := by simp [Ctl.wakeOnWork]

@[simp] theorem Ctl.marks_setSlots (ks : List Nat) (st : SlotState) (o : Owner) : (c.setSlots ks st o).marks w = c.marks w :=
  Ctl.marks_each (fun c k => c.marks_modSlot w k _) c ks

@[simp] theorem Ctl.marks_dropLatches (k : Nat) : (c.dropLatches k).marks w = c.marks w := by simp [Ctl.dropLatches]

@[simp] theorem Ctl.marks_clearSlots (ks : List Nat) : (c.clearSlots ks).marks w = c.marks w := by simp [Ctl.clearSlots]

@[simp] theorem Ctl.marks_reapRetired : c.reapRetired.marks w = c.marks w := by simp [Ctl.reapRetired]

@[simp] theorem Ctl.marks_invalDone : c.invalDone.marks w = c.marks w := by simp [Ctl.invalDone]

@[simp] theorem Ctl.marks_dropBursts (f : Burst → Bool) : (c.dropBursts f).marks w = c.marks w := by simp [Ctl.dropBursts]

@[simp] theorem Ctl.marks_portEvt (n : Nat) : (c.portEvt n).marks w = c.marks w := by simp [Ctl.portEvt]

@[simp] theorem Ctl.marks_portEnter (n : Nat) (st : PortState) (cause : Option Nat) :
    (c.portEnter n st cause).marks w = c.marks w := by simp [Ctl.portEnter]

@[simp] theorem Ctl.marks_quiesceDone (n : Nat) : (c.quiesceDone n).marks w = c.marks w := by simp [Ctl.quiesceDone]

@[simp] theorem Ctl.marks_withdraw (k : Key) : (c.withdraw k).marks w = c.marks w := by simp [Ctl.withdraw]

@[simp] theorem Ctl.marks_abandonFresh (k : Key) : (c.abandonFresh k).marks w = c.marks w := by
  have hfree : ∀ ks : List Nat, (c.each ks fun c n => c.modSlot n fun s => { s with owner := .none }).marks w = c.marks w :=
    Ctl.marks_each (fun c n => c.marks_modSlot w n _) c
  unfold Ctl.abandonFresh
  dsimp only
  rw [Ctl.marks_modDesc, Ctl.marks_clearSlots]
  split
  · exact hfree _
  · exact hfree _

@[simp] theorem Ctl.marks_releaseMap (k : Key) : (c.releaseMap k).marks w = c.marks w := by
  unfold Ctl.releaseMap
  repeat' split
  all_goals simp

@[simp] theorem Ctl.marks_sendLinkFor (who : Account) (l kind ctl : Nat) (ws : List Word) :
    (c.sendLinkFor who l kind ctl ws).marks w = c.marks w := by simp [Ctl.sendLinkFor]

@[simp] theorem Ctl.marks_sendLink (l kind ctl : Nat) (ws : List Word) : (c.sendLink l kind ctl ws).marks w = c.marks w := by
  simp [Ctl.sendLink]

@[simp] theorem Ctl.marks_close (k : Key) : (c.close k).marks w = c.marks w := by
  unfold Ctl.close
  repeat' split
  all_goals rfl

end

/-! ### Completions -/

/-- Where signatures are not looked at, what becomes of them is not seen. -/
theorem Ctl.marks_setSigs (c : Ctl) {w : Watched} (h : w.sigs = fun _ => []) (gs : List Sig) :
    Ctl.marks { c with sigs := gs } w = c.marks w := by
  simp only [Ctl.marks, h]
  rfl

theorem Ctl.marks_sendOutcome (c : Ctl) {w : Watched} (h : w.sigs = fun _ => []) (k : Key) (status detail cursor : Nat) :
    (c.sendOutcome k status detail cursor).marks w = c.marks w := by
  unfold Ctl.sendOutcome
  split
  · exact (Ctl.marks_setSigs _ h _).trans (c.marks_sendLink w _ _ _ _)
  · rfl

/-- A status that is fixed: in a pair a reconciled one is told to the peer, and its signature given up (R318). -/
theorem Ctl.marks_fixNow (c : Ctl) {w : Watched} (k : Key) {status : Nat} (detail : Nat)
    (h : w.sigs = (fun _ => []) ∨ reconciled status = false) : (c.fixNow k status detail).marks w = c.marks w := by
  have hsend : ∀ c : Ctl, (if reconciled status then c.sendOutcome k status detail 0 else c).marks w = c.marks w := fun c => by
    split
    next hrec => exact c.marks_sendOutcome (h.resolve_right (by simp [hrec])) k status detail 0
    next => rfl
  unfold Ctl.fixNow
  split
  · rfl
  · split
    · rfl
    · simp [hsend]

end Sys2Proof.Machine

/-!
SUPPORT. A pair that runs (R317 to R321): what equal and differing signatures do, outcomes that are taken, halts and their end; and
the settled statement about them.
-/
namespace Sys2Proof.Machine

/-! ### A descriptor that has ended stays so -/

theorem Ctl.endsWith.beside {c c' : Ctl} {k : Key} {st de : Nat} (h : c.endsWith k st de) (hb : c.Beside c') :
    c'.endsWith k st de := by
  unfold Ctl.endsWith
  rw [hb.desc? k]
  exact h

theorem Ctl.endsWith.fix {c : Ctl} {k : Key} {st de : Nat} (h : c.endsWith k st de) (j : Key) (st' de' : Nat) :
    (c.fix j st' de').endsWith k st de := by
  obtain ⟨d, hd, hfinal, hst, hde⟩ := h
  by_cases hj : j = k
  · subst hj
    rw [Ctl.fix_of_completed hd (by simp [Desc.completed, hfinal])]
    exact ⟨d, hd, hfinal, hst, hde⟩
  · rcases c.fix_cases j st' de' with hsame | ⟨_, _, -, -, hleads, -⟩
    · rw [hsame]
      exact ⟨d, hd, hfinal, hst, hde⟩
    · exact ⟨d, (hleads.others k hj).trans hd, hfinal, hst, hde⟩

theorem Ctl.endsWith.fences {c : Ctl} {k : Key} {st de : Nat} (h : c.endsWith k st de) : c.fences.endsWith k st de :=
  Ctl.each_induction (P := fun c => c.endsWith k st de) (fun e d he => by
    split
    · exact (he.fix d.key 0 0).beside (Ctl.wakeOnWork_beside _)
    · exact he) _ h

theorem Ctl.fixNow_endsWith {c : Ctl} {k : Key} {e : Desc} (h : c.desc? k = some e) (hopen : e.completed = false) (st de : Nat) :
    (c.fixNow k st de).endsWith k st de := by
  obtain ⟨e', hleads, hdone⟩ := Ctl.fixNow_leads h hopen st de
  exact ⟨e', hleads.self, hdone.stage, hdone.status, hdone.detail⟩

/-- A reconciled status, and that of what has committed, are not compared (R318). -/
theorem Ctl.finish_endsWith {c : Ctl} {k : Key} {e : Desc} (h : c.desc? k = some e) (hopen : e.completed = false) {st : Nat}
    (de : Nat) (hnow : reconciled st = true ∨ e.committed = true) : (c.finish k st de).endsWith k st de := by
  have hfix : c.fix k st de = c.fixNow k st de := by
    rw [Ctl.fix, h]
    rcases hnow with hrec | hcomm
    · simp [hrec]
    · simp [hcomm]
  refine Ctl.finish_induction (P := fun e => e.endsWith k st de) (fun _ _ hb he => he.beside hb)
    (fun _ j st' de' _ he => he.fix j st' de') k de ?_
  rw [hfix]
  exact Ctl.fixNow_endsWith h hopen st de

/-! ### A halt (R319, R321) -/

/-- The pair is halted, and the event is set. -/
def Ctl.Alarmed (c : Ctl) : Prop := c.halted = true ∧ bit (c.reg rINT_EVT) 9 = true

/-- What the marks say of PAIR_STATUS and of the event. -/
theorem Ctl.halt_of_marks {c c' : Ctl} {w : Watched} (h : c'.marks w = c.marks w) :
    c'.reg rPAIR_STATUS = c.reg rPAIR_STATUS ∧ bit (c'.reg rINT_EVT) 9 = bit (c.reg rINT_EVT) 9 :=
  ⟨congrArg (·.1) h, congrArg (·.2.1) h⟩

theorem Ctl.Alarmed.marks {c c' : Ctl} (h : c.Alarmed) (hm : c'.marks .halt = c.marks .halt) : c'.Alarmed := by
  obtain ⟨hstatus, hevent⟩ := Ctl.halt_of_marks hm
  exact ⟨(congrArg (bit · 30) hstatus).trans h.1, hevent.trans h.2⟩

theorem Ctl.haltPair_alarms {c : Ctl} (h : c.halted = false) (cause : Nat) : (c.haltPair cause).Alarmed := by
  have hne : rINT_EVT ≠ rPAIR_STATUS := by decide
  rw [Ctl.haltPair, if_neg (by simp [h])]
  refine ⟨?_, Ctl.bit_raise_self _ rINT_EVT (by decide)⟩
  rw [Ctl.halted, Ctl.reg_raise, if_neg hne, Ctl.bit_setRf_apart _ _ _ (by decide)]
  exact c.bit_raise_self rPAIR_STATUS (by decide)

theorem Ctl.haltPair_of_halted {c : Ctl} (h : c.halted = true) (cause : Nat) : c.haltPair cause = c := if_pos h

/-- A halt by a mismatch: the registers that record it are apart from those of the halt. -/
theorem Ctl.mismatch_eq (c : Ctl) (g : Sig) (a b : BitVec 64) :
    ∃ (c' : Ctl) (l : Nat), c'.marks .halt = c.marks .halt ∧ c.mismatch g a b = (c'.haltPair 1).sendLink l 12 0 [1] := by
  refine ⟨_, _, ?_, rfl⟩
  simp

theorem Ctl.mismatch_alarms {c : Ctl} (h : c.halted = false) (g : Sig) (a b : BitVec 64) : (c.mismatch g a b).Alarmed := by
  obtain ⟨c', l, hmarks, heq⟩ := c.mismatch_eq g a b
  have hopen : c'.halted = false := (congrArg (bit · 30) (Ctl.halt_of_marks hmarks).1).trans h
  rw [heq]
  exact (Ctl.haltPair_alarms hopen 1).marks (Ctl.marks_sendLink _ _ _ _ _ _)

theorem Ctl.Alarmed.mismatch {c : Ctl} (h : c.Alarmed) (g : Sig) (a b : BitVec 64) : (c.mismatch g a b).Alarmed := by
  obtain ⟨c', l, hmarks, heq⟩ := c.mismatch_eq g a b
  rw [heq, Ctl.haltPair_of_halted (h.marks hmarks).1]
  exact (h.marks hmarks).marks (Ctl.marks_sendLink _ _ _ _ _ _)

/-- Whatever completes, a halt stays. -/
theorem Ctl.Alarmed.fix {c : Ctl} (h : c.Alarmed) (k : Key) (st de : Nat) : (c.fix k st de).Alarmed := by
  have hnow : ∀ (c : Ctl) (k : Key) (st de : Nat), (c.fixNow k st de).marks .halt = c.marks .halt := fun c k st de =>
    c.marks_fixNow k de (.inl rfl)
  have hsigs : ∀ (c : Ctl) gs, Ctl.marks { c with sigs := gs } .halt = c.marks .halt := fun c gs => c.marks_setSigs rfl gs
  have hprop : ∀ (c : Ctl) (d : Desc), (c.propose d st de).marks .halt = c.marks .halt := fun c d => by
    simp [Ctl.propose, Ctl.sendSig, Ctl.putSig, hsigs]
  unfold Ctl.fix
  split
  · exact h
  next d _ =>
    split
    · exact h.marks (hnow c k st de)
    · split
      · exact h
      · have hp := h.marks (hprop c d)
        unfold Ctl.agree
        dsimp only
        split
        · split
          · refine hp.marks ((hnow _ _ _ _).trans ?_)
            rw [Ctl.marks_count _ _ (by decide) (by decide), hsigs]
          · exact Ctl.Alarmed.mismatch (hp.marks (hsigs _ _)) _ _ _
        · exact hp

theorem Ctl.Alarmed.finish {c : Ctl} (h : c.Alarmed) (k : Key) (st de : Nat) : (c.finish k st de).Alarmed := by
  have hcomplete : (c.complete k st de).Alarmed := by
    unfold Ctl.complete
    split
    · exact h.fix k st de
    · exact (h.fix k st de).fix _ st de
  refine Ctl.each_induction (P := Ctl.Alarmed) (fun e d he => ?_) _ hcomplete
  split
  · exact (he.fix d.key 0 0).marks (Ctl.marks_wakeOnWork _ _)
  · exact he

theorem Ctl.Alarmed.tensorProgress {c : Ctl} (h : c.Alarmed) (k : Key) : (c.tensorProgress k).Alarmed := by
  unfold Ctl.tensorProgress
  split
  · exact h
  · split
    · exact h
    · split
      · split
        · exact h.finish _ _ _
        · exact h
      · split
        · exact h
        · split
          · split
            · exact h.marks (Ctl.marks_modDesc _ _ _ _)
            · exact h
          · split
            · exact h.finish _ _ _
            · exact h

/-! ### Signatures (R317) -/

/-- Row signatures that are both there, and differ. -/
theorem Ctl.compareRow_differs {c : Ctl} {g : Sig} {a b : BitVec 64} (hown : g.local_ = some a) (hpeer : g.peer = some b)
    (hne : a ≠ b) : c.compareRow g = Ctl.mismatch { c with sigs := c.sigs.filter fun (s : Sig) => s ≠ g } g a b := by
  rw [Ctl.compareRow, hown, hpeer]
  exact if_neg hne

/-- Equal ones of a row that no running descriptor owns. -/
theorem Ctl.compareRow_equal {c : Ctl} {g : Sig} {a : BitVec 64} (hown : g.local_ = some a) (hpeer : g.peer = some a)
    (howner : c.rowOwner g.ring g.idx = none) :
    c.compareRow g = Ctl.count { c with sigs := c.sigs.filter fun (s : Sig) => s ≠ g } rPAIR_COMPARED 1 := by
  have hnone : Ctl.rowOwner { c with sigs := c.sigs.filter fun (s : Sig) => s ≠ g } g.ring g.idx = none := howner
  rw [Ctl.compareRow, hown, hpeer]
  dsimp only
  rw [if_pos rfl, hnone]

/-- What a commit with equal signatures does next: it completes with the status proposed, or commits. -/
def Ctl.agreed (c : Ctl) (ring idx : Nat) : Ctl :=
  match c.descs.find? fun d => d.key.ring = ring && d.key.idx = idx && d.stage = .peer && d.sigWait with
  | some d => if d.proposed then (c.fixNow d.key d.status d.detail).fences else c.commitNow d
  | none => c

theorem Ctl.compareCommit_differs {c : Ctl} {g : Sig} {a b : BitVec 64} {ring idx : Nat} (hg : c.sigFor ring idx none = g)
    (hown : g.local_ = some a) (hpeer : g.peer = some b) (hne : a ≠ b) :
    c.compareCommit ring idx = Ctl.mismatch { c with sigs := c.sigs.filter fun (s : Sig) => s ≠ g } g a b := by
  simp only [Ctl.compareCommit, hg, hown, hpeer]
  exact if_pos hne

theorem Ctl.compareCommit_equal {c : Ctl} {g : Sig} {a : BitVec 64} {ring idx : Nat} (hg : c.sigFor ring idx none = g)
    (hown : g.local_ = some a) (hpeer : g.peer = some a) :
    c.compareCommit ring idx =
      (Ctl.count { c with sigs := c.sigs.filter fun (s : Sig) => s ≠ g } rPAIR_COMPARED 1).agreed ring idx := by
  simp only [Ctl.compareCommit, hg, hown, hpeer]
  exact if_neg fun h => h rfl

/-- What the block does once the peer's half of a signature is there. -/
def Ctl.heard (c : Ctl) (g : Sig) : Ctl :=
  if g.row.isSome then
    match ((c.putSig g).compareRow g).rowOwner g.ring g.idx with
    | some k => ((c.putSig g).compareRow g).tensorProgress k
    | none => (c.putSig g).compareRow g
  else (c.putSig g).compareCommit g.ring g.idx

theorem exec_signature {s : State} {w0 w1 w2 w3 w4 : Word} {g : Sig}
    (ht : s.takes (.signature s.ctl.pairLink w0 w1 w2 w3 w4) = true) (hpaired : s.ctl.paired = true)
    (hopen : s.ctl.halted = false)
    (hg : g = s.ctl.sigFor (fld w0 0 6) (w1.toNat + 2 ^ 32 * w2.toNat) (if bit w0 31 then some (fld w0 16 10) else none))
    (hgone : s.ctl.gone g.ring g.idx = false) :
    exec (.signature s.ctl.pairLink w0 w1 w2 w3 w4) s =
      .next { s with ctl := (s.ctl.heard { g with peer := some (BitVec.ofNat 64 (w3.toNat + 2 ^ 32 * w4.toNat)) }) } := by
  obtain ⟨hring, hidx, hrow⟩ := s.ctl.sigFor_key (fld w0 0 6) (w1.toNat + 2 ^ 32 * w2.toNat)
    (if bit w0 31 then some (fld w0 16 10) else none)
  rw [← hg] at hring hidx hrow
  rw [hring, hidx] at hgone
  change execSignature s.ctl.pairLink w0 w1 w2 w3 w4 s = _
  rw [execSignature, ctlStep_takes _ ht, Ctl.heard]
  simp only [hpaired, hopen, hgone, ← hg, hring, hidx, hrow]
  refine congrArg (fun c => Host.Outcome.next { s with ctl := c }) (if_neg ?_)
  simp

/-- Signatures that differ halt the pair (R319). -/
theorem Ctl.heard_differs {c : Ctl} {g : Sig} {a b : BitVec 64} (hopen : c.halted = false) (hown : g.local_ = some a)
    (hpeer : g.peer = some b) (hne : a ≠ b) : (c.heard g).Alarmed := by
  have hmis : ∀ gs, (Ctl.mismatch { c with sigs := gs } g a b).Alarmed := fun gs =>
    Ctl.mismatch_alarms (c := { c with sigs := gs }) hopen g a b
  have hrow : ((c.putSig g).compareRow g).Alarmed := by
    rw [Ctl.compareRow_differs hown hpeer hne]
    exact hmis _
  unfold Ctl.heard
  split
  · split
    · exact hrow.tensorProgress _
    · exact hrow
  next hnone =>
    have hself := Ctl.sigFor_putSig c g
    rw [show g.row = none by simpa using hnone] at hself
    rw [Ctl.compareCommit_differs hself hown hpeer hne]
    exact hmis _

/-- Equal signatures of a row are counted. -/
theorem Ctl.heard_row {c : Ctl} {g : Sig} {a : BitVec 64} (hrow : g.row.isSome = true) (hown : g.local_ = some a)
    (hpeer : g.peer = some a) (howner : c.rowOwner g.ring g.idx = none) : c.counted (c.heard g) rPAIR_COMPARED 1 := by
  have hequal : (c.putSig g).compareRow g = Ctl.count { c with sigs := (c.putSig g).sigs.filter fun (s : Sig) => s ≠ g }
      rPAIR_COMPARED 1 := Ctl.compareRow_equal (c := c.putSig g) hown hpeer howner
  have hnone : ((c.putSig g).compareRow g).rowOwner g.ring g.idx = none := by
    rw [hequal]
    exact howner
  rw [Ctl.heard, if_pos hrow, hnone, hequal]
  exact c.counted_count rPAIR_COMPARED 1

/-- A commit whose signatures are equal goes on with the descriptor that waits for them. -/
theorem Ctl.agreed_endsWith {c : Ctl} {d : Desc} {ring idx : Nat}
    (hfind : c.descs.find? (fun e => e.key.ring = ring && e.key.idx = idx && e.stage = .peer && e.sigWait) = some d)
    (hdesc : c.desc? d.key = some d) :
    (d.proposed = true → (c.agreed ring idx).endsWith d.key d.status d.detail) ∧
    (d.proposed = false → d.writes.all (c.incarnationOk d) = true → (c.agreed ring idx).endsWith d.key d.goodStatus 0) := by
  have hstage : d.stage = .peer := by
    have hsel := List.find?_some hfind
    simp only [Bool.and_eq_true, decide_eq_true_eq] at hsel
    exact hsel.1.2
  have hopen : d.completed = false := by simp [Desc.completed, hstage]
  rw [Ctl.agreed, hfind]
  dsimp only
  refine ⟨fun hprop => ?_, fun hprop hok => ?_⟩
  · rw [if_pos hprop]
    exact (Ctl.fixNow_endsWith hdesc hopen _ _).fences
  · rw [if_neg (by simp [hprop]), Ctl.commitNow, if_pos hok]
    have hput : ((c.publishDesc d).modDesc d.key fun d => { d with committed := true }).desc? d.key =
        some { d with committed := true } := by
      rw [Ctl.desc?_modDesc_self _ _ (fun d => { d with committed := true }) fun _ => rfl, (c.publishDesc_spec d).1.desc?, hdesc]
      rfl
    exact Ctl.finish_endsWith hput hopen 0 (.inr rfl)

/-- Equal signatures of a commit (R316, R317). -/
theorem Ctl.heard_commit {c : Ctl} {g : Sig} {a : BitVec 64} {d : Desc} (hrow : g.row = none) (hown : g.local_ = some a)
    (hpeer : g.peer = some a)
    (hfind : c.descs.find? (fun e => e.key.ring = g.ring && e.key.idx = g.idx && e.stage = .peer && e.sigWait) = some d)
    (hdesc : c.desc? d.key = some d) :
    (d.proposed = true → (c.heard g).endsWith d.key d.status d.detail) ∧
    (d.proposed = false → d.writes.all (c.incarnationOk d) = true → (c.heard g).endsWith d.key d.goodStatus 0) := by
  have hself := Ctl.sigFor_putSig c g
  rw [hrow] at hself
  rw [Ctl.heard, if_neg (by simp [hrow]), Ctl.compareCommit_equal hself hown hpeer]
  exact Ctl.agreed_endsWith (c := Ctl.count { c with sigs := (c.putSig g).sigs.filter fun (s : Sig) => s ≠ g } rPAIR_COMPARED 1)
    hfind hdesc

/-! ### Outcomes (R318) -/

theorem exec_outcome {s : State} {w0 w1 w2 w3 : Word} {d : Desc} (ht : s.takes (.outcome s.ctl.pairLink w0 w1 w2 w3) = true)
    (hpaired : s.ctl.paired = true)
    (hdesc : s.ctl.desc? { ring := fld w3 0 6, idx := w1.toNat + 2 ^ 32 * w2.toNat, sub := 0 } = some d) :
    exec (.outcome s.ctl.pairLink w0 w1 w2 w3) s = .next { s with ctl :=
      (s.ctl.takeOutcome d (fld w0 0 8) (fld w0 8 8) (fld w0 16 11)).dropSig (fld w3 0 6) (w1.toNat + 2 ^ 32 * w2.toNat) } := by
  change execOutcome s.ctl.pairLink w0 w1 w2 w3 s = _
  rw [execOutcome, ctlStep_takes _ ht]
  simp only [hpaired, hdesc]
  rw [if_neg (by simp)]

/-- The peer's outcome ends a descriptor that has none, unless it parks it. -/
theorem Ctl.takeOutcome_endsWith {c : Ctl} {d : Desc} (hdesc : c.desc? d.key = some d) (hopen : d.completed = false) {st : Nat}
    (hrec : reconciled st = true) (hpark : st ≠ 0x20) (de cursor : Nat) :
    (c.takeOutcome d st de cursor).endsWith d.key st de := by
  rw [Ctl.takeOutcome, if_neg (by simp [hopen]), if_neg (by simp [hpark]), Ctl.meetOutcome, if_neg hpark]
  exact Ctl.finish_endsWith (c := c) hdesc hopen de (.inl hrec)

/-! ### The peer halts, or is silent (R319, R321) -/

theorem Ctl.haltPair_setsOnly (c : Ctl) (cause : Nat) : c.SetsOnly (c.haltPair cause) [rPAIR_STATUS, rINT_EVT] := by
  unfold Ctl.haltPair
  split
  · exact .refl c _
  · exact ((Ctl.SetsOnly.raise c 30 (by simp)).trans (.setRf _ 16 3 cause (by simp))).trans (.raise _ 9 (by simp))

theorem Ctl.haltPair_cause {c : Ctl} (h : c.halted = false) (cause : Nat) :
    fld ((c.haltPair cause).reg rPAIR_STATUS) 16 3 = cause % 2 ^ 3 := by
  have hne : rINT_EVT ≠ rPAIR_STATUS := by decide
  rw [Ctl.haltPair, if_neg (by simp [h]), Ctl.reg_raise, if_neg hne, Ctl.reg_setRf, if_pos rfl, fld_setFld_same _ _ (by decide)]

theorem exec_halt {s : State} {w0 : Word} (ht : s.takes (.halt s.ctl.pairLink w0) = true) (hpaired : s.ctl.paired = true) :
    exec (.halt s.ctl.pairLink w0) s = .next { s with ctl := s.ctl.haltPair (fld w0 0 3) } := by
  change execHalt s.ctl.pairLink w0 s = _
  simp [execHalt, ctlStep_takes _ ht, hpaired]

theorem exec_peerSilent {s : State} {g : Sig} (ht : s.takes .peerSilent = true) (hpaired : s.ctl.paired = true)
    (hopen : s.ctl.halted = false) (hnight : s.ctl.pstate ≠ 4) (hg : g ∈ s.ctl.sigs) (hpeer : g.peer = none)
    (hdue : g.deadline ≤ s.ctl.refTicks) :
    exec .peerSilent s = .next { s with ctl := (s.ctl.haltPair 2).sendLink s.ctl.pairLink 12 0 [2] } := by
  have hwaits : (s.ctl.sigs.any fun g => g.peer.isNone && s.ctl.due g.deadline) = true :=
    List.any_eq_true.mpr ⟨g, hg, by simp [hpeer, Ctl.due, hdue]⟩
  change execPeerSilent s = _
  rw [execPeerSilent, ctlStep_takes _ ht]
  simp only [hpaired, hopen, hwaits]
  rw [if_pos (by simp [hnight])]

/-- A halt leaves the links as they are. -/
theorem Ctl.haltPair_links (c : Ctl) (cause : Nat) :
    (c.haltPair cause).linksGated = c.linksGated ∧ (c.haltPair cause).outbox = c.outbox ∧
      ∀ l, (c.haltPair cause).link l = c.link l := by
  obtain ⟨hframe, hkeep⟩ := c.haltPair_setsOnly cause
  refine ⟨?_, ?_, fun l => ?_⟩
  · rw [Ctl.linksGated, Ctl.pstate, Ctl.rf, hkeep _ (by decide)]
    rfl
  · rw [hframe]
  · rw [Ctl.link, hframe, Ctl.link]

/-! ### PAIR_CMD (R320) -/

/-- The pair is not halted, and nothing of the peer's is held. -/
def Ctl.Unheard (c : Ctl) : Prop := c.halted = false ∧ ∀ g ∈ c.sigs, g.peer = none

/-- What the marks of a pair say of the signatures. -/
theorem Ctl.sigs_of_marks {c c' : Ctl} (h : c'.marks .pair = c.marks .pair) : c'.sigs = c.sigs := congrArg (·.2.2) h

theorem Ctl.halted_of_marks {c c' : Ctl} (h : c'.marks .pair = c.marks .pair) : c'.halted = c.halted :=
  congrArg (bit · 30) (Ctl.halt_of_marks h).1

theorem Ctl.Unheard.marks {c c' : Ctl} (h : c.Unheard) (hm : c'.marks .pair = c.marks .pair) : c'.Unheard :=
  ⟨(Ctl.halted_of_marks hm).trans h.1, (Ctl.sigs_of_marks hm).symm ▸ h.2⟩

theorem Ctl.Unheard.sigFor_peer {c : Ctl} (h : c.Unheard) (ring idx : Nat) (row : Option Nat) :
    (c.sigFor ring idx row).peer = none := by
  unfold Ctl.sigFor
  cases hfind : c.sigs.find? fun s => s.ring = ring && s.idx = idx && s.row = row with
  | none => rfl
  | some g => exact h.2 g (List.mem_of_find?_eq_some hfind)

/-- An own signature that is sent waits for the peer's. -/
theorem Ctl.Unheard.sendSig {c : Ctl} (h : c.Unheard) (k : Key) (row : Option Nat) (s : BitVec 64) : (c.sendSig k row s).Unheard := by
  have hsend := h.marks (c.marks_sendLink .pair c.pairLink 10 0 (sigWords k.ring k.idx row s))
  refine ⟨hsend.1, fun g hg => ?_⟩
  rcases List.mem_append.mp hg with hold | hnew
  · exact hsend.2 g (List.mem_filter.mp hold).1
  · rw [List.mem_singleton.mp hnew]
    exact h.sigFor_peer k.ring k.idx row

/-- A FENCE that completes with OK sends at most its own signature (R317). -/
theorem Ctl.Unheard.fix {c : Ctl} (h : c.Unheard) (k : Key) : (c.fix k 0 0).Unheard := by
  have hprop : ∀ d : Desc, (c.propose d 0 0).Unheard := fun d => by
    have hput : (((c.withdraw d.key).releaseMap d.key).modDesc d.key fun e => e.proposing 0 0).marks .pair = c.marks .pair := by
      simp
    unfold Ctl.propose
    dsimp only
    split
    · exact h.marks hput
    · exact (h.marks hput).sendSig _ _ _
  unfold Ctl.fix
  split
  · exact h
  next d _ =>
    split
    · exact h.marks (c.marks_fixNow k 0 (.inr rfl))
    · split
      · exact h
      · rw [Ctl.agree, (hprop d).sigFor_peer]
        split
        next heq => exact absurd heq (by simp)
        next => exact hprop d

theorem Ctl.Unheard.fences {c : Ctl} (h : c.Unheard) : c.fences.Unheard :=
  Ctl.each_induction (P := Ctl.Unheard) (fun e d he => by
    split
    · exact (he.fix d.key).marks (Ctl.marks_wakeOnWork _ _)
    · exact he) _ h

/-- Outside a pair a FENCE that completes sends nothing. -/
theorem Ctl.sigs_fences_of_alone {c : Ctl} (h : c.paired = false) : c.fences.sigs = c.sigs := by
  have hfix : ∀ (e : Ctl) (k : Key), e.paired = false → (e.fix k 0 0).sigs = e.sigs := fun e k he => by
    unfold Ctl.fix
    split
    · rfl
    · rw [if_pos (by simp [he])]
      exact Ctl.sigs_of_marks (e.marks_fixNow k 0 (.inr rfl))
  refine (Ctl.each_induction (P := fun e => e.paired = false ∧ e.sigs = c.sigs) (fun e d ⟨he, hs⟩ => ?_) _ ⟨h, rfl⟩).2
  split
  · exact ⟨(Ctl.wakeOnWork_beside _).paired.trans ((e.fix_apart d.key 0 0).paired.trans he),
      (Ctl.sigs_of_marks (Ctl.marks_wakeOnWork _ _)).trans ((hfix e d.key he).trans hs)⟩
  · exact ⟨he, hs⟩

theorem Ctl.modDesc_apart (c : Ctl) (k : Key) (f : Desc → Desc) : c.Apart (c.modDesc k f) := .of_regs rfl rfl rfl rfl

theorem Ctl.restartStream_apart (c : Ctl) (d : Desc) : c.Apart (c.restartStream d) := by
  have hport : ∀ (c : Ctl) (n : Nat) (p : Prop) [Decidable p] (f : Port → Port), c.Beside (if p then c.modPort n f else c) :=
    fun c n _ _ f => .ite (c.modPort_beside n f)
  unfold Ctl.restartStream
  split
  · exact .refl c
  · exact ((Ctl.Beside.each c _ fun c n => hport c n _ _).trans (Ctl.dropBursts_beside _ _)).toApart.trans (Ctl.modDesc_apart _ _ _)

theorem Ctl.abandonFresh_apart (c : Ctl) (k : Key) : c.Apart (c.abandonFresh k) := by
  have hfree : ∀ ks : List Nat, c.Beside (c.each ks fun c n => c.modSlot n fun s => { s with owner := .none }) := fun ks =>
    .each c ks fun c n => c.modSlot_beside n _
  unfold Ctl.abandonFresh
  dsimp only
  refine (Ctl.Beside.trans ?_ (Ctl.clearSlots_beside _ _)).toApart.trans (Ctl.modDesc_apart _ _ _)
  split
  · exact hfree _
  · exact (hfree _).trans (Ctl.setSlotTab_beside _ _)

theorem Ctl.forgetSig_beside (c : Ctl) (k : Key) : c.Beside (c.forgetSig k) := by
  unfold Ctl.forgetSig
  split
  · exact .refl c
  · exact c.setSigs_beside _

theorem Ctl.abandonFenced_apart (c : Ctl) (k : Key) : c.Apart (c.abandonFenced k) := by
  have hstream : c.Apart (match (c.desc? k).bind c.streamOf with
    | some s => c.restartStream s
    | none => c) := by
    split
    · exact c.restartStream_apart _
    · exact .refl c
  exact ((((hstream.trans (Ctl.withdraw_beside _ k).toApart).trans (Ctl.abandonFresh_apart _ k)).trans
    (Ctl.releaseMap_beside _ k).toApart).trans (Ctl.forgetSig_beside _ k).toApart).trans (Ctl.modDesc_apart _ _ _)

theorem Ctl.rerun_apart (c : Ctl) (d : Desc) : c.Apart (c.rerun d) := by
  unfold Ctl.rerun
  dsimp only
  split
  · exact c.modDesc_apart _ _
  · exact (c.abandonFenced_apart d.key).trans (Ctl.modDesc_apart _ _ _)

/-- The halt is over, and every signature is forgotten. -/
def Ctl.released (c : Ctl) : Ctl := { (c.lower rPAIR_STATUS 30).setRf rPAIR_STATUS 16 3 0 with sigs := [] }

theorem Ctl.released_beside (c : Ctl) : c.Beside c.released := by
  have hlower : c.Beside (c.lower rPAIR_STATUS 30) :=
    .setPairStatus c (by rw [bit_lowered _ (by decide)]; simp) (by rw [bit_lowered _ (by decide)]; simp)
  have hcause : ∀ c : Ctl, c.Beside (c.setRf rPAIR_STATUS 16 3 0) := fun c =>
    .setPairStatus c (by rw [bit_setFld, if_neg (by omega)]) (by rw [bit_setFld, if_neg (by omega)])
  exact (hlower.trans (hcause _)).trans (Ctl.setSigs_beside _ [])

theorem Ctl.released_unheard (c : Ctl) : c.released.Unheard := by
  refine ⟨?_, fun g hg => absurd hg List.not_mem_nil⟩
  change bit (((c.lower rPAIR_STATUS 30).setRf rPAIR_STATUS 16 3 0).reg rPAIR_STATUS) 30 = false
  rw [Ctl.bit_setRf_apart _ _ _ (by decide), Ctl.reg_lower, if_pos rfl, bit_lowered _ (by decide)]
  simp

/-- The end of a halt: held work is sent back, all signatures are forgotten, and FENCEs may go on. -/
theorem Ctl.unhalt_spec (c : Ctl) : c.Apart c.unhalt ∧ c.unhalt.Unheard ∧ (c.paired = false → c.unhalt.sigs = []) := by
  have hheld : ∀ l, c.Apart (c.each l fun c d => c.rerun d) := fun l =>
    Ctl.each_induction (P := c.Apart) (fun e d h => h.trans (e.rerun_apart d)) l (.refl c)
  have heq : ∃ l, c.unhalt = (c.each l fun c d => c.rerun d).released.fences := ⟨_, rfl⟩
  obtain ⟨l, heq⟩ := heq
  have hrel := (hheld l).trans (Ctl.released_beside _).toApart
  rw [heq]
  exact ⟨hrel.trans (Ctl.fences_apart _), (Ctl.released_unheard _).fences, fun halone =>
    Ctl.sigs_fences_of_alone (hrel.paired.trans halone)⟩

theorem Ctl.writePairCmd_retry {c : Ctl} (hpaired : c.paired = true) (hhalted : c.halted = true) :
    c.writePairCmd 1 = c.unhalt.count rPAIR_RETRIES 1 := by
  rw [Ctl.writePairCmd, if_neg (by simp [hpaired, hhalted])]
  rfl

theorem Ctl.writePairCmd_solo {c : Ctl} (hpaired : c.paired = true) (hhalted : c.halted = true) :
    c.writePairCmd 2 = (c.raise rPAIR_STATUS 1).unhalt := by
  rw [Ctl.writePairCmd, if_neg (by simp [hpaired, hhalted])]
  rfl

/-- RETRY goes on as a pair, with nothing of the peer's held. -/
theorem Ctl.retry_spec {c : Ctl} (hpaired : c.paired = true) (hhalted : c.halted = true) :
    (c.writePairCmd 1).Unheard ∧ (c.writePairCmd 1).paired = true ∧ c.counted (c.writePairCmd 1) rPAIR_RETRIES 1 := by
  have hne : rPAIR_RETRIES ≠ rPAIR_STATUS := by decide
  have hstatus : (c.unhalt.count rPAIR_RETRIES 1).reg rPAIR_STATUS = c.unhalt.reg rPAIR_STATUS := Ctl.reg_setReg_ne _ _ hne
  obtain ⟨hapart, ⟨hopen, hpeer⟩, -⟩ := c.unhalt_spec
  rw [Ctl.writePairCmd_retry hpaired hhalted]
  refine ⟨⟨?_, hpeer⟩, ?_, Ctl.counted_of_before (hapart.regs _ (by decide)) rfl⟩
  · rwa [Ctl.halted, hstatus]
  · rw [Ctl.paired, hstatus]
    exact hapart.paired.trans hpaired

/-- SOLO goes on alone, with every signature forgotten. -/
theorem Ctl.solo_spec {c : Ctl} (hpaired : c.paired = true) (hhalted : c.halted = true) :
    (c.writePairCmd 2).Unheard ∧ (c.writePairCmd 2).paired = false ∧ (c.writePairCmd 2).sigs = [] := by
  have halone : (c.raise rPAIR_STATUS 1).paired = false := by
    rw [Ctl.paired, c.bit_raise_self rPAIR_STATUS (by decide), Bool.not_true, Bool.and_false]
  obtain ⟨hapart, hunheard, hsigs⟩ := (c.raise rPAIR_STATUS 1).unhalt_spec
  rw [Ctl.writePairCmd_solo hpaired hhalted]
  exact ⟨hunheard, hapart.paired.trans halone, hsigs halone⟩

/-! ### The settled statement -/

/-- Settles O57: signatures are compared once both are there, a status that is reconciled or committed is final at once, and the end of
a halt forgets what the peer has sent. -/
theorem pairRunning : Obligations.PairRunning := by
  unfold Obligations.PairRunning
  refine ⟨fun s w0 w1 w2 w3 w4 g a b ht hpaired hopen hg hgone hown hb => ?_,
    fun s w0 w1 w2 w3 d ht hpaired hdesc hopen hrec hpark => ?_, fun s w0 ht hpaired hopen => ?_,
    fun s g ht hpaired hopen hnight hmem hpeer hdue hgated howed => ?_, fun s id h hpaired hhalted => ?_,
    fun s id h hpaired hhalted => ?_⟩
  · have hrow : g.row = if bit w0 31 then some (fld w0 16 10) else none := by
      rw [hg]
      exact (Ctl.sigFor_key _ _ _ _).2.2
    refine ⟨_, exec_signature ht hpaired hopen hg hgone, ?_⟩
    rw [← hb]
    refine ⟨fun hne => Ctl.heard_differs hopen hown rfl hne, fun heq hbit howner => ?_, fun heq hbit d hfind hdesc => ?_⟩
    · exact Ctl.heard_row (g := { g with peer := some b }) (by simp [hrow, hbit]) hown (heq ▸ rfl) howner
    · exact Ctl.heard_commit (g := { g with peer := some b }) (by simp [hrow, hbit]) hown (heq ▸ rfl) hfind hdesc
  · have hkey := Ctl.desc?_key hdesc
    exact ⟨_, exec_outcome ht hpaired hdesc,
      Ctl.takeOutcome_endsWith (c := s.ctl) (d := d) (hkey.symm ▸ hdesc) hopen hrec hpark _ _⟩
  · obtain ⟨hhalted, hevent⟩ := Ctl.haltPair_alarms hopen (fld w0 0 3)
    obtain ⟨hframe, hkeep⟩ := s.ctl.haltPair_setsOnly (fld w0 0 3)
    refine ⟨_, exec_halt ht hpaired, ⟨?_, hkeep⟩, hhalted, ?_, hevent⟩
    · rw [hframe]
    · exact (Ctl.haltPair_cause hopen _).trans (Nat.mod_eq_of_lt (Nat.mod_lt _ (by decide)))
  · obtain ⟨hlinks, hout, hlink⟩ := s.ctl.haltPair_links 2
    refine ⟨_, exec_peerSilent ht hpaired hopen hnight hmem hpeer hdue, ?_, ?_, ?_⟩
    · exact ((Ctl.haltPair_alarms hopen 2).marks (Ctl.marks_sendLink _ _ _ _ _ _)).1
    · rw [Ctl.reg_sendLink]
      exact Ctl.haltPair_cause hopen 2
    · rw [Ctl.sendLink_outbox (hlinks.trans hgated) (by rw [hlink, howed]), hout]
  · obtain ⟨⟨hopen, hpeer⟩, hstill, hcount⟩ := Ctl.retry_spec hpaired hhalted
    exact ⟨_, ctlStep_open_of_reaches h _, hopen, hstill, hpeer, hcount⟩
  · obtain ⟨⟨hopen, -⟩, halone, hsigs⟩ := Ctl.solo_spec hpaired hhalted
    exact ⟨_, ctlStep_open_of_reaches h _, hopen, halone, hsigs⟩

end Sys2Proof.Machine
